-- ==== Sys2Proof/Word.lean ====
section
/-!
DEFINITION. The plain types every other file is written in: bytes, byte strings, sparse maps.
-/
namespace Sys2Proof

/-- One stored or transferred byte. -/
abbrev Byte := BitVec 8

/-- A byte string, byte 0 first (R9: byte 0 is the lowest address). -/
abbrev Bytes := List Byte

/-- A sparse map from numbers: the entries that differ from the reader's default, keys rising. -/
abbrev SMap (α : Type) := List (Nat × α)

end Sys2Proof
end

