-- ==== Sys2Proof/Types.lean ====
section
/-!
DEFINITION. The data types that commands carry and the state holds: status codes, requesters, memory operations.
-/
namespace Sys2Proof

/-- Completion status codes (Table 5-8). -/
inductive Status where
  | ok | partly | retryShaped | retryQueueFull | backoff | fenced | contextGone | partitionReset
  | errTranslate | errPermission | errAlign | errFormat | errUncorrectable | errPoison | errLink
  | publishConflict | errKey | errInternal
deriving DecidableEq, Repr

/-- The parties of Table 4-4's REQUESTER field. -/
inductive Source where
  | host (h : Nat) | tile (t : Nat) | endpoint (ep : Nat) | bassoon | scrub | walker
deriving DecidableEq, Repr

/-- The atomic operations of R330. -/
inductive AtomicOp where
  | add | fadd | swap | cas | umin | umax | smin | smax | and | or | xor
deriving DecidableEq, Repr

/-- The state a host's read is granted (R69, R72). -/
inductive HostGrant where
  | none | shared | exclusive
deriving DecidableEq, Repr

/-- A tile cache's requests for a line (Table 10-3). -/
inductive TileReq where
  | gets | getm | upg
deriving DecidableEq, Repr

/-- An access to the pool, as the home orders it (R229). Addresses are pool physical. -/
inductive MemOp where
  /-- A module read of `len` bytes from `pa` (Table 3-6, "module reads"). -/
  | read (pa len : Nat)
  /-- A Narlin READ from `pa`: bit i of `smap` asks for the i-th 32-byte sector (R307). -/
  | readSpan (pa smap : Nat)
  /-- A module write from `pa` upward; `none` leaves a byte (Table 3-6, "module writes"). -/
  | write (pa : Nat) (data : List (Option Byte))
  /-- A reduction packet on one line (R190): 16 FP32 addends, a mask of lanes, STORE. -/
  | reduce (pa : Nat) (addends : List (BitVec 32)) (mask : BitVec 16) (store : Bool)
  /-- A REDUCE_FADD packet from `pa` (R328): the FP32 addends of its span, a mask of those to be added. -/
  | reduceSpan (pa : Nat) (addends : List (BitVec 32)) (mask : Nat)
  /-- An atomic of 4 or 8 bytes (R330): the operand and, for CAS, the new value. -/
  | atomic (op : AtomicOp) (pa size : Nat) (a b : BitVec 64)
  /-- A host's CXL.mem read of one line, shared or exclusive. -/
  | hostRead (h : Nat) (excl : Bool) (pa : Nat)
  /-- A host's CXL.mem write of one line; `keep` is what its meta field says of its own copy (R71). -/
  | hostWrite (h : Nat) (keep : Bool) (pa : Nat) (data : List (Option Byte))
  /-- A recall of one line from the named hosts (R63, R64, R66, R74). -/
  | recall (pa : Nat) (hosts : List Nat)
  /-- A tile cache's request at the home (R234). -/
  | tileGet (tile : Nat) (req : TileReq) (pa : Nat)
  /-- A tile cache's PUTM, with data and poison, or PUTE (R234). -/
  | tilePut (tile : Nat) (pa : Nat) (data : Option (Bytes × Bool))
deriving DecidableEq, Repr

/-- The states of a line in a tile cache (Table 10-4). -/
inductive CacheState where
  | i | s | e | m | isD | imD | smD | miA | eiA | iiA
deriving DecidableEq, Repr

/-- A Narlin packet (R305, R306): the 128-bit header, the multicast extension (MASK, WIN) when MC = 1, the carried
sectors of 32 bytes in order, and the tag slot when ENC = 1. -/
structure Packet where
  hdr : Nat
  ext : Option (Nat × Nat)
  sectors : List Bytes
  auth : Bytes
deriving DecidableEq, Repr

/-- Where a Piccolo request comes from: a request cell of 32 bytes, or a running SYNC_OP job (R245, R250). -/
inductive SyncSource where
  | cell (b : Bytes)
  | job (j : Nat)
deriving DecidableEq, Repr

/-- What travels in slots: a packet, or a cell of 32 bytes (R305, R311). -/
inductive NlUnit where
  | pkt (p : Packet)
  | cell (b : Bytes)
deriving DecidableEq, Repr

/-- In which role a management path acts (R421): the fabric manager, the driver of a partition, the monitor, any other. -/
inductive Role where
  | fm | pd (p : Nat) | mon | any
deriving DecidableEq, Repr

/-- What full training finds at one byte lane of a DRAM channel (R85, R86): the first and the last passing delay of the read
and of the write eye sweep in steps of 1/64 UI, and the command/address, read gate and Vref settings it converges to. -/
structure LaneEye where
  rdFirst : Nat
  rdLast : Nat
  wrFirst : Nat
  wrLast : Nat
  ca : Nat
  gate : Nat
  vref : Nat
deriving DecidableEq, Repr

/-- What a start finds at a physical DRAM channel (R85-R87): its device ID and its temperature in degrees C, whether the
4 KiB pattern read back with the saved settings shows no error, which of the six steps of full training converge, in
R85's order, and what training finds at the two byte lanes. -/
structure ChanReport where
  pchan : Nat
  deviceId : Nat
  temperature : Int
  patternOk : Bool
  converged : List Bool
  lanes : List LaneEye
deriving DecidableEq, Repr

/-- What a scan finds of one eye (R278): the mismatches in 2^20 UI by point, 64 * v + p for phase step p and voltage step v
(Table 12-7's numbering); a point that is not listed shows none. -/
abbrev Eye := List (Nat × Nat)

/-- What the receivers of a port decide in one flit or cell time, by trace: 0 and 1 at N1, the number 0-3 of the level
(Table 12-2) above. -/
abbrev Decided := List (List Nat)

/-- What a receiver asks of the far transmitter in its EQ blocks (R270): precoding, and a preset. -/
structure EqAsk where
  precode : Bool
  preset : Option Nat
deriving DecidableEq, Repr

/-- A CXL port that trains, and the lanes its link gives it (R1, Table 0-1). -/
structure CxlUp where
  port : Nat
  lanes : Nat
deriving DecidableEq, Repr

/-- The instructions of the TAP that drive the lands (R435). -/
inductive TapTest where
  | extest | extestPulse | extestTrain | clamp | highz
deriving DecidableEq, Repr

/-- Test-Logic-Reset, and the instructions that leave the lands to the module (R435). -/
inductive TapQuiet where
  | testLogicReset | bypass | idcode | samplePreload | dxdbg
deriving DecidableEq, Repr

/-- What the TAP holds. -/
inductive TapInstr where
  | quiet (q : TapQuiet)
  | test (t : TapTest)
deriving DecidableEq, Repr

/-- The boundary register (R446): control and output cells of UART_TXD and PFAIL_N, the observe-only input cells, and the
IEEE 1149.6 cells of every transmit and receive pair, by the pair's number (Sys2Proof.Machine.pairOf). -/
structure Boundary where
  uartTxdCtl : Bool
  uartTxdOut : Bool
  pfailCtl : Bool
  pfailOut : Bool
  uartRxd : Bool
  claimClrN : Bool
  perstN : BitVec 4
  refclk25 : Bool
  refclk100 : Bool
  refclk156 : Bool
  tx : BitVec 209
  rx : BitVec 209
deriving DecidableEq, Repr

/-- An upset of MRAM: the copies of an RWS object that no longer check, bit 0 for the first and bit 1 for the second (R438). -/
structure MramUpset where
  part : Nat
  index : Nat
  sub : Nat
  copies : Nat
deriving DecidableEq, Repr

end Sys2Proof
end

