-- ==== Sys2Proof/Syntax.lean ====
section
/-!
DEFINITION. The commands of the block: one constructor per row of the opcode table, each with the operands
this model gives it (the table gives a row a name, a rule and a summary, and no fields: log entry 2).
-/
namespace Sys2Proof

/-- The commands of the module, in the order of the opcode table. -/
inductive Instr where
  /-- COUNTER_CLEAR (R16): A write of zero to a class S counter clears COUNT and SAT, and any other value is rejected. -/
  | counterClear (part : Nat) (index : Nat) (sub : Nat) (value : Nat)
  /-- POWERED_TIME_TICK (R18): Each 100 MHz management cycle advances the powered-time counter by 10 ns. -/
  | poweredTimeTick
  /-- SERVICE_MINUTE_COMMIT (R20): Once per minute of powered time the part-hour minute count is committed to MRAM and whole hours roll into the service-hours counter. -/
  | serviceMinuteCommit
  /-- RWS_COUNTER_COMMIT (R431): Every 60 s of powered time the RWS counters are committed to MRAM. -/
  | rwsCounterCommit
  /-- RING_ENTRY_RESERVATION (R26): A stop that has held a packet ready to enter for 64 ring cycles reserves the next free slot and enters the packet when R25 allows.
  Rings 0-7 are local, 8 is the global one; a stop is named by its place in Table 1-2; `free`: free slot buffers of the next stop. -/
  | ringEntryReservation (ring stop dir free : Nat)
  /-- TILE_CLOCK_LOCK_LOSS (R30): A tile's lock monitor reports loss of lock, and the module stops the tile and treats it as failed. -/
  | tileClockLockLoss (ptile : Nat)
  /-- CXL_MEM_READ_SHARED (R69): A host's shared CXL.mem read is translated through the LD block map and served under the directory actions of Table 3-6. -/
  | cxlMemReadShared (port ld dpa tag : Nat)
  /-- CXL_MEM_READ_EXCLUSIVE (R69): A host's exclusive CXL.mem read is served with back-invalidation of other holders, or with shared state in a WTR region. -/
  | cxlMemReadExclusive (port ld dpa tag : Nat)
  /-- CXL_MEM_WRITE (R38): A host CXL.mem write is performed, or is discarded and counted when it targets an unmapped, read-only or unbound address. -/
  | cxlMemWrite (port ld dpa tag : Nat) (keep : Bool) (be : BitVec 64) (data : Bytes)
  /-- HDM_DECODER_COMMIT (R37): An HDM decoder commit is accepted only with a one-way interleave, and is otherwise refused with the CXL decoder error. -/
  | hdmDecoderCommit (port ld dec ways : Nat)
  /-- BISNP_RESPONSE (R70): A host's response to a back-invalidate snoop lets the waiting access and the accesses queued behind it on that line proceed. -/
  | bisnpResponse (host line : Nat) (gaveUp : Bool) (data : Option Bytes)
  /-- BICONFLICT (R70): A host request that crosses an outstanding BISnp to that host is resolved by the BIConflict handshake, and the snoop completes first. -/
  | biconflict (host line : Nat)
  /-- BI_TIMEOUT (R71): Expiry of the back-invalidate timeout declares the host dead. -/
  | biTimeout (host line : Nat)
  /-- HOST_DECLARE_DEAD (R77): The fabric manager writes a host table index to declare that host dead. -/
  | hostDeclareDead (host : Nat)
  /-- DEAD_HOST_SWEEP_END (R78): The dead host's tracking sweep ends, and the entry becomes ABSENT with its bindings cleared and a sweep-complete event sent. -/
  | deadHostSweepEnd (host : Nat)
  /-- HOST_TABLE_WRITE (R60): The fabric manager writes a host table entry while it is ABSENT, optionally making it LIVE. -/
  | hostTableWrite (host value : Nat)
  /-- CREATE (R62): REGION_CMD CREATE makes a region, entering FILLING or READY. -/
  | create (cmd : Bytes)
  /-- MAP (R63): REGION_CMD MAP writes an LD's block map entries for a view of the region. -/
  | mapRegion (cmd : Bytes)
  /-- UNMAP (R63): REGION_CMD UNMAP recalls the view's lines held by the LD's host and clears the LD's entries for that view. -/
  | unmap (cmd : Bytes)
  /-- ADD_DRAFT (R457): REGION_CMD ADD_DRAFT gives an LD a draft of a Published region and starts the draft copy. -/
  | addDraft (cmd : Bytes)
  /-- RELEASE (R64): REGION_CMD RELEASE clears the region's block map entries and enters RELEASING. -/
  | releaseRegion (cmd : Bytes)
  /-- QUERY (R61): REGION_CMD QUERY places the region's state and attributes in REGION_QUERY_RESULT. -/
  | query (cmd : Bytes)
  /-- REGION_ZERO_FILL_DONE (R62): The Bassoon zero fill of a FILLING region completes, and the region becomes READY. -/
  | regionZeroFillDone (region : Nat)
  /-- REGION_RECALL_DONE (R64): Recall of every tracked line of a RELEASING region completes, and the region enters SANITISING. -/
  | regionRecallDone (region : Nat)
  /-- REGION_SANITISE_DONE (R64): The sanitising fill of a released region completes, and its blocks and REGION_ID become free. -/
  | regionSanitiseDone (region : Nat)
  /-- DC_ADD_CAPACITY (R65): The fabric manager's add-capacity request adds a dynamic capacity extent over whole blocks of a region. -/
  | dcAddCapacity (port ld : Nat) (tag : Bytes) (dpa pa len : Nat)
  /-- DC_EXTENT_ACCEPT (R65): The host's accept response makes a dynamic capacity extent visible. -/
  | dcExtentAccept (port ld dpa : Nat)
  /-- DC_EXTENT_RELEASE (R66): The host's release response, or a forced release, recalls the extent's lines and stops the range decoding. -/
  | dcExtentRelease (port ld dpa : Nat)
  /-- PUBLISH (R74): A PUB_CTRL PUBLISH compares GEN, recalls the draft, invalidates readers and swaps the draft into the read view. -/
  | publish (port ld region expect token : Nat)
  /-- REBASE (R75): A PUB_CTRL REBASE copies the current read view into the LD's draft and writes GEN into PUB_EXPECT. -/
  | rebase (port ld region token : Nat)
  /-- PUB_CTRL_RSVD_OP (R73): A PUB_CTRL write with OP 0b00 or 0b11 ends at once with ERR_FORMAT. -/
  | pubCtrlRsvdOp (port ld token : Nat)
  /-- DRAFT_COPY_DONE (R74): The Bassoon copy of a publish, rebase or draft creation ends, BUSY returns to 0, and the region's next operation may start. -/
  | draftCopyDone (region : Nat)
  /-- DQS_DRIFT_ADJUST (R88): Every 500 ms each channel reads its DQS oscillator and moves read and write delays by at most one step. -/
  | dqsDriftAdjust (chan : Nat) (rd0 wr0 rd1 wr1 : Int)
  /-- REFRESH_DUE (R89): An all-bank refresh falls due for a set and is issued, or postponed under panic in an Elastic set. -/
  | refreshDue (set : Nat) (doubled : Bool)
  /-- OWED_REFRESH_ISSUE (R92): After panic falls, each owed refresh is issued tRFCab after the previous one until none remain. -/
  | owedRefreshIssue (set : Nat)
  /-- MEMORY_CHANNEL_ACCEPT (R94): A memory-channel group accepts a request, orders it against earlier requests to the line, and decodes, corrects, merges or writes it. -/
  | memoryChannelAccept (tag : Nat) (src : Source) (op : MemOp) (flip : Bytes)
  /-- PATROL_SCRUB_READ (R105): Patrol scrub reads a line of an initialised block, writing back a correction or poisoning an uncorrectable line. -/
  | patrolScrubRead (line : Nat) (flip : Bytes)
  /-- WRITE_RAW (R106): CHK_CMD WRITE_RAW writes a line's data and check-and-tag word exactly as given, and clears the block's INIT bit. -/
  | writeRaw (cmd : Bytes)
  /-- READ_RAW (R106): CHK_CMD READ_RAW returns the stored line and word without decoding. -/
  | readRaw (cmd : Bytes)
  /-- READ_DECODE (R106): CHK_CMD READ_DECODE decodes a line without write-back, logging or counting, and returns the result. -/
  | readDecode (cmd : Bytes)
  /-- BLOCK_MARK_INIT (R101): The fabric manager marks a block's INIT bit. -/
  | blockMarkInit (block : Nat)
  /-- BLOCK_INIT_QUERY (R101): A block number written to BLOCK_INIT_QUERY makes it read back that block's INIT bit. -/
  | blockInitQuery (block : Nat)
  /-- ROW_REMAP_COMPLETE (R109): The row copy ends, the remap is entered in the table, and the held requests are released to the reserve row. -/
  | rowRemapComplete (pchan bank row : Nat)
  /-- SPARE_STACK_CMD (R111): The fabric manager names a logical stack to evacuate to a spare. -/
  | spareStackCmd (stack : Nat)
  /-- STACK_EVACUATION_COMPLETE (R112): The copy ends, and the logical stack moves to the spare in one step. -/
  | stackEvacuationComplete
  /-- STACK_STOPS_ANSWERING (R113): The failing stack stops answering mid-copy, and the remaining spare lines are written poisoned and the move completed. -/
  | stackStopsAnswering (ptr : Nat)
  /-- TILE_OWNER_WRITE (R116): The fabric manager changes a tile's owner, and the tile is written back, cleared and made ready for the new owner. -/
  | tileOwnerWrite (tile part : Nat)
  /-- TILE_CLEAR_DONE (R116): Clearing of a tile for a new owner ends, and TILE_STATE becomes READY. -/
  | tileClearDone (tile : Nat)
  /-- QUEUE_ASSIGN (R117): The fabric manager assigns or releases a partition's contiguous run of job queues. -/
  | queueAssign (value : Nat)
  /-- PART_LD_WRITE (R118): The fabric manager names the LDs that expose a partition's MMIO window. -/
  | partLdWrite (part value : Nat)
  /-- Q_CFG_WRITE (R119): A Q_CFG write sets ring sizes and the vector, enables the queue with its indices zeroed, or disables fetching. -/
  | qCfgWrite (part q value : Nat)
  /-- DOORBELL (R121): A doorbell write of TAIL is taken, ignored, or discarded with DB_ERR, judged against HEAD. -/
  | doorbell (part q tail : Nat)
  /-- Q_COMP_HEAD_WRITE (R127): The driver advances CHEAD, and held completion records are written as room appears. -/
  | qCompHeadWrite (part q chead : Nat)
  /-- MSIX_UNMASK (R136): Clearing a vector's MASK sends its pending message. -/
  | msixUnmask (part vector : Nat)
  /-- DESCRIPTOR_SEAL (R49): The front end fetches the next descriptor, checks its header, translates every operand and seals it or completes it with the first failure. -/
  | descriptorSeal (queue : Nat)
  /-- JOB_DISPATCH (R122): The front end dispatches a sealed job to a permitted tile, subject to its context, free slots and the scheduler's outcome. -/
  | jobDispatch (job tile : Nat)
  /-- JOB_RETIRE (R127): A job ends and holds no further access, and its completion record is written at CTAIL or held. -/
  | jobRetire (job : Nat)
  /-- JOB_BUDGET_EXPIRY (R130): A job unretired after twice its budget sets BUDGET_EVENT and starts a fence of its partition. -/
  | jobBudgetExpiry (job : Nat)
  /-- PT_ROOT_WRITE (R58): A PT_ROOT write sets the root table and EN, clears the translation cache and restarts walks in progress. -/
  | ptRootWrite (part value : Nat)
  /-- DRAIN_INVALIDATE (R55): An accepted DI_CTRL write clears the translation cache for the range, restarts walks and records the drain set. -/
  | drainInvalidate (part base length ctrl : Nat)
  /-- NOP (R134): The NOP job does nothing and completes. -/
  | nop (job : Nat)
  /-- CTX_OPEN (R133): CTX_OPEN makes a CLOSED context OPEN and returns its GEN. -/
  | ctxOpen (job : Nat)
  /-- CTX_CLOSE (R133): CTX_CLOSE closes an OPEN context, increments GEN, ends its running jobs and broadcasts the new GEN. -/
  | ctxClose (job : Nat)
  /-- CTX_CLOSE_COMPLETE (R378): Every memory-channel group stop and Narlin egress port has acknowledged the new GEN, and CTX_CLOSE completes OK. -/
  | ctxCloseComplete (part ctx : Nat)
  /-- KV_SUMMARISE (R162): KV_SUMMARISE arms, reads, summarises and validates each listed key slot in list order. -/
  | kvSummarise (job : Nat)
  /-- ATTEND_DENSE (R174): ATTEND in dense mode streams every page of the range through the attention procedure and writes the output records. -/
  | attendDense (job : Nat)
  /-- ATTEND_BOUND (R172): ATTEND in bound mode skips eligible pages whose Sorrel bound falls below the running maxima by the margin. -/
  | attendBound (job : Nat)
  /-- ATTEND_TOPK (R173): ATTEND in top-k mode reads only the TOPK eligible pages with the highest Sorrel scores, plus the ineligible pages. -/
  | attendTopk (job : Nat)
  /-- OPT_STEP_SGD (R185): OPT_STEP with SGD with momentum updates W and M1 row by row and optionally emits W. -/
  | optStepSgd (job : Nat)
  /-- OPT_STEP_ADAMW (R185): OPT_STEP with AdamW updates W, M1 and M2 row by row and optionally emits W. -/
  | optStepAdamw (job : Nat)
  /-- OPT_STEP_EMIT_ONLY (R188): OPT_STEP with EMIT_ONLY reads W and emits it. -/
  | optStepEmitOnly (job : Nat)
  /-- GRAD_ACCUM (R190): GRAD_ACCUM scales gradient rows and adds or stores them into accumulator rows through reduction packets. -/
  | gradAccum (job : Nat)
  /-- REDUCTION_PACKET (R190): A memory-side atomic unit performs a reduction packet on one line at acceptance. -/
  | reductionPacket (tile line : Nat) (addends : List (BitVec 32)) (mask : BitVec 16) (store : Bool) (tag : Nat)
  /-- SCATTER_ADD (R196): SCATTER_ADD adds scaled, weighted gradient rows into indexed table rows with reduction packets. -/
  | scatterAdd (job : Nat)
  /-- EMB_GATHER (R194): EMB_GATHER reads indexed table rows, pools them per bag and writes the output rows. -/
  | embGather (job : Nat)
  /-- EXPERT_STREAM (R198): An EXPERT_STREAM job joins or opens a coalescing group of its partition, or is sent alone. -/
  | expertStream (job : Nat)
  /-- EXPERT_GROUP_CLOSE (R199): A group's window expires, and the blob is read once and multicast to the group mask. -/
  | expertGroupClose (group : Nat)
  /-- COPY (R332): Bassoon copies SRC to DST in ascending offset. -/
  | copy (job : Nat)
  /-- FILL (R332): Bassoon writes PATTERN repeated over DST, setting INIT for whole local blocks. -/
  | fill (job : Nat)
  /-- COMPARE (R332): Bassoon compares A and B and reports the first differing byte. -/
  | compare (job : Nat)
  /-- PROG_LOAD (R207): PROG_LOAD checks an image and writes it into the tile's program memory in full, or changes nothing. -/
  | progLoad (job : Nat)
  /-- PROG_RUN (R208): PROG_RUN seals four operands, checks LOAD_ID and starts the program at ENTRY. -/
  | progRun (job : Nat)
  /-- NOP_INSTRUCTION (R213): The NOP instruction does nothing. -/
  | nopInstruction (tile : Nat) (pn : Bool) (pg : Nat)
  /-- HALT (R211): HALT lets streams end and completes the job with OK or PARTIAL, RESULT and DETAIL. -/
  | halt (tile : Nat) (pn : Bool) (pg ra rb : Nat) (stat : Bool)
  /-- BR (R213): BR branches by OFF when COND holds for the named predicate. -/
  | br (tile : Nat) (pn : Bool) (pg pt cond off : Nat)
  /-- ADD (R213): Scalar add. -/
  | add (tile : Nat) (pn : Bool) (pg rd ra rb : Nat)
  /-- SUB (R213): Scalar subtract. -/
  | sub (tile : Nat) (pn : Bool) (pg rd ra rb : Nat)
  /-- MUL (R213): Scalar multiply, keeping the low 64 bits. -/
  | mul (tile : Nat) (pn : Bool) (pg rd ra rb : Nat)
  /-- AND (R213): Scalar bitwise and. -/
  | andOp (tile : Nat) (pn : Bool) (pg rd ra rb : Nat)
  /-- OR (R213): Scalar bitwise or. -/
  | orOp (tile : Nat) (pn : Bool) (pg rd ra rb : Nat)
  /-- XOR (R213): Scalar bitwise exclusive or. -/
  | xor (tile : Nat) (pn : Bool) (pg rd ra rb : Nat)
  /-- SHL (R213): Scalar shift left. -/
  | shl (tile : Nat) (pn : Bool) (pg rd ra rb : Nat)
  /-- SHR (R213): Scalar logical shift right. -/
  | shr (tile : Nat) (pn : Bool) (pg rd ra rb : Nat)
  /-- SAR (R213): Scalar arithmetic shift right. -/
  | sar (tile : Nat) (pn : Bool) (pg rd ra rb : Nat)
  /-- ADDI (R213): Scalar add of a sign-extended immediate. -/
  | addi (tile : Nat) (pn : Bool) (pg rd ra imm : Nat)
  /-- LI (R213): Load a sign-extended immediate. -/
  | li (tile : Nat) (pn : Bool) (pg rd imm : Nat)
  /-- LIH (R213): Load an immediate into the high 32 bits. -/
  | lih (tile : Nat) (pn : Bool) (pg rd imm : Nat)
  /-- SCMP (R213): Scalar compare into a predicate. -/
  | scmp (tile : Nat) (pn : Bool) (pg rd ra rb cmp : Nat)
  /-- LDS (R213): Scalar load from an operand, through the cache for local extents. -/
  | lds (tile : Nat) (pn : Bool) (pg rd ra opd size : Nat)
  /-- STS (R213): Scalar store to an operand. -/
  | sts (tile : Nat) (pn : Bool) (pg ra rb opd size : Nat)
  /-- LDX (R213): Scalar load from scratch. -/
  | ldx (tile : Nat) (pn : Bool) (pg rd ra size : Nat)
  /-- STX (R213): Scalar store to scratch. -/
  | stx (tile : Nat) (pn : Bool) (pg ra rb size : Nat)
  /-- SLD (R215): Start a stream from an operand to scratch. -/
  | sld (tile : Nat) (pn : Bool) (pg sid opd ra rb rc pm : Nat)
  /-- SST (R215): Start a stream from scratch to an operand, writing or reducing. -/
  | sst (tile : Nat) (pn : Bool) (pg sid opd ra rb rc pm red : Nat)
  /-- SWAIT (R213): Wait until the named streams have ended. -/
  | swait (tile : Nat) (pn : Bool) (pg imm : Nat)
  /-- SFENCE (R223): Hold the sequencer until earlier STS are visible and earlier streams have ended. -/
  | sfence (tile : Nat) (pn : Bool) (pg : Nat)
  /-- STREAM_END (R217): An outstanding stream ends, releasing waiting instructions or raising a DATA fault. -/
  | streamEnd (tile sid : Nat)
  /-- VADD (R213): Vector add. -/
  | vadd (tile : Nat) (pn : Bool) (pg rd ra rb : Nat)
  /-- VSUB (R213): Vector subtract. -/
  | vsub (tile : Nat) (pn : Bool) (pg rd ra rb : Nat)
  /-- VMUL (R213): Vector multiply. -/
  | vmul (tile : Nat) (pn : Bool) (pg rd ra rb : Nat)
  /-- VFMA (R213): Vector fused multiply-add. -/
  | vfma (tile : Nat) (pn : Bool) (pg rd ra rb rc : Nat)
  /-- VDIV (R213): Vector divide. -/
  | vdiv (tile : Nat) (pn : Bool) (pg rd ra rb : Nat)
  /-- VSQRT (R213): Vector square root. -/
  | vsqrt (tile : Nat) (pn : Bool) (pg rd ra : Nat)
  /-- VMAX (R213): Vector maximum. -/
  | vmax (tile : Nat) (pn : Bool) (pg rd ra rb : Nat)
  /-- VMIN (R213): Vector minimum. -/
  | vmin (tile : Nat) (pn : Bool) (pg rd ra rb : Nat)
  /-- VEXP2 (R213): Vector exp2. -/
  | vexp2 (tile : Nat) (pn : Bool) (pg rd ra : Nat)
  /-- VCMP (R213): Vector compare into a predicate. -/
  | vcmp (tile : Nat) (pn : Bool) (pg rd ra rb cmp : Nat)
  /-- VSEL (R213): Vector select by a predicate. -/
  | vsel (tile : Nat) (pn : Bool) (pg rd ra rb rc : Nat)
  /-- VRED (R213): Reduce 64 lanes by the fixed tree into a scalar. -/
  | vred (tile : Nat) (pn : Bool) (pg rd ra op : Nat)
  /-- VBCAST (R213): Broadcast a scalar to every lane. -/
  | vbcast (tile : Nat) (pn : Bool) (pg rd ra : Nat)
  /-- VIOTA (R213): Set each lane to its index plus an immediate. -/
  | viota (tile : Nat) (pn : Bool) (pg rd imm : Nat)
  /-- VLD (R213): Load and widen 64 elements from scratch. -/
  | vld (tile : Nat) (pn : Bool) (pg rd ra rb fmt disp : Nat)
  /-- VST (R213): Narrow and store 64 lanes to scratch. -/
  | vst (tile : Nat) (pn : Bool) (pg rd ra rb fmt disp : Nat)
  /-- MZERO (R213): Zero an accumulator. -/
  | mzero (tile : Nat) (pn : Bool) (pg rd : Nat)
  /-- MMA (R218): Accumulate A·B into an accumulator in the matrix unit. -/
  | mma (tile : Nat) (pn : Bool) (pg rd ra rb rc fmt fmtB : Nat)
  /-- MRD (R213): Read two accumulator rows into a vector. -/
  | mrd (tile : Nat) (pn : Bool) (pg rd ra imm : Nat)
  /-- MWR (R213): Write a vector into two accumulator rows. -/
  | mwr (tile : Nat) (pn : Bool) (pg rd ra imm : Nat)
  /-- PAND (R213): Predicate and. -/
  | pand (tile : Nat) (pn : Bool) (pg rd ra rb : Nat)
  /-- POR (R213): Predicate or. -/
  | por (tile : Nat) (pn : Bool) (pg rd ra rb : Nat)
  /-- PXOR (R213): Predicate exclusive or. -/
  | pxor (tile : Nat) (pn : Bool) (pg rd ra rb : Nat)
  /-- PNOT (R213): Predicate not. -/
  | pnot (tile : Nat) (pn : Bool) (pg rd ra : Nat)
  /-- PSETN (R213): Set the first n predicate lanes. -/
  | psetn (tile : Nat) (pn : Bool) (pg rd ra : Nat)
  /-- PTOS (R213): Copy a predicate to a scalar. -/
  | ptos (tile : Nat) (pn : Bool) (pg rd ra : Nat)
  /-- PFROMS (R213): Copy a scalar to a predicate. -/
  | pfroms (tile : Nat) (pn : Bool) (pg rd ra : Nat)
  /-- GETS (R234): The home handles a tile's shared read request, snooping when the line has a filter entry, and grants S or E. -/
  | gets (tile line : Nat)
  /-- GETM (R234): The home handles a tile's read for ownership and grants M. -/
  | getm (tile line : Nat)
  /-- UPG (R234): The home handles an upgrade of an S line and grants ACK_UPG or DATA_M. -/
  | upg (tile line : Nat)
  /-- PUTM (R234): The home takes or drops a tile's M write-back and answers ACK_PUT. -/
  | putm (tile line : Nat) (data : Bytes) (poison : Bool)
  /-- PUTE (R234): The home takes or drops a tile's E eviction and answers ACK_PUT. -/
  | pute (tile line : Nat)
  /-- GACK (R229): The requester's GACK ends the home's transaction on the line. -/
  | gack (tile line : Nat)
  /-- SNP_DONE (R231): A bridge's combined snoop answer reaches the home, which completes the snoop once all eight have arrived. -/
  | snpDone (line bridge hitM : Nat) (hitS ownS : Bool) (data : Option (Nat × Bytes × Bool))
  /-- SNP_S (R233): A tile cache answers an SNP_S and moves its line state by Table 10-4. -/
  | snpS (tile line : Nat) (requester : Option Nat)
  /-- SNP_I (R233): A tile cache answers an SNP_I and gives up its copy. -/
  | snpI (tile line : Nat) (requester : Option Nat)
  /-- DATA_S (R233): A tile receives a grant in S or E and sends GACK. -/
  | dataS (tile line : Nat) (excl : Bool) (data : Bytes)
  /-- DATA_M (R233): A tile receives a grant in M and sends GACK. -/
  | dataM (tile line : Nat) (data : Bytes)
  /-- ACK_UPG (R233): A tile in SM_D receives ACK_UPG, enters M and sends GACK. -/
  | ackUpg (tile line : Nat)
  /-- ACK_PUT (R233): A tile receives ACK_PUT and completes its eviction. -/
  | ackPut (tile line : Nat) (stale : Bool)
  /-- ERR_DATA (R233): A tile receives ERR_DATA, returns the line to I, sends GACK and faults the access. -/
  | errData (tile line : Nat) (status : Status)
  /-- SNOOP_TIMEOUT (R240): Not all SNP_DONE messages arrive within SNOOP_TIMEOUT_US, starting a tile-domain failure. -/
  | snoopTimeout (line : Nat)
  /-- GACK_TIMEOUT (R240): No GACK arrives within SNOOP_TIMEOUT_US of a grant, starting a tile-domain failure. -/
  | gackTimeout (line : Nat)
  /-- SALVAGE_END (R241): Salvage ends or the drain budget expires, and homes poison still-owned lines, clear filters and invalidate caches. -/
  | salvageEnd
  /-- TILE_DOMAIN_READY (R241): Dispatch resumes after recovery, and the tile-domain-ready event is sent. -/
  | tileDomainReady
  /-- PICCOLO_BANK_ENQUEUE (R250): A Piccolo request removed at the stop joins its bank queue, or is answered BACKOFF when the queue is full. -/
  | piccoloBankEnqueue (src : SyncSource)
  /-- PICCOLO_INIT (R246): INIT sets an object's TYPE, VALUE and AUX. -/
  | piccoloInit (bank : Nat)
  /-- PICCOLO_READ (R246): READ returns an object's VALUE. -/
  | piccoloRead (bank : Nat)
  /-- SEM_WAIT (R246): SEM_WAIT takes ARG from a semaphore, or waits, or backs off under TRY. -/
  | semWait (bank : Nat)
  /-- SEM_POST (R246): SEM_POST adds to a semaphore and serves its waiters. -/
  | semPost (bank : Nat)
  /-- MUTEX_LOCK (R251): MUTEX_LOCK takes a free mutex, with a parked hit for its parked owner, or waits. -/
  | mutexLock (bank : Nat)
  /-- MUTEX_UNLOCK (R246): MUTEX_UNLOCK passes the mutex to the head waiter or parks it on the holder. -/
  | mutexUnlock (bank : Nat)
  /-- MUTEX_BREAK (R253): MUTEX_BREAK hands a held mutex to the head waiter at the holder's break point. -/
  | mutexBreak (bank : Nat)
  /-- BAR_ARRIVE (R246): BAR_ARRIVE counts an arrival and releases all waiters at the threshold. -/
  | barArrive (bank : Nat)
  /-- EVENT_SET (R246): EVENT_SET ORs flags in and grants waiters whose condition holds. -/
  | eventSet (bank : Nat)
  /-- EVENT_CLEAR (R246): EVENT_CLEAR clears flags. -/
  | eventClear (bank : Nat)
  /-- EVENT_WAIT (R246): EVENT_WAIT is granted when its flag condition holds, and waits otherwise. -/
  | eventWait (bank : Nat)
  /-- CANCEL (R255): CANCEL withdraws the requester's matching request, while waiting or after grant. -/
  | cancel (bank : Nat)
  /-- SYNC_RANGE_WRITE (R243): The fabric manager sets a partition's range of synchronisation objects. -/
  | syncRangeWrite (part value : Nat)
  /-- FORWARDED_CLOCK_LOCK (R269): The forwarded clock locks, ending DETECT and starting LOCK. -/
  | forwardedClockLock (port : Nat)
  /-- FORWARDED_CLOCK_LOSS (R266): The forwarded clock is lost for 1 µs, and the port leaves ACTIVE and returns to DETECT. -/
  | forwardedClockLoss (port : Nat)
  /-- TS1 (R269): A received TS1 block advances lock, polarity and deskew in LOCK. -/
  | ts1 (port : Nat) (trace : Nat) (inverted : Bool) (block : Bytes)
  /-- TS2 (R273): A received TS2 block advances EXCHANGE, checking KIND and UNIT_ID. -/
  | ts2 (port : Nat) (trace : Nat) (block : Bytes)
  /-- STEP_BLOCK (R270): A received STEP block carries the target rate and switch countdown. -/
  | stepBlock (port : Nat) (trace : Nat) (block : Bytes)
  /-- RATE_SWITCH (R270): At the end of the STEP block carrying SWITCH_AT 0 the ends switch rate and then send EQ blocks at P4. -/
  | rateSwitch (port : Nat)
  /-- EQ_BLOCK (R270): A received EQ block carries preset requests, ACK and PASS, applied after 8 consecutive blocks. -/
  | eqBlock (port : Nat) (trace : Nat) (adapted : Bool) (ask : EqAsk) (block : Bytes)
  /-- QUALIFICATION_END (R271): After 2^27 PRBS symbols the lanes are judged and assigned, or the step fails back to the previous rate. -/
  | qualificationEnd (port : Nat) (errors : List Nat) (eyes : List (List Eye))
  /-- BRINGUP_PHASE_TIMEOUT (R269): A bring-up phase's limit expires, and the port returns to DETECT or to the previous rate. -/
  | bringupPhaseTimeout (port : Nat)
  /-- NL_RETRAIN_CMD (R272): The fabric manager takes a port to DETECT for a full bring-up. -/
  | nlRetrainCmd (port : Nat)
  /-- NL_PORT_ENABLE_WRITE (R269): Writing NL_PORT_ENABLE holds a port in DISABLED, or lets it start bring-up. -/
  | nlPortEnableWrite (port : Nat) (value : Nat)
  /-- SPARE_REQ (R276): On SPARE_REQ the transmitter duplicates logical lane L onto the spare from the next flit boundary. -/
  | spareReq (port : Nat) (lane : Nat)
  /-- SPARE_COMPARE_END (R276): The spare compare window ends, and the receiver selects the spare and sends SPARE_DONE, or sends SPARE_ABORT. -/
  | spareCompareEnd (port : Nat) (lane : Nat)
  /-- SPARE_DONE (R276): On SPARE_DONE the transmitter sends the standby pattern on the former lane. -/
  | spareDone (port : Nat) (lane : Nat)
  /-- SPARE_ABORT (R276): On SPARE_ABORT the spare returns to standby. -/
  | spareAbort (port : Nat) (lane : Nat)
  /-- BACKGROUND_EYE_SCAN (R279): Every scan period each receive lane is scanned, updating widths and heights and triggering substitution or lane restoration. -/
  | backgroundEyeScan (port : Nat) (line : List (List Eye)) (phase : List (List Eye))
  /-- NL_EYE_SCAN_CMD (R280): A commanded eye scan of one lane starts, or completes at once with NOT_ACTIVE or BUSY. -/
  | nlEyeScanCmd (cmd : Bytes)
  /-- EYE_SCAN_COMMAND_END (R280): A commanded scan finishes or is aborted, and NL_EYE_RESULT is written. -/
  | eyeScanCommandEnd (edges : Eye) (points : Eye)
  /-- LOOPBACK_NEAR_PARALLEL (R281): The port leaves ACTIVE and enters near-end parallel loopback. -/
  | loopbackNearParallel (port : Nat) (rate : Nat) (pattern : Nat) (p32 : Nat)
  /-- LOOPBACK_NEAR_SERIAL (R281): The port leaves ACTIVE and enters near-end serial loopback. -/
  | loopbackNearSerial (port : Nat) (rate : Nat) (pattern : Nat) (p32 : Nat)
  /-- LOOPBACK_FAR_END (R281): The port leaves ACTIVE and brings up far-end loopback with LOOP_REQ. -/
  | loopbackFarEnd (port : Nat) (rate : Nat) (pattern : Nat) (p32 : Nat)
  /-- LOOPBACK_END (R281): MODE 0x00 ends the loopback and starts bring-up at DETECT. -/
  | loopbackEnd (port : Nat) (rx : Decided)
  /-- LOOP_REQ (R282): A peer's LOOP_REQ is honoured when NL_FAR_LOOP_ACCEPT is 1, and otherwise answered LOOP_NAK. -/
  | loopReq (port : Nat)
  /-- FLIT_TRANSMIT (R290): In each flit time the port sends a DATA, replayed or IDLE flit carrying the current ACK, NAK, credit and LANE_OP fields. -/
  | flitTransmit (port : Nat) (pick : Nat)
  /-- FLIT_RECEIVE (R293): A received flit is checked, its LCTL applied, and its payload accepted, discarded as a duplicate, or recovered by NAK. -/
  | flitReceive (port : Nat) (full : Nat) (rx : Decided)
  /-- REPLAY_TIMER_EXPIRY (R298): The replay timer expires and a replay starts, or the link goes down at the replay limit. -/
  | replayTimerExpiry (port : Nat)
  /-- LINK_INIT_TIMEOUT (R292): An end not UP within 100 µs of ACTIVE takes the link down with cause 0x05. -/
  | linkInitTimeout (port : Nat)
  /-- FLIT_LOCK_LOSS (R294): 64 consecutive bad flits declare loss of flit lock, and the link goes down with cause 0x08. -/
  | flitLockLoss (port : Nat)
  /-- RETRAIN_REQ (R302): A received RETRAIN_REQ takes the link down with cause 0x06 and the port to DETECT. -/
  | retrainReq (port : Nat)
  /-- READ (R328): A Narlin READ at the module's endpoint returns the requested sectors in order. -/
  | read (port : Nat) (packet : Packet)
  /-- READ_WORD (R328): A READ_WORD returns 4 or 8 bytes from pool or MMIO. -/
  | readWord (port : Nat) (packet : Packet)
  /-- WRITE (R328): A Narlin WRITE writes its span and is answered COMP when visible. -/
  | write (port : Nat) (packet : Packet)
  /-- WRITE_BE (R328): A WRITE_BE writes the enabled bytes of one 8-byte word and is answered COMP. -/
  | writeBe (port : Nat) (packet : Packet)
  /-- WRITE_POSTED (R328): A WRITE_POSTED writes the enabled bytes without an answer. -/
  | writePosted (port : Nat) (packet : Packet)
  /-- ATOMIC_ADD (R330): Atomic add modulo the size, returning the old value. -/
  | atomicAdd (port : Nat) (packet : Packet)
  /-- ATOMIC_FADD (R330): Atomic FP32 add. -/
  | atomicFadd (port : Nat) (packet : Packet)
  /-- ATOMIC_SWAP (R330): Atomic swap. -/
  | atomicSwap (port : Nat) (packet : Packet)
  /-- ATOMIC_CAS (R330): Atomic compare-and-swap. -/
  | atomicCas (port : Nat) (packet : Packet)
  /-- ATOMIC_UMIN (R330): Atomic unsigned minimum. -/
  | atomicUmin (port : Nat) (packet : Packet)
  /-- ATOMIC_UMAX (R330): Atomic unsigned maximum. -/
  | atomicUmax (port : Nat) (packet : Packet)
  /-- ATOMIC_SMIN (R330): Atomic signed minimum. -/
  | atomicSmin (port : Nat) (packet : Packet)
  /-- ATOMIC_SMAX (R330): Atomic signed maximum. -/
  | atomicSmax (port : Nat) (packet : Packet)
  /-- ATOMIC_AND (R330): Atomic and. -/
  | atomicAnd (port : Nat) (packet : Packet)
  /-- ATOMIC_OR (R330): Atomic or. -/
  | atomicOr (port : Nat) (packet : Packet)
  /-- ATOMIC_XOR (R330): Atomic exclusive or. -/
  | atomicXor (port : Nat) (packet : Packet)
  /-- REDUCE_FADD (R328): A REDUCE_FADD adds each carried FP32 value into the pool by reduction. -/
  | reduceFadd (port : Nat) (packet : Packet)
  /-- SEQ_ACK (R319): A SEQ_ACK advances the source's ACKED for a destination and class, or for cells. -/
  | seqAck (port : Nat) (packet : Packet)
  /-- MC_ACK (R324): An MC_ACK acknowledges multicast packets for one member. -/
  | mcAck (port : Nat) (packet : Packet)
  /-- MC_SKIP (R325): An MC_SKIP adds a member to the job's SKIPPED set for the covered packets. -/
  | mcSkip (port : Nat) (packet : Packet)
  /-- READ_RESP (R321): A READ_RESP is matched to an outstanding request and completes it, or is discarded. -/
  | readResp (port : Nat) (packet : Packet)
  /-- COMP (R321): A COMP is matched to an outstanding request and completes it. -/
  | comp (port : Nat) (packet : Packet)
  /-- ATOMIC_RESP (R321): An ATOMIC_RESP returns the old value of an originated atomic. -/
  | atomicResp (port : Nat) (packet : Packet)
  /-- TRANSIT_FORWARD (R314): A packet for another endpoint is routed over SPRAY, ALT or the escape port, replicated for multicast, or answered by proxy. -/
  | transitForward (port : Nat) (nlUnit : NlUnit)
  /-- SEQ_ACK_TIMER (R319): 1 µs after an unacknowledged delivery the destination sends SEQ_ACK. -/
  | seqAckTimer (cell : Bool) (source : Nat) (tc : Nat)
  /-- MC_ACK_TIMER (R324): 1 µs after an acceptance the destination sends MC_ACK. -/
  | mcAckTimer (source : Nat) (tc : Nat)
  /-- REORDER_TIMEOUT (R320): EXP missing for NF_REORDER_TIMEOUT_US is taken as lost, and delivery resumes from the oldest held packet. -/
  | reorderTimeout (cell : Bool) (source : Nat) (tc : Nat)
  /-- REQUEST_TIMEOUT (R321): An originated request unanswered for NF_REQ_TIMEOUT_US ends with ERR_LINK. -/
  | requestTimeout (dst : Nat) (tag : Nat)
  /-- ESC_WAIT_EXPIRY (R315): A packet waiting NF_ESC_WAIT_NS at a fabric egress is marked ESC. -/
  | escWaitExpiry (place : Nat)
  /-- ROUTE_ENTRY_WRITE (R313): The fabric manager writes a route table entry, resetting sequence state when VALID rises. -/
  | routeEntryWrite (endpoint : Nat) (value : Nat)
  /-- NF_OWN_ENDPOINT_WRITE (R313): The fabric manager sets the module's endpoint ID while no port is UP. -/
  | nfOwnEndpointWrite (value : Nat)
  /-- SENDING_OPPORTUNITY (R338): At a sending opportunity the port picks a subscriber by minimum or weight tier and a service, and sends its head packet. -/
  | sendingOpportunity (port : Nat)
  /-- SHAPING_CREDIT_ACCRUAL (R340): A waiting node's shaping credit rises by 1/256 packet at its RATE. -/
  | shapingCreditAccrual (port : Nat) (sub : Nat) (svc : Nat)
  /-- SCH_SUB_MIN_WRITE (R342): A write of a subscriber minimum share is refused if the sum would exceed 1,024. -/
  | schSubMinWrite (sub : Nat) (value : Nat)
  /-- PART_CMD_CREATE (R351): PART_CMD CREATE takes a partition from FREE to HELD. -/
  | partCmdCreate (cmd : Bytes)
  /-- PART_CMD_START (R351): PART_CMD START takes a partition from HELD to ACTIVE. -/
  | partCmdStart (cmd : Bytes)
  /-- PART_CMD_HOLD (R351): PART_CMD HOLD fences an ACTIVE partition into HELD. -/
  | partCmdHold (cmd : Bytes)
  /-- PART_CMD_DESTROY (R368): PART_CMD DESTROY revokes the partition's keys and fences it toward sanitising. -/
  | partCmdDestroy (cmd : Bytes)
  /-- PART_CMD_RESET (R374): PART_CMD RESET fences and resets an ACTIVE partition. -/
  | partCmdReset (cmd : Bytes)
  /-- PART_SELF_RESET (R376): A partition driver resets its own partition. -/
  | partSelfReset (part value : Nat)
  /-- FENCE_DRAIN_END (R372): Every outstanding request of the fenced domain completes, and the answer phase runs. -/
  | fenceDrainEnd (part : Nat)
  /-- FENCE_DRAIN_BUDGET_EXPIRY (R373): The drain budget expires, and Shawm abandons the remaining requests. -/
  | fenceDrainBudgetExpiry (part : Nat)
  /-- FENCE_CONFIRM (R377): The fence's confirm phase clears domain state, sets the partition state, writes PART_RESET_STATUS and reports. -/
  | fenceConfirm (part : Nat)
  /-- SANITISING_FILL_DONE (R368): The last sanitising fill of a destroyed partition ends, and it becomes FREE. -/
  | sanitisingFillDone (part : Nat)
  /-- PART_BLOCKS_WRITE (R353): The fabric manager adds, lowers or removes a partition's block grants, starting any drain. -/
  | partBlocksWrite (part value : Nat)
  /-- BLOCK_WITHDRAWAL_DRAIN_END (R368): The drain of a withdrawn block ends, and the block is zero-filled if no grant or region remains. -/
  | blockWithdrawalDrainEnd (part block : Nat)
  /-- EP_PARTITION_WRITE (R356): The fabric manager binds endpoints to partitions. -/
  | epPartitionWrite (value : Nat)
  /-- PART_KEYS_WRITE (R357): The fabric manager sets a partition's key-slot run, payload slot and ENC_REQUIRED. -/
  | partKeysWrite (part value : Nat)
  /-- INSTALL (R359): KEY_SLOT_CMD INSTALL unwraps a key into a slot and makes it LIVE. -/
  | install (driver : Option Nat) (cmd : Bytes)
  /-- ROLL (R359): KEY_SLOT_CMD ROLL moves CURRENT to PREVIOUS, installs a new key, and makes the slot ROLLING. -/
  | roll (driver : Option Nat) (cmd : Bytes)
  /-- REVOKE (R359): KEY_SLOT_CMD REVOKE empties a slot. -/
  | revoke (driver : Option Nat) (cmd : Bytes)
  /-- KEY_ROLL_EXPIRY (R359): KEY_ROLL_US after a roll, PREVIOUS is cleared and the slot becomes LIVE. -/
  | keyRollExpiry (slot : Nat)
  /-- ATTESTATION_REQUEST (R365): A request for a module or partition attestation report starts building it. -/
  | attestationRequest (driver : Option Nat) (req : Bytes)
  /-- ATTESTATION_REPORT_READY (R365): The signed report is placed in ATTESTATION_REPORT. -/
  | attestationReportReady
  /-- BLOB_UNWRAP_CMD (R369): A command to open a weight blob into DST finds the DEV_ID and unwraps the content key. -/
  | blobUnwrapCmd (driver : Option Nat) (cmd : Bytes)
  /-- BLOB_CHUNK_DONE (R369): A chunk's decryption ends, and its plaintext is written after tag verification, or the unwrap ends with ERR_KEY. -/
  | blobChunkDone
  /-- TILE_HEARTBEAT (R381): A tile's heartbeat reaches the management island. -/
  | tileHeartbeat (ptile : Nat)
  /-- TILE_HEARTBEAT_TIMEOUT (R381): No heartbeat arrives within TILE_HEARTBEAT_US, and the tile is marked FAILED. -/
  | tileHeartbeatTimeout (ptile : Nat)
  /-- PORT_STARVATION (R382): A Narlin egress head packet lacks credit for PORT_STARVE_US, fencing the peer or retraining the port. -/
  | portStarvation (port : Nat) (tc : Nat)
  /-- CXL_PORT_STARVATION (R382): A CXL egress head message lacks link credit for PORT_STARVE_US, and an event is raised. -/
  | cxlPortStarvation (port : Nat)
  /-- MODULE_RESET_ORDERLY (R383): An ORDERLY module reset fences all partitions, spills the directory cache, and then resets as IMMEDIATE. -/
  | moduleResetOrderly
  /-- MODULE_RESET_IMMEDIATE (R383): An IMMEDIATE module reset puts DRAM into self-refresh, resets all islands but management, and starts a warm start. -/
  | moduleResetImmediate (cause : Nat)
  /-- SPARE_TILE_CMD (R387): A failed or named tile is replaced by a free spare that keeps its logical number. -/
  | spareTileCmd (tile : Nat)
  /-- PHASE_FAILURE (R388): A core-rail phase fails and is shed, with matrix issue limited below 24 phases. -/
  | phaseFailure
  /-- LEASE_RENEW_TIMER (R391): Every LEASE_RENEW_US the holder sends LEASE_RENEW. -/
  | leaseRenewTimer (role : Nat)
  /-- LEASE_GRANT (R391): A LEASE_GRANT renews the lease, ends grace, or grants a role to this module. -/
  | leaseGrant (role epoch sent : Nat)
  /-- LEASE_EXPIRY (R391): The lease runs out without a grant, and the holder enters grace and sets LEASE_LATE. -/
  | leaseExpiry (role : Nat)
  /-- LEASE_DEMOTION (R392): Three lease periods without a grant demote the holder, ending role service. -/
  | leaseDemotion (role : Nat)
  /-- COMMIT_CYCLE (R395): Every COMMIT_CYCLE_US the holder sends changed metadata records and COMMIT, and hands over at a boundary when due. -/
  | commitCycle (role : Nat) (recs : List (Nat × Bytes))
  /-- LINE_HEAD (R394): A LINE_HEAD mirror cell starts a mirrored line write. -/
  | lineHead (rx : Decided)
  /-- LINE_DATA (R394): A LINE_DATA cell carries the rest of a mirrored line, which is applied at acceptance. -/
  | lineData (rx : Decided)
  /-- TAG_ONLY (R394): A TAG_ONLY cell mirrors a change of a line's TAG. -/
  | tagOnly (rx : Decided)
  /-- META (R394): A META cell carries part of a metadata record for the commit cycle. -/
  | metaCell (rx : Decided)
  /-- COMMIT (R395): A COMMIT cell applies the cycle's records if CRC and epoch check, or discards the cycle. -/
  | commitCell (rx : Decided)
  /-- RESYNC_HEAD (R398): A RESYNC_HEAD cell starts a resynchronisation copy of a duplex line. -/
  | resyncHead (rx : Decided)
  /-- ROLE_READY (R398): A returning module's ROLE READY starts the holder's resynchronisation. -/
  | roleReady (rx : Decided)
  /-- ROLE_SYNCED (R399): ROLE SYNCED tells the holder that the standby is synced, enabling return to home. -/
  | roleSynced (rx : Decided)
  /-- ROLE_HANDOVER (R399): ROLE HANDOVER tells the home module that the holder has drained and released. -/
  | roleHandover (rx : Decided)
  /-- ROLE_RELEASE (R393): ROLE RELEASE tells the standby that its buddy has released the role. -/
  | roleRelease (rx : Decided)
  /-- RESYNC_COPY_END (R398): The resynchronisation copy ends, and the returning module becomes STANDBY_SYNCED. -/
  | resyncCopyEnd (role : Nat)
  /-- SIMPLEX (R396): SIMPLEX completes held duplex writes without mirroring, and the standby becomes stale. -/
  | simplex (role epoch : Nat)
  /-- DUPLEX (R396): DUPLEX restores mirroring and starts resynchronisation. -/
  | duplex (role epoch : Nat)
  /-- ROLE_SWAP_CMD (R400): ROLE_SWAP_CMD moves a role to a synced buddy by handover. -/
  | roleSwapCmd (value : Nat)
  /-- DIVERGENCE_RESOLVE (R397): The fabric manager names which copy of a frozen record to keep. -/
  | divergenceResolve (value : Nat)
  /-- INPUT_SAMPLE (R401): Every 10 µs the input voltage is sampled, driving PFAIL_N and the qualification timers. -/
  | inputSample (vin : Nat)
  /-- INPUT_QUALIFIED (R401): The input is within 40–60 V for 20 ms, and the main stage starts a cold start. -/
  | inputQualified (phases : Nat)
  /-- UV_WARNING (R401): The input is below 38 V for 100 µs, and a UV warning is raised. -/
  | uvWarning
  /-- UV_QUALIFICATION_EXPIRY (R401): The input is below 36 V for PWR_UV_QUAL_US, starting a protective shutdown. -/
  | uvQualificationExpiry
  /-- OV_QUALIFICATION_EXPIRY (R401): The input is above 60 V for 100 ms, starting a protective shutdown. -/
  | ovQualificationExpiry
  /-- PFAIL_RELEASE (R402): The input is at or above 38 V for 10 ms, and PFAIL_N is released. -/
  | pfailRelease
  /-- THERMAL_SAMPLE (R405): A sensor reading raises a thermal warning or trips a thermal shutdown. -/
  | thermalSample (junction : Nat) (stack : Nat)
  /-- REFERENCE_LOSS (R407): A reference clock is lost, and the response of Table 19-2 applies. -/
  | referenceLoss (ref : Nat)
  /-- REFERENCE_RESTORED (R407): A lost reference is present within ±100 ppm for 10 ms, resuming the waiting start or bring-up. -/
  | referenceRestored (ref : Nat)
  /-- POWER_STATE_M0 (R408): A power-state command to M0 ungates all units, exits M2, or starts from M3 or a thermal shutdown. -/
  | powerStateM0 (via : Option Nat) (cmd : Bytes)
  /-- POWER_STATE_M1 (R409): A power-state command to M1 replaces the tile and port gate masks. -/
  | powerStateM1 (via : Option Nat) (cmd : Bytes)
  /-- POWER_STATE_M2 (R410): A power-state command to M2 quiesces traffic and puts the DRAM into self-refresh. -/
  | powerStateM2 (via : Option Nat) (cmd : Bytes)
  /-- POWER_STATE_M3 (R411): A power-state command to M3 powers down everything but the management island. -/
  | powerStateM3 (via : Option Nat) (cmd : Bytes)
  /-- POWER_TRANSITION_END (R408): A power-state transition ends, setting LAST_STATUS and clearing BUSY. -/
  | powerTransitionEnd
  /-- IMAGE_REQUEST_TIMER (R416): Every 1 s without an image, the boot ROM sends a WOP image request. -/
  | imageRequestTimer
  /-- IMAGE_DATA (R416): A WOP IMAGE_DATA message delivers image bytes to the boot ROM. -/
  | imageData (offset : Nat) (data : Bytes)
  /-- IMAGE_WRITE (R427): A mailbox IMAGE_WRITE delivers image bytes and starts verification on FINAL. -/
  | imageWrite (ld : Nat) (input : Bytes)
  /-- IMAGE_VERIFY (R417): The boot ROM checks signature, digest and SVN, accepting or discarding the image. -/
  | imageVerify
  /-- TILE_WAVE (R415): Every 50 µs the next wave of physical tiles is powered and self-tested. -/
  | tileWave (present : Nat) (passed : Nat)
  /-- TILE_FIRMWARE_DELIVERY (R418): The tile section is broadcast, and each tile checks it against TILE_DIGEST. -/
  | tileFirmwareDelivery (bad : List Nat)
  /-- DRAM_TRAINING_DONE (R85): Channel training or warm reuse ends, sparing stacks whose channels fail. -/
  | dramTrainingDone (reports : List ChanReport) (repaired : List (Nat × Nat))
  /-- TOPOLOGY_CHECK (R419): After required ports exchange or TOPO_WAIT_MS expires, each port is judged and READY is declared or a topology event sent. -/
  | topologyCheck (expired : Bool) (buddyHolds : Bool)
  /-- TOPO_ACCEPT (R419): TOPO_ACCEPT copies discovered entries into the expected topology and releases those ports. -/
  | topoAccept (mask : Nat)
  /-- EXPECTED_TOPOLOGY_WRITE (R419): A write of EXPECTED_TOPOLOGY triggers a new evaluation. -/
  | expectedTopologyWrite (value : Nat)
  /-- FW_ROLLBACK_COMMIT (R417): The fused anti-rollback counter is raised to the running image's SVN. -/
  | fwRollbackCommit (value : Nat)
  /-- WOP_READ (R423): A WOP READ is checked and answered with the object's value. -/
  | wopRead (ctr : Nat) (index : Nat) (sub : Nat) (part : Nat) (tag : Option Bytes)
  /-- WOP_WRITE (R423): A WOP WRITE is checked and performed. -/
  | wopWrite (ctr : Nat) (index : Nat) (sub : Nat) (part : Nat) (data : Bytes) (tag : Option Bytes)
  /-- EVENT_ACK (R426): An EVENT_ACK removes the matching event from the unacknowledged set. -/
  | eventAck (ctr : Nat)
  /-- EVENT_RESEND_TIMER (R426): Every 100 ms each unacknowledged event is resent. -/
  | eventResendTimer
  /-- FM_KEY_CMD (R424): FM_KEY_CMD installs or replaces the FM key and claims the module. -/
  | fmKeyCmd (role : Role) (cmd : Bytes)
  /-- OBJ_READ (R427): Mailbox OBJ_READ returns an object's value. -/
  | objRead (ld : Nat) (index : Nat) (sub : Nat) (part : Nat)
  /-- OBJ_WRITE (R427): Mailbox OBJ_WRITE writes an object. -/
  | objWrite (ld : Nat) (index : Nat) (sub : Nat) (part : Nat) (data : Bytes)
  /-- OBJ_WINDOW_READ (R427): An OBJ_CTRL read operation reads the object named in OBJ_ADDR into OBJ_DATA. -/
  | objWindowRead (ld : Nat) (token : Nat) (addr : Nat) (len : Nat) (data : Bytes)
  /-- OBJ_WINDOW_WRITE (R427): An OBJ_CTRL write operation writes OBJ_DATA to the object named in OBJ_ADDR. -/
  | objWindowWrite (ld : Nat) (token : Nat) (addr : Nat) (len : Nat) (data : Bytes)
  /-- MGMT_CELL_READ (R428): A MGMT read cell is answered with a response cell carrying the value. -/
  | mgmtCellRead (cell : Bytes)
  /-- MGMT_CELL_WRITE (R428): A MGMT write cell writes an object and is answered with a response cell. -/
  | mgmtCellWrite (cell : Bytes)
  /-- OBJECT_WRITE (R423): A write to an object with no behaviour of its own is checked and stored atomically. -/
  | objectWrite (role : Role) (index : Nat) (sub : Nat) (part : Nat) (data : Bytes)
  /-- EXPERT_UNLOCK (R429): Writing 0xE0C1 unlocks a function group's expert objects for the writing role. -/
  | expertUnlock (role : Role) (group : Nat)
  /-- EXPERT_LOCK (R429): Writing 0x0000 locks a group for the writing role. -/
  | expertLock (role : Role) (group : Nat)
  /-- EXPERT_UNLOCK_LAPSE (R429): An unlock lapses when its lifetime has passed in powered time. -/
  | expertUnlockLapse (mon : Bool) (group : Nat)
  /-- LOVAGE_READ (R433): Lovage returns COUNT records from SEQ by majority. -/
  | lovageRead (role : Role) (count : Nat) (seq : Nat)
  /-- LOVAGE_READ_COPIES (R433): Lovage returns all three copies of one record. -/
  | lovageReadCopies (role : Role) (seq : Nat)
  /-- LOVAGE_FREEZE (R433): Lovage stops overwriting. -/
  | lovageFreeze (role : Role)
  /-- LOVAGE_UNFREEZE (R433): Lovage resumes overwriting. -/
  | lovageUnfreeze (role : Role)
  /-- LOVAGE_CLEAR (R433): Lovage clears all three copies. -/
  | lovageClear (role : Role)
  /-- FIFE_STATUS (R434): Fife status reports power state, bring-up, input status and PTIME. -/
  | fifeStatus
  /-- FIFE_GET (R434): Fife get reads an object. -/
  | fifeGet (index : Nat) (sub : Nat)
  /-- FIFE_SET (R434): Fife set writes an object. -/
  | fifeSet (index : Nat) (sub : Nat) (data : Bytes)
  /-- FIFE_LOVAGE (R434): Fife lovage lists the newest records. -/
  | fifeLovage (n : Nat)
  /-- FIFE_UNLOCK (R434): Fife unlock writes EXPERT_UNLOCK to unlock a group. -/
  | fifeUnlock (group : Nat)
  /-- FIFE_LOCK (R434): Fife lock writes EXPERT_UNLOCK to lock a group. -/
  | fifeLock (group : Nat)
  /-- FIFE_RESET (R434): Fife reset causes an IMMEDIATE module reset. -/
  | fifeReset
  /-- JTAG_TEST_INSTRUCTION (R435): Loading EXTEST, EXTEST_PULSE, EXTEST_TRAIN, CLAMP or HIGHZ causes an IMMEDIATE module reset and holds the module in reset. -/
  | jtagTestInstruction
  /-- JTAG_TEST_RELEASE (R435): The TAP returns to Test-Logic-Reset or a non-disturbing instruction, and a warm start begins. -/
  | jtagTestRelease
  /-- CLAIM_CLR_SAMPLE (R451): Two low samples of CLAIM_CLR_N at power-on clear the FM key and make the module UNCLAIMED. -/
  | claimClrSample (low1 : Bool) (low2 : Bool)
  /-- PERST_ASSERT (R452): Asserting PERST_Np resets CXL port p alone. -/
  | perstAssert (port : Nat)
  /-- PERST_RELEASE (R452): Releasing PERST_Np lets the port train, with credit withheld as the module's state requires. -/
  | perstRelease (up : CxlUp)
  /-- POWER_ON (R18): Input power reaches the management island, powered time starts at zero, RWS objects are restored and Lovage finds its newest record. -/
  | powerOn (bad : List MramUpset)
  /-- INPUT_POWER_LOSS (R401): The input falls below 24 V, input power counts as lost, and INIT bits, the summary-valid map, key slots and Piccolo objects are lost with it. -/
  | inputPowerLoss
  /-- MEMORY_TEST_DONE (R100): The cold-start memory test and its zero fill of the whole data space end, setting every block's INIT bit and ending start phase 0x06. -/
  | memoryTestDone
  /-- WITHDRAWN_BLOCK_FILL_DONE (R368): The zero fill of a block withdrawn outside DESTROY ends, its INIT bit becomes 1 and new grants of it are accepted again. -/
  | withdrawnBlockFillDone (block : Nat)
  /-- CXL_PORT_RESET (R371): A CXL link reset or hot reset from the host or switch resets one CXL port without touching pool state, host table or directory tags. -/
  | cxlPortReset (up : CxlUp)
  /-- PC_ERR_CAUSE_WRITE (R118): A write to PC_ERR_CAUSE clears each bit written as 1. -/
  | pcErrCauseWrite (part value : Nat)
  /-- QUEUE_REGISTER_WRITE (R119): A write to Q_DESC_BASE, Q_COMP_BASE, Q_BUDGET_US or Q_TILES is ignored unless the queue is disabled and drained, with unowned Q_TILES bits stored as 0. -/
  | queueRegisterWrite (part q reg value : Nat)
deriving DecidableEq, Repr

end Sys2Proof
end

