-- ==== Sys2Proof/Machine/Bits.lean ====
section
/-!
DEFINITION. Bit fields, byte order (R9) and sparse maps: the helpers every operation is written with.
-/
namespace Sys2Proof.Machine

/-- Bits `hi` down to `lo` of a number (R8). -/
def field (x hi lo : Nat) : Nat := (x >>> lo) % 2 ^ (hi + 1 - lo)

/-- Bit `i` of a number. -/
def bitOf (x i : Nat) : Bool := (x >>> i) % 2 == 1

/-- A truth value as a bit. -/
def b2n (b : Bool) : Nat := if b then 1 else 0

/-- The number with bit `i` set to `b`. -/
def putBit (x i : Nat) (b : Bool) : Nat :=
  if bitOf x i == b then x else if b then x + 2 ^ i else x - 2 ^ i

/-- The number with bits `hi` down to `lo` replaced by `v`. -/
def putField (x hi lo v : Nat) : Nat :=
  x - (field x hi lo) * 2 ^ lo + (v % 2 ^ (hi + 1 - lo)) * 2 ^ lo

/-- The `w` bytes of a number, least significant first (R9). -/
def leBytes : Nat → Nat → Bytes
  | 0, _ => []
  | w + 1, x => BitVec.ofNat 8 x :: leBytes w (x / 256)

/-- The number that bytes spell, least significant first (R9). -/
def ofLe : Bytes → Nat
  | [] => 0
  | b :: bs => b.toNat + 256 * ofLe bs

/-- `n` bytes of a string from offset `off`, zeros beyond its end. -/
def slice (bs : Bytes) (off n : Nat) : Bytes :=
  let t := (bs.drop off).take n
  t ++ List.replicate (n - t.length) 0

/-- The number in `n` bytes of a string from offset `off`. -/
def leAt (bs : Bytes) (off n : Nat) : Nat := ofLe (slice bs off n)

/-- Zero bytes. -/
def zeros (n : Nat) : Bytes := List.replicate n 0

/-- The bytes with those from `off` on replaced. -/
def splice (bs : Bytes) (off : Nat) (v : Bytes) : Bytes :=
  bs.take off ++ v ++ bs.drop (off + v.length)

/-- The positions of the ones of a number, below `n`, rising. -/
def onesBelow (n x : Nat) : List Nat := (List.range n).filter (bitOf x)

/-- The signed value of an `n`-bit number. -/
def signed (n x : Nat) : Int := if bitOf x (n - 1) then (x % 2 ^ n : Nat) - (2 ^ n : Nat) else (x % 2 ^ n : Nat)

/-- Modular comparison of class W values (R17): `a` is later than `b`. -/
def laterW (n a b : Nat) : Bool :=
  let d := (a + 2 ^ n - b % 2 ^ n) % 2 ^ n
  decide (1 ≤ d) && decide (d < 2 ^ (n - 1))

/-! ## Sparse maps -/

/-- The entry of a key. -/
def smFind? {α : Type} (k : Nat) : SMap α → Option α
  | [] => none
  | (i, v) :: m => if i = k then some v else smFind? k m

/-- The value of a key, `d` where there is no entry. -/
def smGet {α : Type} (d : α) (k : Nat) (m : SMap α) : α := (smFind? k m).getD d

/-- The map without a key. -/
def smErase {α : Type} (k : Nat) : SMap α → SMap α
  | [] => []
  | (i, v) :: m => if i = k then smErase k m else (i, v) :: smErase k m

/-- The map with an entry put in at its place in the rising order. -/
def smInsert {α : Type} (k : Nat) (v : α) : SMap α → SMap α
  | [] => [(k, v)]
  | (i, u) :: m => if k < i then (k, v) :: (i, u) :: m else (i, u) :: smInsert k v m

/-- The map with a key's entry set. -/
def smPut {α : Type} (k : Nat) (v : α) (m : SMap α) : SMap α := smInsert k v (smErase k m)

/-- The map with a key's value set; the default needs no entry. -/
def smSet {α : Type} [DecidableEq α] (d : α) (k : Nat) (v : α) (m : SMap α) : SMap α :=
  if v = d then smErase k m else smPut k v m

/-- The map with a key's value changed. -/
def smUpd {α : Type} [DecidableEq α] (d : α) (k : Nat) (f : α → α) (m : SMap α) : SMap α :=
  smSet d k (f (smGet d k m)) m

/-- The map with an entry changed where there is one. -/
def smAlter {α : Type} (k : Nat) (f : α → α) : SMap α → SMap α
  | [] => []
  | (i, v) :: m => if i = k then (i, f v) :: m else (i, v) :: smAlter k f m

/-- The canonical form: keys strictly rising from above `lo`. -/
def smRisingFrom {α : Type} : Nat → SMap α → Bool
  | _, [] => true
  | lo, (i, _) :: m => decide (lo ≤ i) && smRisingFrom (i + 1) m

/-- The canonical form of a map with default `d`: keys strictly rising, no entry equal to `d`. -/
def smCanon {α : Type} [DecidableEq α] (d : α) (m : SMap α) : Bool :=
  smRisingFrom 0 m && m.all (fun e => decide (e.2 ≠ d))

end Sys2Proof.Machine
end

