-- ==== Sys2Proof/Machine/NumFmt.lean ====
section
/-!
DEFINITION. Number formats and arithmetic (spec/06): every value is an exact binary fraction until it is rounded once.
-/
namespace Sys2Proof.Machine

/-- An exact value: NaN, a signed infinity, or (-1)^neg * m * 2^e (a signed zero when m = 0). -/
inductive FVal where
  | nan
  | inf (neg : Bool)
  | fin (neg : Bool) (m : Nat) (e : Int)
deriving DecidableEq, Repr

/-- What the top encodings of a format mean (Table 6-2): infinities and NaNs, NaN alone (E4M3), nothing. -/
inductive TopCodes where
  | ieee | nanOnly | none
deriving DecidableEq, Repr

/-- A floating-point format of Table 6-2; `saturates` is the overflow rule of Table 6-3. -/
structure FloatFmt where
  expW : Nat
  manW : Nat
  bias : Nat
  top : TopCodes
  saturates : Bool
deriving DecidableEq, Repr

def fmtFP32 : FloatFmt := ⟨8, 23, 127, .ieee, false⟩
def fmtBF16 : FloatFmt := ⟨8, 7, 127, .ieee, false⟩
def fmtFP16 : FloatFmt := ⟨5, 10, 15, .ieee, false⟩
def fmtE4M3 : FloatFmt := ⟨4, 3, 7, .nanOnly, true⟩
def fmtE5M2 : FloatFmt := ⟨5, 2, 15, .ieee, true⟩
def fmtE3M2 : FloatFmt := ⟨3, 2, 3, .none, true⟩
def fmtE2M3 : FloatFmt := ⟨2, 3, 1, .none, true⟩
def fmtE2M1 : FloatFmt := ⟨2, 1, 1, .none, true⟩

/-- The sign-less encoding of the largest finite value. -/
def fmtMaxMag (f : FloatFmt) : Nat :=
  match f.top with
  | .ieee => (2 ^ f.expW - 1) * 2 ^ f.manW - 1
  | .nanOnly => 2 ^ (f.expW + f.manW) - 2
  | .none => 2 ^ (f.expW + f.manW) - 1

/-- The exact value of an encoding (R138). -/
def fDecode (f : FloatFmt) (x : Nat) : FVal :=
  let mag := x % 2 ^ (f.expW + f.manW)
  let neg := bitOf x (f.expW + f.manW)
  let ex := mag / 2 ^ f.manW
  let man := mag % 2 ^ f.manW
  if fmtMaxMag f < mag then
    (if f.top = .ieee && man == 0 then .inf neg else .nan)
  else if ex = 0 then .fin neg man (1 - (f.bias : Int) - f.manW)
  else .fin neg (man + 2 ^ f.manW) ((ex : Int) - f.bias - f.manW)

/-- How a value between two neighbours is rounded: to nearest even (R144), or stochastically with a 16-bit random
number (R148). -/
inductive Rounding where
  | nearest
  | stochastic (r : Nat)
deriving DecidableEq, Repr

/-- `m / 2^sh` rounded to an integer (R144, R148). -/
def roundShift (mode : Rounding) (m sh : Nat) : Nat :=
  let k := m >>> sh
  let rem := m % 2 ^ sh
  match mode with
  | .nearest => if 2 ^ sh < 2 * rem || (2 ^ sh == 2 * rem && k % 2 == 1) then k + 1 else k
  | .stochastic r => if 65536 ≤ (rem * 65536) / 2 ^ sh + r then k + 1 else k

/-- The encoding of `m * 2^e` rounded to a format without its sign; beyond the largest finite value, the encoding
after it. -/
def fRoundMag (f : FloatFmt) (mode : Rounding) (m : Nat) (e : Int) : Nat :=
  if m = 0 then 0
  else
    let qmin : Int := 1 - (f.bias : Int) - f.manW
    let q : Int := max (e + (Nat.log2 m : Int) - f.manW) qmin
    let k := if q ≤ e then m <<< (e - q).toNat else roundShift mode m (q - e).toNat
    min ((q - qmin).toNat * 2 ^ f.manW + k) (fmtMaxMag f + 1)

/-- The canonical NaN of a format (R150, Table 6-3). -/
def fNaN (f : FloatFmt) : Nat :=
  match f.top with
  | .ieee => (2 ^ f.expW - 1) * 2 ^ f.manW + 2 ^ (f.manW - 1)
  | _ => 2 ^ (f.expW + f.manW) - 1

/-- Narrow an exact value to a format: one rounding (R144, R148), overflow and specials by Table 6-3 (R145). -/
def fEncode (f : FloatFmt) (mode : Rounding) (v : FVal) : Nat :=
  let sgn (neg : Bool) : Nat := if neg then 2 ^ (f.expW + f.manW) else 0
  let sat := if f.saturates then fmtMaxMag f else (2 ^ f.expW - 1) * 2 ^ f.manW
  match v with
  | .nan => fNaN f
  | .inf neg => sgn neg + sat
  | .fin neg m e =>
    let mag := fRoundMag f mode m e
    sgn neg + (if fmtMaxMag f < mag then sat else mag)

/-- An integer rounded to nearest even from `m * 2^e`, or stochastically. -/
def roundInt (mode : Rounding) (m : Nat) (e : Int) : Nat :=
  if 0 ≤ e then m <<< e.toNat else roundShift mode m (-e).toNat

/-- Narrow to INT8 (R139, Table 6-3): the 8-bit two's complement encoding, `lo` its most negative value. -/
def int8Encode (lo : Nat) (mode : Rounding) (v : FVal) : Nat :=
  match v with
  | .nan => 0
  | .inf neg => if neg then 256 - lo else 127
  | .fin neg m e =>
    let k := roundInt mode m e
    if neg then (if k = 0 then 0 else 256 - min k lo) else min k 127

/-- The exact value of an INT8 encoding. -/
def int8Decode (x : Nat) : FVal := if bitOf x 7 then .fin true (256 - x % 256) 0 else .fin false (x % 256) 0

/-- FP32 of an exact value, rounded once (R144). -/
def f32 (v : FVal) : BitVec 32 := BitVec.ofNat 32 (fEncode fmtFP32 .nearest v)

/-- The exact value of an FP32 word. -/
def f32Val (x : BitVec 32) : FVal := fDecode fmtFP32 x.toNat

/-- The canonical FP32 NaN (R150). -/
def f32NaN : BitVec 32 := 0x7FC00000#32

/-! ## Exact arithmetic and FP32 operations (R150-R154) -/

/-- The exact sum; an exact zero takes the sign R151 gives it. -/
def vAdd (a b : FVal) : FVal :=
  match a, b with
  | .nan, _ => .nan
  | _, .nan => .nan
  | .inf s, .inf t => if s = t then .inf s else .nan
  | .inf s, _ => .inf s
  | _, .inf t => .inf t
  | .fin s m e, .fin t n d =>
    let q := min e d
    let x : Int := (m <<< (e - q).toNat : Nat)
    let y : Int := (n <<< (d - q).toNat : Nat)
    let z := (if s then -x else x) + (if t then -y else y)
    if z = 0 then .fin (s && t) 0 q else .fin (decide (z < 0)) z.natAbs q

/-- The exact product (Table 6-5: zero times infinity is NaN). -/
def vMul (a b : FVal) : FVal :=
  match a, b with
  | .nan, _ => .nan
  | _, .nan => .nan
  | .inf s, .inf t => .inf (s != t)
  | .inf s, .fin t n _ => if n = 0 then .nan else .inf (s != t)
  | .fin s m _, .inf t => if m = 0 then .nan else .inf (s != t)
  | .fin s m e, .fin t n d => .fin (s != t) (m * n) (e + d)

/-- The value with its sign changed. -/
def vNeg : FVal → FVal
  | .nan => .nan
  | .inf s => .inf (!s)
  | .fin s m e => .fin (!s) m e

/-- A quotient carried to 64 or more bits with a sticky bit below them: rounding it rounds the exact quotient. -/
def vDiv (a b : FVal) : FVal :=
  match a, b with
  | .nan, _ => .nan
  | _, .nan => .nan
  | .inf _, .inf _ => .nan
  | .inf s, .fin t _ _ => .inf (s != t)
  | .fin s _ _, .inf t => .fin (s != t) 0 0
  | .fin s m e, .fin t n d =>
    if n = 0 then (if m = 0 then .nan else .inf (s != t))
    else
      let k := 64 + Nat.log2 n
      let x := m <<< k
      .fin (s != t) (2 * (x / n) + (if x % n = 0 then 0 else 1)) (e - d - k - 1)

/-- The integer square root, from bit `i - 1` down. -/
def isqrtFrom (n : Nat) : Nat → Nat → Nat
  | 0, r => r
  | i + 1, r => isqrtFrom n i (if (r + 2 ^ i) * (r + 2 ^ i) ≤ n then r + 2 ^ i else r)

/-- The integer square root. -/
def isqrt (n : Nat) : Nat := isqrtFrom n (Nat.log2 n / 2 + 1) 0

/-- The square root carried to 60 or more bits with a sticky bit. -/
def vSqrt (a : FVal) : FVal :=
  match a with
  | .nan => .nan
  | .inf s => if s then .nan else .inf false
  | .fin s m e =>
    if m = 0 then .fin s 0 0
    else if s then .nan
    else
      let odd : Nat := if e % 2 = 0 then 0 else 1
      let x := m <<< (128 + odd)
      let r := isqrt x
      .fin false (2 * r + (if r * r = x then 0 else 1)) ((e - 128 - odd) / 2 - 1)

/-- FP32 addition (R152). -/
def f32Add (a b : BitVec 32) : BitVec 32 := f32 (vAdd (f32Val a) (f32Val b))
def f32Sub (a b : BitVec 32) : BitVec 32 := f32 (vAdd (f32Val a) (vNeg (f32Val b)))
def f32Mul (a b : BitVec 32) : BitVec 32 := f32 (vMul (f32Val a) (f32Val b))
/-- Fused multiply-add: one rounding, of the sum (R152). -/
def f32Fma (a b c : BitVec 32) : BitVec 32 := f32 (vAdd (vMul (f32Val a) (f32Val b)) (f32Val c))
def f32Div (a b : BitVec 32) : BitVec 32 := f32 (vDiv (f32Val a) (f32Val b))
def f32Sqrt (a : BitVec 32) : BitVec 32 := f32 (vSqrt (f32Val a))

/-- Is this FP32 word a NaN? -/
def f32IsNaN (a : BitVec 32) : Bool := decide (0x7F800000 < a.toNat % 2 ^ 31)
/-- Is it an infinity? -/
def f32IsInf (a : BitVec 32) : Bool := a.toNat % 2 ^ 31 == 0x7F800000
/-- Is it finite? -/
def f32IsFinite (a : BitVec 32) : Bool := decide (a.toNat % 2 ^ 31 < 0x7F800000)

/-- An order key of a word that is no NaN: -0 and +0 share the key 0. -/
def f32Key (a : BitVec 32) : Int :=
  if bitOf a.toNat 31 then -((a.toNat % 2 ^ 31 : Nat) : Int) else (a.toNat % 2 ^ 31 : Nat)

/-- The maximum (R151, R153): NaN propagates, max(-0, +0) is +0. -/
def f32Max (a b : BitVec 32) : BitVec 32 :=
  if f32IsNaN a || f32IsNaN b then f32NaN
  else if f32Key a < f32Key b then b
  else if f32Key b < f32Key a then a
  else a &&& b

/-- The minimum: NaN propagates, min(-0, +0) is -0. -/
def f32Min (a b : BitVec 32) : BitVec 32 :=
  if f32IsNaN a || f32IsNaN b then f32NaN
  else if f32Key a < f32Key b then a
  else if f32Key b < f32Key a then b
  else a ||| b

/-- Bits of the fixed-point fraction in which exp2 is computed (log entry 13). -/
def expBits : Nat := 128

/-- The product of 2^(2^-i) over the one bits of a fraction of `expBits` bits, from bit i of `n` bits left, by
repeated square roots of 2. -/
def exp2Frac (f : Nat) : Nat → Nat → Nat → Nat
  | 0, _, acc => acc
  | n + 1, root, acc =>
    let root' := isqrt (root <<< expBits)
    exp2Frac f n root' (if bitOf f n then (acc * root') >>> expBits else acc)

/-- exp2 (R154), carried to `expBits` bits with a sticky bit; 2^x is irrational unless x is an integer. -/
def vExp2 (a : FVal) : FVal :=
  match a with
  | .nan => .nan
  | .inf s => if s then .fin false 0 0 else .inf false
  | .fin s m e =>
    if m = 0 then .fin false 1 0
    else if 10 ≤ e + (Nat.log2 m : Int) then (if s then .fin false 0 0 else .inf false)
    else
      -- the argument in units of 2^-B, B = expBits; what lies below is a sticky bit of a positive fraction
      let sh := e + expBits
      let up : Nat := if 0 ≤ sh then m <<< sh.toNat else m >>> (-sh).toNat
      let lost : Bool := decide (sh < 0) && decide (m % 2 ^ (-sh).toNat ≠ 0)
      let z : Int := if s then -(up : Int) - (if lost then 1 else 0) else up
      let n := z / (2 ^ expBits : Nat)
      let f := (z % (2 ^ expBits : Nat)).toNat
      if f = 0 && !lost then .fin false 1 n
      else .fin false (2 * exp2Frac f expBits (2 ^ (expBits + 1)) (2 ^ expBits) + 1) (n - expBits - 1)

/-- exp2 of an FP32 word (R154). -/
def f32Exp2 (a : BitVec 32) : BitVec 32 := f32 (vExp2 (f32Val a))

/-- exp, as R154 defines it. -/
def f32Exp (a : BitVec 32) : BitVec 32 := f32Exp2 (f32Mul a 0x3FB8AA3B#32)

/-! ## Format codes, MX blocks (R137-R149) -/

/-- Element width in bits of a format code (Table 6-1); 0 for a reserved code. -/
def fmtBits (c : Nat) : Nat :=
  match c with
  | 0 => 32 | 1 => 16 | 2 => 16 | 3 => 8 | 4 => 8 | 5 => 8
  | 8 => 8 | 9 => 8 | 10 => 6 | 11 => 6 | 12 => 4 | 13 => 8 | _ => 0

/-- Is this an MX format code? -/
def fmtIsMx (c : Nat) : Bool := decide (8 ≤ c) && decide (c ≤ 13)

/-- The floating-point element format of a code; INT8 codes have none. -/
def fmtFloat? (c : Nat) : Option FloatFmt :=
  match c with
  | 0 => some fmtFP32 | 1 => some fmtBF16 | 2 => some fmtFP16 | 3 => some fmtE4M3 | 4 => some fmtE5M2
  | 8 => some fmtE4M3 | 9 => some fmtE5M2 | 10 => some fmtE3M2 | 11 => some fmtE2M3 | 12 => some fmtE2M1
  | _ => none

/-- value(e) of an element without its scale: MXINT8 elements stand for q * 2^-6 (R139). -/
def elemVal (c x : Nat) : FVal :=
  match fmtFloat? c with
  | some f => fDecode f x
  | none =>
    if c = 13 then (match int8Decode x with | .fin s m e => .fin s m (e - 6) | v => v) else int8Decode x

/-- The value scaled by 2^k. -/
def vScale (v : FVal) (k : Int) : FVal :=
  match v with
  | .fin s m e => .fin s m (e + k)
  | w => w

/-- An MX element with its scale byte, widened to FP32 (R143). -/
def widenMx (c x scale : Nat) : BitVec 32 :=
  if scale = 0xFF then f32NaN else f32 (vScale (elemVal c x) ((scale : Int) - 127))

/-- A non-MX element widened to FP32, exactly (R142). -/
def widen (c x : Nat) : BitVec 32 := f32 (elemVal c x)

/-- An FP32 word narrowed to a non-MX format code (R144, R145, R148). -/
def narrow (c : Nat) (mode : Rounding) (x : BitVec 32) : Nat :=
  match fmtFloat? c with
  | some f => fEncode f mode (f32Val x)
  | none => int8Encode 128 mode (f32Val x)

/-- Element `i` of a dense array of `w`-bit elements (R141). -/
def elemAt (bs : Bytes) (w i : Nat) : Nat := ((leAt bs (w * i / 8) ((w + 7) / 8 + 1)) >>> (w * i % 8)) % 2 ^ w

/-- Elements packed densely, element 0 in the lowest bits (R141). -/
def packElems (w : Nat) (xs : List Nat) : Bytes :=
  leBytes ((w * xs.length + 7) / 8) ((xs.foldr (fun x acc => x % 2 ^ w + acc * 2 ^ w) 0))

/-- emax of an element format (Table 6-4). -/
def fmtEmax (c : Nat) : Int :=
  match c with
  | 8 => 8 | 9 => 15 | 10 => 4 | 11 => 2 | 12 => 2 | _ => 0

/-- One MX element from an exact quotient: saturating; MXINT8 counts units of 2^-6 and never reaches -128 (R139). -/
def narrowMxElem (c : Nat) (mode : Rounding) (v : FVal) : Nat :=
  match fmtFloat? c with
  | some f => fEncode f mode v
  | none => int8Encode 127 mode (vScale v 6)

/-- floor(log2 |x|) of a finite non-zero value. -/
def floorLog2 : FVal → Int
  | .fin _ m e => e + (Nat.log2 m : Int)
  | _ => 0

/-- The exponent e of R147 for a block, from the finite values' largest magnitude. -/
def mxExponent (c : Nat) (xs : List (BitVec 32)) : Int :=
  let fin := xs.filter f32IsFinite
  if fin.isEmpty then 127
  else
    let amax := fin.foldl (fun a x => max a (x.toNat % 2 ^ 31)) 0
    if amax = 0 then -127
    else min (max (floorLog2 (fDecode fmtFP32 amax) - fmtEmax c) (-127)) 127

/-- Quantise a block: the scale byte and the elements (R147); `modes` gives each element's rounding (R148, R149). -/
def mxQuantise (c : Nat) (modes : List Rounding) (xs : List (BitVec 32)) : Nat × List Nat :=
  if xs.any f32IsNaN then (0xFF, xs.map (fun _ => 0))
  else
    let e := mxExponent c xs
    ((e + 127).toNat, xs.zipWith (fun x md => narrowMxElem c md (vScale (f32Val x) (-e))) modes)

/-- The random number of an element (R149). -/
def stochasticR (seed n : Nat) : Nat :=
  let m64 := 2 ^ 64
  let z0 := (seed + (n + 1) * 0x9E3779B97F4A7C15) % m64
  let z1 := ((z0 ^^^ (z0 >>> 30)) * 0xBF58476D1CE4E5B9) % m64
  let z2 := ((z1 ^^^ (z1 >>> 27)) * 0x94D049BB133111EB) % m64
  let z3 := z2 ^^^ (z2 >>> 31)
  z3 >>> 48

/-- Pairs combined, lane 2i with lane 2i + 1 (R157). -/
def pairUp (op : BitVec 32 → BitVec 32 → BitVec 32) : List (BitVec 32) → List (BitVec 32)
  | a :: b :: r => op a b :: pairUp op r
  | r => r

/-- The six levels of the tree over 64 lanes (R157). -/
def laneTree (op : BitVec 32 → BitVec 32 → BitVec 32) (xs : List (BitVec 32)) : BitVec 32 :=
  ((pairUp op (pairUp op (pairUp op (pairUp op (pairUp op (pairUp op xs)))))).headD 0)

/-- Stretches of 64 combined element by element, the last one padded with the operator's identity (R157). -/
def stretchCombine (op : BitVec 32 → BitVec 32 → BitVec 32) (ident : BitVec 32) : Nat → List (BitVec 32) →
    List (BitVec 32) → List (BitVec 32)
  | 0, acc, _ => acc
  | n + 1, acc, xs =>
    if xs.isEmpty then acc
    else
      let st := xs.take 64
      stretchCombine op ident n (List.zipWith op acc (st ++ List.replicate (64 - st.length) ident)) (xs.drop 64)

/-- The fixed-order reduction of R157. -/
def laneReduce (op : BitVec 32 → BitVec 32 → BitVec 32) (ident : BitVec 32) (xs : List (BitVec 32)) : BitVec 32 :=
  let st := xs.take 64
  laneTree op (stretchCombine op ident xs.length (st ++ List.replicate (64 - st.length) ident) (xs.drop 64))

end Sys2Proof.Machine
end

