-- ==== Sys2Proof/Machine/Matrix.lean ====
section
/-!
DEFINITION. Matrix accumulation (spec/06 R155, R156) and exact comparison, shared by ATTEND and the matrix instructions.
-/
namespace Sys2Proof.Machine

/-- Is `a` below `b`, both taken exactly? False when either is a NaN. -/
def vLt (a b : FVal) : Bool :=
  match vAdd a (vNeg b) with
  | .fin neg m _ => neg && m != 0
  | .inf neg => neg
  | .nan => false

/-- `a ≤ b`, both taken exactly; false when either is a NaN. -/
def vLe (a b : FVal) : Bool := a != .nan && b != .nan && !vLt b a

/-- The larger of two exact values; a NaN propagates. -/
def vMax (a b : FVal) : FVal := if a = .nan then .nan else if b = .nan then .nan else if vLt a b then b else a

/-- The exact value of an MX element under its scale byte; NaN under 0xFF (R143, R156). -/
def mxVal (c x scale : Nat) : FVal := if scale = 0xFF then .nan else vScale (elemVal c x) ((scale : Int) - 127)

/-- A product p of MX operands at or above 2^128 - 2^103 acts as an infinity of its sign (R156). -/
def bigProduct : FVal → FVal
  | .fin neg m e =>
    let big : Bool := if 103 ≤ e then decide (2 ^ 25 - 1 ≤ m <<< (e - 103).toNat)
      else decide ((2 ^ 25 - 1) <<< (103 - e).toNat ≤ m)
    if big then .inf neg else .fin neg m e
  | v => v

/-- One step of the accumulation: one rounding. Products of operands that are not MX enter exactly, however large. -/
def macStep (mx : Bool) (c : BitVec 32) (p : FVal) : BitVec 32 :=
  f32 (vAdd (f32Val c) (if mx then bigProduct p else p))

/-- The accumulation in ascending k, of MX operands or others; `pair` takes two products a step (MXFP4 with MXFP4). -/
def dotFrom (mx pair : Bool) : BitVec 32 → List (FVal × FVal) → BitVec 32
  | c, [] => c
  | c, [x] => macStep mx c (vMul x.1 x.2)
  | c, x :: y :: r =>
    if pair then dotFrom mx pair (macStep mx c (vAdd (vMul x.1 x.2) (vMul y.1 y.2))) r
    else dotFrom mx pair (macStep mx (macStep mx c (vMul x.1 x.2)) (vMul y.1 y.2)) r

end Sys2Proof.Machine
end

