-- ==== Sys2Proof/Config.lean ====
section
/-!
DEFINITION. What one build of the module fixes and the spec does not: the free values (no body, so that nothing can
be proved of them but what holds of every value) and the quantities of one unit given at manufacture.
-/
namespace Sys2Proof.Config

/-- A value the spec leaves open, the `n`-th of the run: log entry 11. -/
opaque freeValue : Nat → BitVec 64

/-- The bound U of R171 where its exact sum is no number (an infinite query element): the spec states none. It depends only on
what R175 lets a result of ATTEND depend on, the table's header, the head's queries, the summary, the query head and SCALE:
log entry 11. -/
opaque boundFree : (header queries summary : Bytes) → (head : Nat) → (scale : BitVec 32) → BitVec 32

/-- The unit's serial number (R440): assigned at manufacture, unique, not given by the spec: log entry 12. -/
opaque serial : BitVec 64

/-- The unit's MAC address (R440): log entry 12. -/
opaque macAddress : BitVec 48

/-- The die stepping byte of DEVICE_IDENTITY (R440): log entry 12. -/
opaque stepping : BitVec 8

/-- SHA-384 of the boot ROM (R441), published by the maker: log entry 12. -/
opaque romDigest : BitVec 384

/-- The SRAM rows that the fuse data name for repair (R389): array, unit and row: log entry 12. -/
opaque fuseRepairs : List (Nat × Nat × Nat)

/-- The unit's attestation and key-agreement secrets, set at manufacture (R359, R365): log entry 12. -/
opaque attestSecret : Nat
opaque kaSecret : Nat

/-- Dexhal's manufacturing secret and the number with which it signed the endorsement (R365): log entry 12. -/
opaque makerSecret : Nat
opaque endorseNonce : Nat

/-- The public part of Dexhal's firmware key, 97 bytes (R418): log entry 12. -/
opaque releaseKey : Bytes

/-- The secret number of the `n`-th signature of the security block, which ECDSA leaves to the signer: log entry 12. -/
opaque signNonce : Nat → Nat

/-- The function group and the severity of a Lovage record (Table 20-7) with a code about these contents: the spec gives
no code its group or its severity: log entry 16. -/
opaque eventGroup : Nat → Bytes → BitVec 4
opaque eventSeverity : Nat → Bytes → BitVec 2

/-- The DATA bytes in which a record with a code holds these contents (Table 20-7: "Defined by CODE"), for the codes whose
layout the spec does not give: log entry 16. -/
opaque eventData : Nat → Bytes → Bytes

/-- The views that an LD has of the buddy's duplex regions, by DPA block, in the buddy's region map as its metadata records
(number, contents) mirror it (R80): the pool block and whether the right is read-write; and whether a block's region is WTR.
The spec gives the records no layout: log entry 56. -/
opaque buddyView : List (Nat × Bytes) → (ld dpaBlock : Nat) → Option (Nat × Bool)
opaque buddyWtr : List (Nat × Bytes) → (block : Nat) → Bool

/-- Does a metadata record with a number and these contents name a block (R397)? The spec gives the records no layout: log
entry 55. -/
opaque recordNames : Nat → Bytes → Nat → Bool

end Sys2Proof.Config
end

