-- ==== Sys2Proof/Machine/Crypto.lean ====
section
/-!
DEFINITION. The cryptographic standards of Table 0-1, as they state them: SHA-384 (FIPS 180-4), AES-256 (FIPS 197) in Galois/counter
mode (SP 800-38D), ECDSA and key agreement on brainpoolP384r1 (RFC 5639).
-/
namespace Sys2Proof.Machine

/-- The number that bytes spell, most significant first. -/
def ofBe (bs : Bytes) : Nat := ofLe bs.reverse
/-- The `w` bytes of a number, most significant first. -/
def msbBytes (w x : Nat) : Bytes := (leBytes w x).reverse

/-- A string cut into pieces of `n` bytes; `fuel` bounds their number. -/
def chunksOf (n : Nat) : (fuel : Nat) → Bytes → List Bytes
  | 0, _ => []
  | k + 1, bs => if bs.isEmpty then [] else bs.take n :: chunksOf n k (bs.drop n)

/-! ## SHA-384 -/

/-- The first 80 primes. -/
def primes80 : List Nat := ((List.range 410).drop 2).filter (fun n => ((List.range n).drop 2).all (fun d => n % d != 0))

/-- The largest number whose cube is at most `n`, below 2^68. -/
def cubeRoot (n : Nat) : Nat :=
  (List.range 68).foldl (fun r i => let t := r + 2 ^ (67 - i); if t ^ 3 ≤ n then t else r) 0

/-- K: the first 64 bits of the fractional parts of the cube roots of the first 80 primes. -/
def shaK : List (BitVec 64) := primes80.map (fun p => BitVec.ofNat 64 (cubeRoot (p * 2 ^ 192)))

/-- The initial hash value: the first 64 bits of the fractional parts of the square roots of the 9th to the 16th prime. -/
def shaInit : List (BitVec 64) := ((primes80.drop 8).take 8).map (fun p => BitVec.ofNat 64 (Nat.sqrt (p * 2 ^ 128)))

/-- The eight working variables. -/
structure ShaVars where
  a : BitVec 64
  b : BitVec 64
  c : BitVec 64
  d : BitVec 64
  e : BitVec 64
  f : BitVec 64
  g : BitVec 64
  h : BitVec 64
deriving DecidableEq, Repr

def ShaVars.ofList (l : List (BitVec 64)) : ShaVars :=
  { a := l.getD 0 0, b := l.getD 1 0, c := l.getD 2 0, d := l.getD 3 0, e := l.getD 4 0, f := l.getD 5 0, g := l.getD 6 0, h := l.getD 7 0 }
def ShaVars.toList (v : ShaVars) : List (BitVec 64) := [v.a, v.b, v.c, v.d, v.e, v.f, v.g, v.h]

/-- One round, with its word and constant. -/
def shaRound (v : ShaVars) (w k : BitVec 64) : ShaVars :=
  let s1 := v.e.rotateRight 14 ^^^ v.e.rotateRight 18 ^^^ v.e.rotateRight 41
  let t1 := v.h + s1 + ((v.e &&& v.f) ^^^ (~~~v.e &&& v.g)) + k + w
  let s0 := v.a.rotateRight 28 ^^^ v.a.rotateRight 34 ^^^ v.a.rotateRight 39
  let t2 := s0 + ((v.a &&& v.b) ^^^ (v.a &&& v.c) ^^^ (v.b &&& v.c))
  { a := t1 + t2, b := v.a, c := v.b, d := v.c, e := v.d + t1, f := v.e, g := v.f, h := v.g }

/-- The message schedule: a window of the last 16 words gives the next. -/
def shaSchedule : (fuel : Nat) → List (BitVec 64) → List (BitVec 64)
  | 0, _ => []
  | n + 1, w =>
    let x := w.getD 14 0
    let y := w.getD 1 0
    let next := (x.rotateRight 19 ^^^ x.rotateRight 61 ^^^ (x >>> 6)) + w.getD 9 0 +
      (y.rotateRight 1 ^^^ y.rotateRight 8 ^^^ (y >>> 7)) + w.getD 0 0
    w.getD 0 0 :: shaSchedule n (w.drop 1 ++ [next])

/-- One 128-byte block. -/
def shaBlock (h : List (BitVec 64)) (b : Bytes) : List (BitVec 64) :=
  let w := shaSchedule 80 ((chunksOf 8 16 b).map (fun c => BitVec.ofNat 64 (ofBe c)))
  let v := (w.zip shaK).foldl (fun v e => shaRound v e.1 e.2) (ShaVars.ofList h)
  List.zipWith (· + ·) h v.toList

/-- SHA-384. -/
def sha384 (m : Bytes) : Bytes :=
  let pad := zeros ((239 - m.length % 128) % 128)
  let p := m ++ [0x80#8] ++ pad ++ msbBytes 16 (8 * m.length)
  (((chunksOf 128 (p.length / 128) p).foldl shaBlock shaInit).map (fun w => msbBytes 8 w.toNat)).flatten.take 48

/-! ## AES-256 -/

/-- Multiply by x in GF(2^8) modulo x^8 + x^4 + x^3 + x + 1. -/
def aesX (a : Byte) : Byte := if a.getLsbD 7 then (a <<< 1) ^^^ 0x1B#8 else a <<< 1

/-- Product in that field. -/
def aesMul (a b : Byte) : Byte :=
  ((List.range 8).foldl (fun (acc : Byte × Byte) i => (if b.getLsbD i then acc.1 ^^^ acc.2 else acc.1, aesX acc.2)) (0, a)).1

/-- The S-box: the inverse, a to the power 254, and the affine map. -/
def aesSbox (a : Byte) : Byte :=
  let i := (List.range 7).foldl (fun (acc : Byte × Byte) _ => let q := aesMul acc.2 acc.2; (aesMul acc.1 q, q)) (1#8, a)
  let b := i.1
  b ^^^ b.rotateLeft 1 ^^^ b.rotateLeft 2 ^^^ b.rotateLeft 3 ^^^ b.rotateLeft 4 ^^^ 0x63#8

def xorBytes (a b : Bytes) : Bytes := List.zipWith (· ^^^ ·) a b

/-- The words of the key schedule from the `i`-th on, made from the last eight. -/
def aesWords : (fuel i : Nat) → List Bytes → List Bytes
  | 0, _, _ => []
  | n + 1, i, w =>
    let t := w.getD 7 []
    let u := if i % 8 = 0 then xorBytes ((t.drop 1 ++ t.take 1).map aesSbox) [BitVec.ofNat 8 (2 ^ (i / 8 - 1)), 0, 0, 0]
      else if i % 8 = 4 then t.map aesSbox else t
    let v := xorBytes (w.getD 0 []) u
    v :: aesWords n (i + 1) (w.drop 1 ++ [v])

/-- The 15 round keys. -/
def aesKeys (key : Bytes) : List Bytes :=
  let w := chunksOf 4 8 key
  chunksOf 16 15 (w ++ aesWords 52 8 w).flatten

/-- ShiftRows on 16 bytes in column order. -/
def aesShift (s : Bytes) : Bytes := (List.range 16).map (fun i => s.getD ((i + 4 * (i % 4)) % 16) 0)

/-- MixColumns of one column. -/
def aesMix (c : Bytes) : Bytes :=
  (List.range 4).map (fun i => aesMul 2 (c.getD i 0) ^^^ aesMul 3 (c.getD ((i + 1) % 4) 0) ^^^ c.getD ((i + 2) % 4) 0 ^^^ c.getD ((i + 3) % 4) 0)

/-- AES of one 16-byte block under round keys. -/
def aesBlock (ks : List Bytes) (b : Bytes) : Bytes :=
  let s := ((ks.drop 1).take 13).foldl (fun s k => xorBytes ((chunksOf 4 4 (aesShift (s.map aesSbox))).map aesMix).flatten k)
    (xorBytes b (ks.getD 0 []))
  xorBytes (aesShift (s.map aesSbox)) (ks.getD 14 [])

/-- AES-256 of one 16-byte block. -/
def aes256 (key : BitVec 256) (b : Bytes) : Bytes := aesBlock (aesKeys (leBytes 32 key.toNat)) b

/-! ## Galois/counter mode -/

/-- Product in GF(2^128), bit 127 of a number the coefficient of x^0. -/
def ghashMul (x y : BitVec 128) : BitVec 128 :=
  ((List.range 128).foldl (fun (acc : BitVec 128 × BitVec 128) i =>
    (if x.getLsbD (127 - i) then acc.1 ^^^ acc.2 else acc.1,
     if acc.2.getLsbD 0 then (acc.2 >>> 1) ^^^ (0xE1#128 <<< 120) else acc.2 >>> 1)) (0, y)).1

/-- A string filled up with zeros to whole 16-byte blocks. -/
def pad16 (b : Bytes) : Bytes := b ++ zeros ((16 - b.length % 16) % 16)

/-- GHASH of additional data and ciphertext under H. -/
def ghash (h : BitVec 128) (aad ct : Bytes) : BitVec 128 :=
  let m := pad16 aad ++ pad16 ct ++ msbBytes 8 (8 * aad.length) ++ msbBytes 8 (8 * ct.length)
  (chunksOf 16 (m.length / 16) m).foldl (fun y b => ghashMul (y ^^^ BitVec.ofNat 128 (ofBe b)) h) 0

/-- Counter mode from counter block `nonce`, 2 on. -/
def gctr (ks : List Bytes) (nonce m : Bytes) : Bytes :=
  let bs := chunksOf 16 ((m.length + 15) / 16) m
  ((bs.zip (List.range bs.length)).map (fun e => xorBytes e.1 (aesBlock ks (nonce ++ msbBytes 4 (e.2 + 2))))).flatten

/-- The tag of a ciphertext. -/
def gcmTag (ks : List Bytes) (nonce aad ct : Bytes) : Bytes :=
  let h := BitVec.ofNat 128 (ofBe (aesBlock ks (zeros 16)))
  xorBytes (msbBytes 16 (ghash h aad ct).toNat) (aesBlock ks (nonce ++ [0, 0, 0, 1]))

/-- AES-256-GCM sealing under a key with a 12-byte nonce: ciphertext and tag. -/
def gcmSeal (key : BitVec 256) (nonce aad pt : Bytes) : Bytes × Bytes :=
  let ks := aesKeys (leBytes 32 key.toNat)
  let n := slice nonce 0 12
  let ct := gctr ks n pt
  (ct, gcmTag ks n aad ct)

/-- AES-256-GCM opening: none where the tag does not verify. -/
def gcmOpen (key : BitVec 256) (nonce aad ct tag : Bytes) : Option Bytes :=
  let ks := aesKeys (leBytes 32 key.toNat)
  let n := slice nonce 0 12
  if gcmTag ks n aad ct = tag then some (gctr ks n ct) else none

/-! ## brainpoolP384r1 -/

def ecP : Nat := 0x8CB91E82A3386D280F5D6F7E50E641DF152F7109ED5456B412B1DA197FB71123ACD3A729901D1A71874700133107EC53
def ecA : Nat := 0x7BC382C63D8C150C3C72080ACE05AFA0C2BEA28E4FB22787139165EFBA91F90F8AA5814A503AD4EB04A8C7DD22CE2826
def ecB : Nat := 0x04A8C7DD22CE28268B39B55416F0447C2FB77DE107DCD2A62E880EA53EEB62D57CB4390295DBC9943AB78696FA504C11
def ecGx : Nat := 0x1D1C64F068CF45FFA2A63A81B7C13F6B8847A3E77EF14FE3DB7FCAFE0CBD10E8E826E03436D646AAEF87B2E247D4AF1E
def ecGy : Nat := 0x8ABE1D7520F9C2A45CB1EB8E95CFD55262B70B29FEEC5864E19C054FF99129280E4646217791811142820341263C5315
/-- The order of the base point. -/
def ecQ : Nat := 0x8CB91E82A3386D280F5D6F7E50E641DF152F7109ED5456B31F166E6CAC0425A7CF3AB6AF6B7FC3103B883202E9046565

/-- A power modulo `m`, by the 384 bits of the exponent. -/
def powMod (m b e : Nat) : Nat :=
  (List.range 384).foldl (fun r i => let q := r * r % m; if bitOf e (383 - i) then q * b % m else q) 1

/-- The inverse modulo a prime. -/
def invMod (m a : Nat) : Nat := powMod m (a % m) (m - 2)

/-- A point of the curve; none is the point at infinity. -/
abbrev EcPoint := Option (Nat × Nat)

/-- The third point on the line of slope `l` through two points, reflected. -/
def ecThird (l x1 y1 x2 : Nat) : EcPoint :=
  let x := (l * l + 2 * ecP - x1 - x2) % ecP
  some (x, (l * (x1 + ecP - x) + ecP - y1) % ecP)

/-- The sum of two points. -/
def ecAdd (a b : EcPoint) : EcPoint :=
  match a, b with
  | none, q => q
  | p, none => p
  | some (x1, y1), some (x2, y2) =>
    if x1 = x2 then
      if (y1 + y2) % ecP = 0 then none
      else ecThird ((3 * x1 * x1 + ecA) * invMod ecP (2 * y1) % ecP) x1 y1 x1
    else ecThird ((y2 + ecP - y1) * invMod ecP (x2 + ecP - x1) % ecP) x1 y1 x2

/-- A multiple of a point. -/
def ecMul (k : Nat) (p : EcPoint) : EcPoint :=
  (List.range 384).foldl (fun r i => let d := ecAdd r r; if bitOf k (383 - i) then ecAdd d p else d) none

def ecBase : EcPoint := some (ecGx, ecGy)

/-- Is a pair of coordinates a point of the curve? -/
def onCurve (x y : Nat) : Bool := decide (x < ecP) && decide (y < ecP) && (y * y % ecP == (x * x * x + ecA * x + ecB) % ecP)

/-- The 97 bytes of a point: 0x04, X, Y, most significant byte first. -/
def pointBytes : EcPoint → Bytes
  | some (x, y) => [0x04#8] ++ msbBytes 48 x ++ msbBytes 48 y
  | none => zeros 97

/-- The point that 97 bytes spell, if they spell one. -/
def pointOf (b : Bytes) : EcPoint :=
  let x := ofBe (slice b 1 48)
  let y := ofBe (slice b 49 48)
  if slice b 0 1 = [0x04#8] ∧ onCurve x y = true then some (x, y) else none

/-- A private key or a signature's secret number of the range 1 to q - 1. -/
def ecScalar (n : Nat) : Nat := 1 + n % (ecQ - 1)

/-- ECDSA with SHA-384: r then s, 48 bytes each, most significant byte first; `k` is the signature's secret number. -/
def ecdsaSign (d k : Nat) (m : Bytes) : Bytes :=
  let r := match ecMul k ecBase with | some (x, _) => x % ecQ | none => 0
  msbBytes 48 r ++ msbBytes 48 (invMod ecQ k * (ofBe (sha384 m) + r * d) % ecQ)

/-- Does a 96-byte signature verify under a public key? -/
def ecdsaVerify (pub : EcPoint) (m sig : Bytes) : Bool :=
  let r := ofBe (slice sig 0 48)
  let s := ofBe (slice sig 48 48)
  if pub.isNone ∨ r = 0 ∨ s = 0 ∨ ecQ ≤ r ∨ ecQ ≤ s then false
  else
    let w := invMod ecQ s
    match ecAdd (ecMul (ofBe (sha384 m) * w % ecQ) ecBase) (ecMul (r * w % ecQ) pub) with
    | some (x, _) => x % ecQ == r
    | none => false

/-! ## The unit's keys (R359, R365, R418) -/

/-- The unit's attestation private key. -/
def attestKey : Nat := ecScalar Config.attestSecret
/-- The unit's key-agreement private key. -/
def kaKey : Nat := ecScalar Config.kaSecret

/-- The attestation public key, 97 bytes (0x7000). -/
def attestPubkey : Bytes := pointBytes (ecMul attestKey ecBase)
/-- The key-agreement public key, 97 bytes (0x7002). -/
def kaPubkey : Bytes := pointBytes (ecMul kaKey ecBase)
/-- Dexhal's endorsement (0x7001): its manufacturing key's signature over the attestation public key and SERIAL. -/
def attestEndorsement : Bytes :=
  ecdsaSign (ecScalar Config.makerSecret) (ecScalar Config.endorseNonce) (attestPubkey ++ leBytes 8 Config.serial.toNat)

/-- A signature with the attestation key (R365), made with the `n`-th secret number. -/
def attestSign (n : Nat) (m : Bytes) : Bytes := ecdsaSign attestKey (ecScalar (Config.signNonce n)) m

/-- Does a signature of Dexhal's firmware key verify (R418)? -/
def releaseVerify (m sig : Bytes) : Bool := ecdsaVerify (pointOf Config.releaseKey) m sig

/-- Z: the x-coordinate of the product of the key-agreement private key and a public key of 97 bytes (R359); none where the bytes are
no point of the curve. -/
def kaShared (epub : Bytes) : Option Bytes :=
  match pointOf epub with
  | some p => (ecMul kaKey (some p)).map (fun z => msbBytes 48 z.1)
  | none => none

end Sys2Proof.Machine
end

