-- ==== Sys2Proof/Machine/State.lean ====
section
/-!
DEFINITION. The state of the module as plain data, one structure per unit, and the state at power-on.
Numbers that the spec gives a width are kept below that width by the operations that write them; a sparse map lists
only what differs from the value named in the field's comment.
-/
namespace Sys2Proof.Machine

/-- Why the machine would stop with a fault: no command of this spec stops the module (every stop of the spec is a
status or an event), so the type has the one constructor for a memory access outside the module's DRAM. -/
inductive Fault where
  /-- Raised by no command of this model: an address outside the 40-bit pool space is answered with a status. Safe. -/
  | noSuchAddress
deriving DecidableEq, Repr

/-- Why a command is refused by the model. -/
inductive Refusal where
  /-- A command whose meaning has not been written. Raised by Dispatch only. Safe. -/
  | notModelled (mnemonic : String)
deriving DecidableEq, Repr

/-- Messages the module sends, in the order it sends them (State.outbox). -/
inductive Msg where
  /-- What a test instruction of the TAP drives: PFAIL_N, UART_TXD and the transmit pairs; none: not driven (R435, R446). -/
  | landTest (ins : TapTest) (pfail uart : Option Bool) (tx : Option (BitVec 209))
  /-- The lands are the module's own again (R435). -/
  | landsFree
  /-- the TAP answers IDCODE (R435) -/
  | idcode (v : Nat)
  /-- The status that a write of a command object is answered with. -/
  | cmdAnswer (status : Nat)
  /-- Data of a CXL.mem read, with poison and DevLoad, on a port and LD, with the request's tag. -/
  | hostData (port ld tag : Nat) (data : Bytes) (poison : Bool) (grant : HostGrant) (devLoad : Nat)
  /-- Completion of a CXL.mem write, with DevLoad. -/
  | hostDone (port ld tag devLoad : Nat)
  /-- The decoder error of CXL 3.1 for a refused HDM decoder commit (R37), or its acceptance. -/
  | hdmCommit (port ld dec : Nat) (accepted : Bool)
  /-- A back-invalidate snoop to a host: BISnpData or BISnpInv (R69). -/
  | bisnp (host line : Nat) (data : Bool)
  /-- The BIConflict acknowledgement of CXL 3.1 (R70). -/
  | biConflictAck (host line : Nat)
  /-- A dynamic capacity response or event (R65, R66): 0 offered to the host, 1 refused as an invalid extent, 2 accepted,
  3 release asked for, 4 released. -/
  | dynCap (port ld region first blocks : Nat) (what : Nat)
  /-- A snoop broadcast to the tile caches: SNP_I when `inv`, else SNP_S, with the requesting tile (R231). -/
  | snoop (line : Nat) (inv : Bool) (requester : Option Nat)
  /-- A tile's request to a home (Table 10-3). -/
  | tileReq (tile : Nat) (req : TileReq) (line : Nat)
  /-- PUTM with its data and poison flag, or PUTE. -/
  | tilePut (tile line : Nat) (data : Option (Bytes × Bool))
  /-- GACK. -/
  | gack (tile line : Nat)
  /-- SNP_DONE of a bridge, combined from its ring's answers: HITM_COUNT, HIT_S, OWN_S, SNPDATA with its tile (R231). -/
  | snpDone (line bridge hitM : Nat) (hitS ownS : Bool) (data : Option (Nat × Bytes × Bool))
  /-- A tile's answer to a snoop: MISS, HIT_S, HIT_M with SNPDATA, OWN_S. -/
  | snpAnswer (tile line : Nat) (hitM hitS ownS : Bool) (data : Option (Bytes × Bool))
  /-- A grant DATA_S, DATA_E or DATA_M with data, or ACK_UPG (no data), to a tile. -/
  | grant (tile line : Nat) (st : CacheState) (data : Option Bytes)
  /-- ACK_PUT with STALE. -/
  | ackPut (tile line : Nat) (stale : Bool)
  /-- ERR_DATA. -/
  | errData (tile line : Nat) (st : Status)
  /-- A WOP message (Table 20-4): TYPE, STATUS, CTR, PTIME, INDEX, SUB, WINDOW_PART, DATA (ciphertext when a tag
  follows), TAG. -/
  | wop (type status ctr ptime index sub part : Nat) (data : Bytes) (tag : Option Bytes)
  /-- The answer of a memory-channel group to the request of MEMORY_CHANNEL_ACCEPT. -/
  | memAnswer (tag : Nat) (st : Status) (data : Bytes)
  /-- An MSI-X message as a CXL.io memory write (R135). -/
  | msixCxl (port ld addr data : Nat)
  /-- The output of a CXL mailbox vendor command on an LD (R427): the module status, then the value of an OBJ_READ. -/
  | mailbox (ld : Nat) (output : Bytes)
  /-- A line of the Fife monitor (R434): OK or the status name, and what follows it as bytes. -/
  | fife (status : Status) (data : Bytes)
  /-- A 32-byte mirror cell (R394), and the levels each physical lane carries of it (R283). -/
  | mirrorCell (b : Bytes) (levels : List (Nat × List Int))
  /-- A training block sent on a transmit lane of a port, and its levels (R268). -/
  | training (port lane : Nat) (block : Bytes) (levels : List Int)
  /-- A flit sent at a port (R285), and the levels each physical lane carries of it (R261-R264, R274, R276). -/
  | flit (port : Nat) (b : Bytes) (levels : List (Nat × List Int))
  /-- The levels that the physical lanes of a port in loopback carry in a flit time (R281). -/
  | loopData (port : Nat) (levels : List (Nat × List Int))
  /-- A lane begins 2^27 symbols of scrambled PRBS31 data from a generator state (R270): at the port's rate, precoded or
  not. -/
  | qualify (port lane : Nat) (gen : BitVec 31) (rate : Nat) (precoded : Bool)
  /-- The forwarded clock of a port from now on, in kHz (Table 12-1); 0: electrical idle (R269). -/
  | laneClock (port khz : Nat)
  /-- The taps c-1, main and c+1 of a transmit lane from now on, in hundredths of the full swing (Table 12-3). -/
  | laneTaps (port lane : Nat) (pre main post : Int)
deriving DecidableEq, Repr

/-! ## Time and MRAM -/

/-- The settings of one byte lane of a channel (R86). -/
structure LaneSettings where
  ca : Nat
  gate : Nat
  rdDelay : Nat
  wrDelay : Nat
  vref : Nat
deriving DecidableEq, Repr

/-- A channel's training record (R86), kept by physical channel: stack and channel, device ID, data rate, temperature at
training in degrees C, settings of each byte lane, epoch, CRC-32 of the record. -/
structure TrainRec where
  stack : Nat
  chan : Nat
  deviceId : Nat
  rate : Nat
  temperature : Int
  lanes : List LaneSettings
  epoch : Nat
  crc : Nat
deriving DecidableEq, Repr

/-- A channel's remap table (R109): the remapped rows as bank * 2^18 + row, at most 64, its epoch and CRC-32. -/
structure RemapTable where
  rows : List Nat
  epoch : Nat
  crc : Nat
deriving DecidableEq, Repr

/-- The SRAM arrays whose rows are repaired (R389): the data and the tag arrays of a tile's cache, the presence filter of a home. -/
inductive SramArray where
  | cacheData | cacheTag | filter
deriving DecidableEq, Repr

/-- An SRAM row: its array, the physical tile of a cache or the physical stack of a filter, the set (R389). -/
structure SramRow where
  array : SramArray
  unit : Nat
  row : Nat
deriving DecidableEq, Repr

/-- One of the two MRAM copies of an RWS object, with its EPOCH and CRC-32 (R438). -/
structure MramCopy where
  epoch : Nat
  value : Nat
  crc : Nat
deriving DecidableEq, Repr

/-- What MRAM keeps over a loss of power (R20, R86, R109, R384, R415, R417, R424, R438). -/
structure MramSt where
  /-- the repair record: the SRAM rows that have shown an uncorrectable error in service (R389) -/
  sramRows : List SramRow
  minutes : Nat
  hours : Nat
  /-- the two copies of every RWS object, by object key, counters among them as last committed (R431, R438); an object that
  is not listed has its default, with EPOCH 0 -/
  copyA : SMap MramCopy
  copyB : SMap MramCopy
  /-- training records by physical channel -/
  train : SMap TrainRec
  /-- failed physical tiles -/
  failedTiles : List Nat
  /-- failed physical stacks -/
  deadStacks : List Nat
  /-- remap tables by physical channel (R109) -/
  remaps : SMap RemapTable
  fmKey : Option (BitVec 256)
  fmCtr : Nat
  rollback : Nat
  /-- PWR_LAST_SHUTDOWN -/
  lastShutdown : Nat
deriving DecidableEq, Repr

/-! ## DRAM and stored data -/

/-- A stack evacuation under way (R112): the logical stack, the spare, the copy pointer in set-relative bytes. -/
structure Evac where
  lstack : Nat
  spare : Nat
  ptr : Nat
deriving DecidableEq, Repr

/-- The refresh state of a set (R89-R92). -/
structure RefreshSt where
  panic : Bool
  owed : Nat
  doubled : Bool
  /-- all-bank refreshes issued so far: the visible effect of a refresh -/
  issued : Nat
deriving DecidableEq, Repr

/-- Read and write delay of a channel's two byte lanes, in steps from the trained values (R88). -/
structure DqsSt where
  rd0 : Int
  wr0 : Int
  rd1 : Int
  wr1 : Int
deriving DecidableEq, Repr

/-- The DRAM channels and what is kept about stored data. -/
structure DramSt where
  /-- stored bytes by `cellKey`; an unlisted byte reads as `cellDefault` says (log entry 6) -/
  cells : List Host.Cell
  /-- what a stack that stopped answering left behind (R113): by logical stack * 4096 + block, the set-relative offset
  from which every line of the block on that stack was written with zero data and POISON -/
  lost : SMap Nat
  /-- physical stack of a logical stack where it is not the one of Table 4-2 -/
  stackMap : SMap Nat
  /-- INIT bit of each 256 MiB block -/
  init : BitVec 3584
  /-- summary-valid map by 256-byte granule: 1 ARMED, 2 VALID, unlisted INVALID (R161) -/
  summary : SMap Nat
  evac : Option Evac
  /-- logical stacks whose replacement waits for the running evacuation (R111) -/
  evacWait : List Nat
  /-- corrected events by row key in the scrub period: the symbol position of each (R108) -/
  rowCe : SMap (List Nat)
  /-- uncorrectable events by physical channel in the scrub period (R111) -/
  chanUe : SMap Nat
  /-- rows held for the remap copy (R109) -/
  heldRows : List Nat
  /-- candidate rows counted as left unremapped in this scrub period (R110) -/
  refusedRows : List Nat
  /-- refresh state by set; unlisted: panic low, nothing owed -/
  refresh : SMap RefreshSt
  /-- delays by logical channel; unlisted: the trained values -/
  dqs : SMap DqsSt
  /-- DRAM in self-refresh (R383, R404, R410, R411) -/
  selfRefresh : Bool
deriving DecidableEq, Repr

/-! ## Tile cache coherence -/

/-- What the check bits of a word of an SRAM array show: nothing, a corrected error, an uncorrectable one (R239, R240). -/
inductive ArrayFault where
  | none | corrected | uncorrectable
deriving DecidableEq, Repr

/-- A line in a tile cache: its state, its data, the job whose access has asked for it, its way of its set, and what the check
of its data array shows when they are next read (R227, R233, R239; log entry 103). -/
structure CacheLine where
  st : CacheState
  data : Bytes
  job : Option Nat
  way : Nat
  fault : ArrayFault
deriving DecidableEq, Repr

/-- A presence filter entry (Table 10-2) of the line it is kept under: OWNED, OWNER, CHECK. -/
structure FilterEntry where
  owned : Bool
  owner : Nat
  check : Nat
deriving DecidableEq, Repr

/-- What a bridge has combined of its ring's answers to a snoop (R231): the tiles it still waits for, and the fields of its
SNP_DONE. -/
structure BridgeSt where
  left : List Nat
  hitM : Nat
  hitS : Bool
  ownS : Bool
  data : Option (Nat × Bytes × Bool)
deriving DecidableEq, Repr

/-- Who a home's transaction on a line is for. -/
inductive TxnFor where
  | tile (t : Nat) (req : TileReq)
  /-- a non-tile access (R235): SNP_I when `inv`; `whole` when it writes the whole line -/
  | access (inv whole : Bool)
  /-- the recall of a filter entry for capacity (R230) -/
  | victim
deriving DecidableEq, Repr

/-- A home's transaction in progress on a line (R229, R231, R234). -/
structure HomeTxn where
  who : TxnFor
  /-- bridges whose SNP_DONE has arrived, one bit each -/
  bridges : Nat
  hitM : Nat
  hitS : Bool
  ownS : Bool
  data : Option (Bytes × Bool)
  /-- the tile that sent SNPDATA -/
  from? : Option Nat
  granted : Bool
  /-- SNP_I goes out once the transaction is over: the home's read was uncorrectable (R239) -/
  drop : Bool
deriving DecidableEq, Repr

/-- A tile-domain failure under recovery (R241): its cause, whether salvage still runs, the powered time it began at (R242). -/
structure DomFailure where
  cause : Nat
  salvage : Bool
  since : Nat
deriving DecidableEq, Repr

/-- Tile caches, presence filters, home transactions, tile domain. A tile is in the domain while its TILE_STATE is READY or
CLEARING (R238). -/
structure CohSt where
  /-- lines by tile * 2^34 + line; unlisted: state I -/
  lines : SMap CacheLine
  /-- filter entries by line -/
  filter : SMap FilterEntry
  txns : SMap HomeTxn
  failure : Option DomFailure
  /-- a cause of Table 10-5 that a home has met, and the line, to be acted on (R240) -/
  alarm : Option (Nat × Nat)
  /-- logical tiles whose tag or state array has an uncorrectable error (Table 10-5, cause 0x05; log entry 103) -/
  tagFaults : List Nat
  /-- the pseudo-LRU bits of each set, by tile * 2048 + set (R227; log entry 104) -/
  plru : SMap Nat
  /-- what the bridges have combined, by line * 8 + bridge (R231) -/
  bridges : SMap BridgeSt
  /-- physical tiles that are powered and have passed their test, in service or free as spares (R387, R415) -/
  tilesUp : List Nat
  /-- powered time of a physical tile's last heartbeat (R381) -/
  beats : SMap Nat
deriving DecidableEq, Repr

/-! ## Hosts, regions, directory -/

/-- Who issues an access again later (log entry 9): a running job, the front end of a partition, the unwrapping of a blob, the
copy of a region's draft, the fill of a block. -/
inductive Placer where
  | job (j : Nat)
  | front (part : Nat)
  | blob
  | copy (region : Nat)
  | fill (block : Nat)
deriving DecidableEq, Repr

/-- What waits for the outcome of an access. -/
inductive Reply where
  | none
  | host (port ld tag : Nat)
  | mem (tag : Nat)
  | recall (id : Nat)
  | tile
  /-- a Narlin request, with the partition whose key seals its answer (R328, R362) -/
  | narlin (p : Packet) (keyPart : Option Nat)
  /-- the place in the order of an access that its issuer makes itself once its turn has come (R70, R229) -/
  | place (who : Placer)
  /-- an access that a job of a partition had issued before it ended or came under a fence: it completes, and no one takes its
  answer (R372, R378); 0xFF once the fence has abandoned it (R373) -/
  | left (part : Nat)
deriving DecidableEq, Repr

/-- An access that waits in arrival order (R70, R229). -/
structure Req where
  id : Nat
  src : Source
  op : MemOp
  reply : Reply
  /-- the recall's snoop has been answered -/
  snooped : Bool
deriving DecidableEq, Repr

/-- An outstanding back-invalidate on a line: the hosts still to answer; BISnpData or BISnpInv; whether every holder
gives the line up. -/
structure Snoop where
  hosts : List Nat
  data : Bool
  drop : Bool
deriving DecidableEq, Repr

/-- One block map entry of an LD (R36): the pool block, the right, and whose view or extent it is. -/
structure MapEntry where
  block : Nat
  rw : Bool
  region : Nat
  /-- 0 read view, 1 draft view, 2 dynamic capacity extent -/
  kind : Nat
deriving DecidableEq, Repr

/-- Region states (Table 3-4), by their QUERY codes. -/
inductive RegionState where
  | unused | filling | ready | mapped | releasing | sanitising
deriving DecidableEq, Repr

/-- A draft of a Published region (R457). -/
structure Draft where
  ld : Nat
  first : Nat
deriving DecidableEq, Repr

/-- The operations a Published region runs one at a time (R74). -/
inductive RegOpKind where
  | publish | rebase | addDraft
deriving DecidableEq, Repr

/-- A publish, rebase or draft copy accepted for a region. `copying` from the swap (or the start of a copy) on. -/
structure RegOp where
  kind : RegOpKind
  ld : Nat
  token : Nat
  expect : Nat
  copying : Bool
deriving DecidableEq, Repr

/-- A region (R61-R64). `flags` is the FLAGS byte of its CREATE. -/
structure Region where
  state : RegionState
  flags : Nat
  first : Nat
  blocks : Nat
  gen : Nat
  drafts : List Draft
  /-- accepted operations, the running one first -/
  ops : List RegOp
deriving DecidableEq, Repr

/-- A publish page (Table 3-7). -/
structure PubPage where
  region : Nat
  expect : Nat
  lastToken : Nat
  lastStatus : Nat
  busy : Bool
deriving DecidableEq, Repr

/-- A dynamic capacity extent (R65): `live` once the host has accepted it. -/
structure Extent where
  ld : Nat
  region : Nat
  first : Nat
  blocks : Nat
  dpa : Nat
  live : Bool
  releasing : Bool
deriving DecidableEq, Repr

/-- What a recall of lines is for. -/
inductive RecallFor where
  | unmap (ld region kind : Nat)
  | release (region : Nat)
  /-- step 3 and step 4 of R74 -/
  | publishDraft (region : Nat)
  | publishRead (region : Nat)
  | extent (ld dpa : Nat)
deriving DecidableEq, Repr

/-- A recall under way: lines still to be taken back, and whether a poisoned line was met. -/
structure Recall where
  left : Nat
  poison : Bool
  why : RecallFor
deriving DecidableEq, Repr

/-- Regions, block maps, directory and accesses in progress. -/
structure HostSt where
  /-- block map entries by ld * 8192 + DPA block, ld = 16 * port + LD -/
  ldMap : SMap MapEntry
  /-- committed HDM decoders by ld * 8 + decoder -/
  hdm : List Nat
  regions : SMap Region
  pub : SMap PubPage
  extents : List Extent
  /-- holder vectors of lines in HSTATE 0b11 by line: directory cache and overflow area (R68) -/
  dirCache : SMap (BitVec 32)
  dirOver : SMap (BitVec 32)
  snoops : SMap Snoop
  /-- lines whose tag cannot be decoded and whose possible holders have all given up their copies, for the access
  that waits (R69, R459) -/
  answered : List Nat
  waiting : List Req
  nextReq : Nat
  recalls : SMap Recall
  nextRecall : Nat
  /-- a REGION_CMD that has not completed: an UNMAP recalling lines -/
  cmdRunning : Bool
  /-- sweeps of dead hosts under way: host and the blocks its LDs named -/
  sweeps : List (Nat × List Nat)
deriving DecidableEq, Repr

/-- CXL.cachemem IDE of a port (spec/16, CXL IDE): off, or one of its two modes. -/
inductive IdeMode where
  | off | containment | skid
deriving DecidableEq, Repr

/-- The IDE of a CXL port: link IDE for CXL.io, and CXL.cachemem IDE; its keys stand in slots 0xF0 to 0xFF (log entry 109). -/
structure IdePort where
  io : Bool
  mem : IdeMode
deriving DecidableEq, Repr

/-- The CXL ports, by bit: trained, in reset by PERST_Np, credit withheld, gated. -/
structure CxlSt where
  /-- the lanes a port has trained to, where they are not 16 (R1, Table 0-1) -/
  lanes : SMap Nat
  /-- IDE by port; unlisted: off -/
  ide : SMap IdePort
  trained : BitVec 4
  perst : BitVec 4
  creditHeld : BitVec 4
  gated : BitVec 4
deriving DecidableEq, Repr

/-! ## Partitions, queues, jobs -/

/-- An extent of a sealed operand (R48): endpoint, offset, length. Whether a line of it lies in a DUPLEX region (R228)
is read off the region map, which a block keeps its place in as long as the partition holds it. -/
structure Ext where
  ep : Nat
  addr : Nat
  len : Nat
deriving DecidableEq, Repr

/-- Access kinds of operands (Table 2-5). -/
inductive AccKind where
  | read | write | atomic
deriving DecidableEq, Repr

/-- A sealed operand: its VA range, its access kind and its extents. -/
structure Operand where
  va : Nat
  len : Nat
  kind : AccKind
  exts : List Ext
deriving DecidableEq, Repr

/-- Where a job is: sealed, dispatched and running, ended and not yet retired. -/
inductive JobPhase where
  | sealed | running | ended
deriving DecidableEq, Repr

/-- The working state of an ATTEND job (R164-R177): the context table's header, the KV head it is at, that head's entries
and query bytes, the pages still to be read before the third group, to be scored, and of the third group, the scores and
the pages top-k leaves out, per query head m, l, o and whether a NaN has entered, and the pages read, skipped and read
without a valid summary, and the tokens, of this head and of the job. -/
structure AttSt where
  hdr : Bytes
  head : Nat
  begun : Bool
  ents : List Nat
  q : Bytes
  first : List Nat
  score : List Nat
  rest : List Nat
  scores : List (Nat × BitVec 32)
  cand : List Nat
  m : List (BitVec 32)
  l : List (BitVec 32)
  o : List (List (BitVec 32))
  nan : List Bool
  read : Nat
  skipped : Nat
  tokens : Nat
  readAll : Nat
  skippedAll : Nat
  unsummarised : Nat
deriving DecidableEq, Repr

/-- A coalescing group of EXPERT_STREAM jobs (R198-R200): its partition, its jobs, the powered time at which its window
ends, whether it has closed, the sectors of SRC sent, its packets not yet acknowledged, the endpoints skipped, those
whose transfer failed, an error of the whole group. -/
structure ExpGroup where
  part : Nat
  jobs : List Nat
  closeAt : Nat
  closed : Bool
  sent : Nat
  outstanding : Nat
  skipped : Nat
  failed : Nat
  err : Option Status
deriving DecidableEq, Repr

/-- A job from its sealing to its retirement (R48, R122-R132). -/
structure JobSt where
  part : Nat
  /-- module queue number and HEAD at which the descriptor was fetched -/
  queue : Nat
  index : Nat
  /-- the copied 128-byte descriptor -/
  desc : Bytes
  operands : List Operand
  phase : JobPhase
  /-- the tile it runs on, 0xFF for none -/
  tile : Nat
  status : Status
  detail : Nat
  result : Nat
  reason : Nat
  /-- it has been dispatched, and the powered time of its dispatch, time of a tile-domain recovery added (R130, R242) -/
  ran : Bool
  started : Nat
  /-- its first delay has been counted (R344) -/
  delayed : Bool
  /-- remote bytes received by slot * 2^40 + offset; slots 0-4 are operands, 16 + SID a stream, 32 the LDS -/
  remote : SMap Byte
  /-- Narlin requests of the job not yet answered, by channel: 0 the job itself, 1 its STS or its output,
  2 its multicasts, 16 + SID a stream -/
  outstanding : SMap Nat
  /-- the first error an answer brought, by channel: its status and the offset in the first operand -/
  remoteErr : SMap (Status × Nat)
  /-- endpoints whose copies of its multicasts were skipped, one bit each (R325) -/
  skipped : Nat
  /-- the effects already made by a job that is issued more than once, and what it has counted for its RESULT -/
  stage : Nat
  count : Nat
  /-- it has passed the checks that are made at its dispatch, and the bytes that they have read: the parameter record of
  OPT_STEP, the bag offsets of EMB_GATHER and SCATTER_ADD (R180, R195) -/
  checked : Option Bytes
  /-- the working state of an ATTEND job (R177) -/
  att : Option AttSt
deriving DecidableEq, Repr

/-- A decode context (R131-R133): its generation, whether it is OPEN, and the CTX_CLOSE job that waits (R378). -/
structure CtxSt where
  isOpen : Bool
  gen : Nat
  closing : Option Nat
deriving DecidableEq, Repr

/-- An accepted DRAIN_INVALIDATE (R55): its token, its vector when IRQ is 1, the jobs of its drain set. -/
structure DiCmd where
  token : Nat
  vector : Option Nat
  drain : List Nat
deriving DecidableEq, Repr

/-- An MSI-X table entry (R135). -/
structure MsixEntry where
  addr : Nat
  data : Nat
  control : Nat
deriving DecidableEq, Repr

/-- What started a partition fence. -/
inductive FenceCmd where
  | reset | hold | destroy | watchdog | moduleReset
deriving DecidableEq, Repr

/-- A partition fence under way (R372): its cause, what it is for, whether it runs as PART_CMD, whether the answer
phase has run. -/
structure FenceSt where
  cause : Nat
  cmd : FenceCmd
  asCommand : Bool
  answered : Bool
deriving DecidableEq, Repr

/-- A block withdrawal or lowering that drains (R353): the block, and the right that then stands. -/
structure BlockDrain where
  block : Nat
  right : Nat
deriving DecidableEq, Repr

/-- A partition's registers and front-end state. -/
structure PartSt where
  diBase : Nat
  diLength : Nat
  acceptCount : Nat
  doneCount : Nat
  lastToken : Nat
  lastRefusal : Nat
  di : List DiCmd
  vectors : Nat
  errCause : Nat
  msix : SMap MsixEntry
  pba : BitVec 256
  qFirst : Nat
  qCount : Nat
  /-- cached table and leaf entries (R47), by level * 2^48 + the VA's index path -/
  xcache : SMap Nat
  /-- VAs whose walk has begun and waits for an entry read (R43, R55) -/
  walks : List Nat
  fence : Option FenceSt
  ctx : SMap CtxSt
  drains : List BlockDrain
  /-- transfers of the partition that a clock crossing has discarded, each accounted for by the fence logic as a request
  answered with an error (R28, R373) -/
  crossLost : Nat
deriving DecidableEq, Repr

/-- A job queue (Table 5-4): its registers, indices and held records. -/
structure QueueSt where
  descBase : Nat
  compBase : Nat
  vector : Nat
  en : Bool
  compLog2 : Nat
  descLog2 : Nat
  budgetUs : Nat
  tiles : Nat
  head : Nat
  tail : Nat
  ctail : Nat
  chead : Nat
  /-- records that wait for room in the ring, each with its job's IRQ bit -/
  held : List (Bytes × Bool)
  retireHeld : Bool
  /-- a remote descriptor fetch under way, and what it has brought -/
  fetching : Bool
  fetched : Option (Status × Bytes)
  /-- the descriptor that has been copied, HEAD being past it, and is being sealed (R48, R122) -/
  copied : Option Bytes
deriving DecidableEq, Repr

/-- Partitions, queues, jobs and the fills under way. -/
structure WorkSt where
  parts : SMap PartSt
  queues : SMap QueueSt
  jobs : SMap JobSt
  nextJob : Nat
  /-- coalescing groups, by the number of their first job -/
  groups : SMap ExpGroup
  /-- blocks under a sanitising or withdrawal fill, with the partition DESTROY sanitises, or none -/
  fills : List (Nat × Option Nat)
  /-- a PART_CMD that has not completed -/
  cmdRunning : Bool
deriving DecidableEq, Repr

/-! ## Tiles (Table 9-1) -/

/-- An outstanding stream (R215): SST or SLD, its parameters, the PC it was issued at, the scratch bytes an SST found
at issue, and whether its remote requests have been sent. -/
structure Stream where
  store : Bool
  opd : Nat
  scr : Nat
  off : Nat
  rowBytes : Nat
  rows : Nat
  stride : Nat
  mask : Nat
  red : Bool
  pc : Nat
  snap : Bytes
  /-- the lines of an SLD that have reached the tile, by scratch address, while the stream runs (R221) -/
  got : List (Nat × Bytes)
  /-- scratch ranges of an SLD, address and length, that something else has written since its issue -/
  clash : List (Nat × Nat)
  sent : Bool
deriving DecidableEq, Repr

/-- The program-visible state of a tile (Table 9-1). -/
structure TileSt where
  /-- scalar registers; unlisted: 0 -/
  s : SMap (BitVec 64)
  /-- vector registers, 64 lanes; unlisted: zeros -/
  v : SMap (List (BitVec 32))
  /-- predicate registers p1-p7; unlisted: 0 -/
  p : SMap (BitVec 64)
  /-- accumulators, 16 x 32 row by row; unlisted: zeros -/
  a : SMap (List (BitVec 32))
  scratch : SMap Byte
  prog : SMap (BitVec 64)
  pc : Nat
  /-- the PROG_RUN job it runs -/
  job : Option Nat
  /-- the program has ended: status, DETAIL, RESULT of its record (R210) -/
  ending : Option (Status × Nat × Nat)
  streams : SMap Stream
  /-- a healthy tile that a spare replaces once it is clear (R387) -/
  replace : Bool
  /-- the owner it gets once it has left the coherence domain (R116, R238) -/
  newOwner : Option Nat
deriving DecidableEq, Repr

/-! ## Piccolo (R243-R259) -/

/-- A request at Piccolo (Table 11-3, R248): its module object, operation, tag, arguments; its REQ_ID and its job, if a
job sent it; whether it skips arbitration (R251). -/
structure SyncReq where
  obj : Nat
  op : Nat
  try_ : Bool
  attempt : Nat
  tag : Nat
  arg : Nat
  arg2 : Nat
  rid : Nat
  job : Option Nat
  hit : Bool
deriving DecidableEq, Repr

/-- A synchronisation object (Table 11-1). -/
structure SyncObj where
  type : Nat
  value : Nat
  aux : Nat
deriving DecidableEq, Repr

/-- A response that has not yet entered the ring; `undo` when it is a grant that a CANCEL can take back (R255). -/
structure SyncResp where
  req : SyncReq
  st : Status
  type : Nat
  value : Nat
  retry : Nat
  parkedHit : Bool
  abandoned : Bool
  withdrawn : Bool
  cancel : Nat
  undo : Bool
deriving DecidableEq, Repr

/-- Piccolo: objects that are not FREE, wait lists by object, input queues by bank, responses ready to enter the ring. -/
structure SyncSt where
  objs : SMap SyncObj
  waits : SMap (List SyncReq)
  banks : SMap (List SyncReq)
  held : List SyncResp
deriving DecidableEq, Repr

/-! ## Fabric and scheduler -/

/-- A packet or cell on its way out, with what it is charged to (Table 15-1). -/
structure Outgoing where
  unit : NlUnit
  sub : Nat
  svc : Nat
  /-- a READ_RESP toward a paced endpoint (R346) -/
  paced : Bool
  /-- it already has its number: a packet in transit, or one that a link-down has rerouted -/
  transit : Bool
  /-- the port it arrived on, for a unit of another source; after a link-down the port that went down (R303, R326) -/
  inPort : Nat
  /-- the partition whose payload slot encrypts it when it is launched (R361, R362) -/
  keyPart : Option Nat
  /-- the job that multicasts it -/
  job : Option Nat
  /-- its first delay has been counted (R344) -/
  counted : Bool
  /-- the partition and vector of the message it carries (R136) -/
  vec : Option (Nat × Nat)
deriving DecidableEq, Repr

/-- A send stream to one endpoint in one class (R317): next PSN, last acknowledged PSN, wraps of the stream. -/
structure SendStream where
  next : Nat
  acked : Nat
  wraps : Nat
deriving DecidableEq, Repr

/-- A receive stream from one endpoint in one class (R318): EXP, wraps, held packets by PSN, deliveries not yet
acknowledged. -/
structure RecvStream where
  exp : Nat
  wraps : Nat
  held : SMap NlUnit
  unacked : Nat
deriving DecidableEq, Repr

/-- A receive stream of multicast packets (R324): the last 4,096 MPSNs accepted, those to acknowledge, the highest. -/
structure McRecv where
  recent : List Nat
  toAck : List Nat
  highest : Nat
  wraps : Nat
deriving DecidableEq, Repr

/-- Who waits for the answer to an originated request. -/
inductive ReqFor where
  /-- a job's read on a channel: the slot and offset of the first byte wanted, the answer's bytes before it, how many
  bytes are wanted, and the offset in the first operand that an error is reported at -/
  | jobRead (job chan slot off lead len at_ : Nat)
  /-- a job's write on a channel, with the offset in the first operand that an error is reported at -/
  | jobWrite (job chan at_ : Nat)
  /-- a descriptor at a HEAD of a module queue (R122) -/
  | queueFetch (queue head : Nat)
  /-- a completion record of a partition, with the vector its visibility lets signal (R128) -/
  | record (part : Nat) (vector : Option Nat)
deriving DecidableEq, Repr

/-- An originated request with no answer yet (R321). -/
structure OutReq where
  who : ReqFor
  tc : Nat
  part : Nat
deriving DecidableEq, Repr

/-- A multicast packet some member has not acknowledged (R324): class, remaining members, job. -/
structure McOut where
  tc : Nat
  members : List Nat
  job : Nat
deriving DecidableEq, Repr

/-- The router and the sequence state of the fabric. -/
structure FabricSt where
  /-- by endpoint * 4 + class -/
  send : SMap SendStream
  recv : SMap RecvStream
  /-- packets that wait for their window, or for a port that is not throttled, oldest first -/
  waiting : List Outgoing
  /-- cell streams by endpoint (R311) -/
  sendCell : SMap SendStream
  recvCell : SMap RecvStream
  /-- multicast send streams by class, packets in flight by class * 2^16 + MPSN, receive streams by source * 4 + class -/
  sendMc : SMap SendStream
  mcOut : SMap McOut
  recvMc : SMap McRecv
  /-- outstanding requests by destination * 2^16 + TAG, and TAGs not to be reused before a powered time -/
  reqs : SMap OutReq
  retired : SMap Nat
  nextTag : Nat
  /-- the last port chosen for an endpoint (R314) -/
  lastPort : SMap Nat
  /-- egress queues by port * 4 + class (R327) -/
  egress : SMap (List Outgoing)
  /-- throttled queues, port * 4 + class -/
  throttled : List Nat
deriving DecidableEq, Repr

/-- What a leaf of the scheduler holds: a Narlin packet, a CXL message, a token of a request admitted at a memory
group, an MSI-X message of a partition's vector. -/
inductive SchedItem where
  | nl (o : Outgoing)
  | cxl (m : Msg)
  | mem (line : Nat) (paced : Bool) (outPort : Nat)
  | msix (part vector : Nat)
deriving DecidableEq, Repr

/-- A service node at a port: its tag, its shaping credit in 1/256 packet, its leaf. -/
structure SvcSt where
  sv : Nat
  credit : Int
  leaf : List SchedItem
deriving DecidableEq, Repr

/-- A subscriber node at a port (R338): tag, minimum credit in 1/1,024 packet, shaping credit in 1/256 packet, the
virtual time among its services, its services. -/
structure SubSt where
  st : Nat
  mc : Nat
  credit : Int
  svt : Nat
  svcs : SMap SvcSt
deriving DecidableEq, Repr

/-- A scheduled port (R336): virtual time, subscriber nodes, the leaves eligible at the last sending opportunity
(8 * subscriber + service, R339), paced reads outstanding by set, panic (Narlin ports), requests delayed at admission
(memory groups). -/
structure SchedPort where
  vt : Nat
  subs : SMap SubSt
  active : List Nat
  pacedOut : SMap Nat
  panic : Bool
  delayed : List (Nat × Nat × Packet)
deriving DecidableEq, Repr

/-! ## Narlin lanes (R260-R283) -/

/-- How the lanes of a port are set: rate 1-4, physical lane of each logical lane and standby spare for each direction,
precoding for each direction, the preset that the peer has asked for of each physical transmit lane where it is not P4. -/
structure LaneCfg where
  rate : Nat
  rxMap : List Nat
  txMap : List Nat
  rxSpare : Option Nat
  txSpare : Option Nat
  txPrecode : Bool
  rxPrecode : Bool
  presets : SMap Nat
deriving DecidableEq, Repr

/-- A bring-up under way: the trace of each lane number the peer sends and the traces that are inverted (R265); blocks of
the phase that have come by trace, and sent on every lane; runs of TS1 and TS2 by trace, TS2 sent with ACK; the rate of the
step and its part (0 counting down, 1 equalising, 2 qualifying, 3 waiting for PASS), the SWITCH_AT sent last, the peer's
last TARGET_RATE and SWITCH_AT; by lane the preset that the peer asks for with how often in a row, and the preset that the
own receiver asks for with how many requests it has made; whether an EQ block has come, both ACKs, both PASS masks. -/
structure TrainSt where
  order : SMap Nat
  polarity : Nat
  got : SMap Nat
  sent : Nat
  ts1Run : SMap Nat
  ts2Run : SMap Nat
  ts2Sent : Nat
  step : Nat
  part : Nat
  count : Nat
  peerTarget : Nat
  peerCount : Nat
  eqRun : SMap (Nat × Nat)
  want : SMap (Nat × Nat)
  eqSeen : Bool
  ackOwn : Bool
  ackPeer : Bool
  pass : Option Nat
  peerPass : Option Nat
deriving DecidableEq, Repr

/-- A loopback of a port (Table 12-6): mode, rate, pattern, PATTERN32, refused by the peer. -/
structure LoopSt where
  mode : Nat
  rate : Nat
  pattern : Nat
  pattern32 : Nat
  refused : Bool
deriving DecidableEq, Repr

/-- The lanes of a port: 0-13 Narlin, 14 mirror. -/
structure LaneSt where
  /-- STATE of NL_PORT_STATUS: 0 DISABLED, 1 DETECT, 2 LOCK, 3 EXCHANGE, 4 STEP, 5 ACTIVE, 6 LOOPBACK, 7 HELD -/
  state : Nat
  /-- CAUSE of NL_PORT_STATUS -/
  cause : Nat
  /-- not yet started by a cold start, or gated in M1 -/
  off : Bool
  cfg : LaneCfg
  /-- the lanes of the previous rate, which a failed step returns to (R272) -/
  prev : Option LaneCfg
  train : TrainSt
  /-- KIND, MAXRATE, UNIT_ID of the peer; UNIT_ID of the peer the port was last ACTIVE with -/
  kind : Nat
  maxRate : Nat
  unit : Nat
  activeUnit : Option Nat
  /-- a bring-up has begun before -/
  begun : Bool
  /-- logical lane sent on the spare too, logical lane for which the spare is compared (R276) -/
  txDup : Option Nat
  rxReq : Option Nat
  /-- physical receive lanes marked faulty, and how many good scans in a row each has had (R277) -/
  faulty : Nat
  goodScans : SMap Nat
  loop : Option LoopSt
  /-- in far-end loopback for the peer; a LOOP_REQ has been declined (R282) -/
  farPeer : Bool
  nak : Bool
  /-- scrambler states of the logical lanes and of the standby pattern, last precoded value of each logical lane and of
  the spare (R262, R264, R274); in a loopback the same of each physical lane (R281) -/
  scramble : List (BitVec 31)
  last : List Nat
  /-- the receiver's generators of the logical lanes and the last value received on each (R262, R264); in a loopback the
  same of each physical lane -/
  rxScramble : List (BitVec 31)
  rxLast : List Nat
  /-- while the spare is compared: whether it agreed in each of the last 64 flits, and the flits compared (R276) -/
  agreed : List Bool
  compared : Nat
  /-- start of the millisecond in which corrections are counted, and corrected bytes by logical lane (R275) -/
  ceStart : Nat
  ce : SMap Nat
deriving DecidableEq, Repr

/-- A commanded eye scan (R280). -/
structure EyeCmd where
  port : Nat
  lane : Nat
  eye : Nat
  full : Bool
deriving DecidableEq, Repr

/-! ## Narlin link layer -/

/-- A DATA flit held for replay (R295): FSEQ, PSTART, payload, and the packets with bytes in it. -/
structure HeldFlit where
  seq : Nat
  pstart : Nat
  payload : Bytes
  units : List Outgoing
deriving DecidableEq, Repr

/-- The link layer of one Narlin port (R285-R304). -/
structure LinkSt where
  /-- 0 DOWN, 1 INIT, 2 UP -/
  state : Nat
  /-- LAST_CAUSE (Table 13-5) and REROUTED -/
  cause : Nat
  rerouted : Bool
  /-- FSEQ of the last DATA flit sent, last ACK taken, held flits, flits the running replay still resends, replays
  without progress -/
  seq : Nat
  ackTaken : Nat
  replay : List HeldFlit
  resend : List HeldFlit
  replays : Nat
  /-- slots of the packet being framed that are still to be sent, and that packet -/
  txRest : List Bytes
  txUnit : Option Outgoing
  /-- INIT flits sent with INIT_SEEN = 1, a good INIT received, one with INIT_SEEN = 1 received -/
  initSent : Nat
  initSeen : Bool
  peerSeen : Bool
  /-- credits by class * 2 + kind (0 header, 1 data): advertised, consumed, returned, freed by this end -/
  adv : SMap Nat
  cons : SMap Nat
  ret : SMap Nat
  freed : SMap Nat
  crTc : Nat
  /-- LANE_OP and LANE_ARG being sent, flits it is still sent in -/
  laneOp : Nat
  laneArg : Nat
  laneLeft : Nat
  /-- LANE_OP and LANE_ARG of the last good flit received -/
  peerOp : Nat
  peerArg : Nat
  /-- receiver: ACK, RECOVER, NAK due, consecutive bad flits, slots of the packet being received -/
  ack : Nat
  recover : Bool
  nakDue : Bool
  badRun : Nat
  rxSlots : List Bytes
deriving DecidableEq, Repr

/-! ## Keys, mirror -/

/-- A key slot (Table 16-3): STATE 0 EMPTY, 1 LIVE, 2 ROLLING. -/
structure KeySlot where
  state : Nat
  part : Nat
  epoch : Nat
  current : BitVec 256
  previous : BitVec 256
deriving DecidableEq, Repr

/-- A blob being unwrapped (R369): who asked, where it lies, its length, its content key once it is unwrapped, its additional data,
the next chunk. -/
structure BlobSt where
  part : Option Nat
  token : Nat
  src : Nat
  srcLen : Nat
  dst : Nat
  dstLen : Nat
  plen : Nat
  chunkLog2 : Nat
  chunksAt : Nat
  key : Option (BitVec 256)
  aad : Bytes
  next : Nat
deriving DecidableEq, Repr

/-- The security block. -/
structure SecSt where
  slots : SMap KeySlot
  /-- the attestation request being served: nonce, scope, partition -/
  attest : Option (Bytes × Nat × Nat)
  blob : Option BlobSt
deriving DecidableEq, Repr

/-- A write whose completion waits for the buddy (R80): the MSEQ that must be acknowledged, who waits, the answer. -/
structure HeldWrite where
  mseq : Nat
  reply : Reply
  op : MemOp
  status : Status
  data : Bytes
deriving DecidableEq, Repr

/-- A role as this module holds it (R390-R393): its state code, its lease epoch, the sending time of the renewal
granted last, LEASE_LATE; as holder, that its standby has sent SYNCED and that it has handed over and not yet
released; as standby, that the holder has announced its release. -/
structure RoleSt where
  code : Nat
  epoch : Nat
  granted : Nat
  late : Bool
  peerSynced : Bool
  handing : Bool
  released : Bool
deriving DecidableEq, Repr

/-- A line being assembled from mirror cells: a resynchronisation copy or not, address, TAG, bytes so far. -/
structure MirrorAsm where
  resync : Bool
  pa : Nat
  tag : Nat
  data : Bytes
deriving DecidableEq, Repr

/-- The mirror link and the buddy copies (R394-R398). -/
structure MirrorSt where
  up : Bool
  simplex : Bool
  /-- CYCLE last committed -/
  cycle : Nat
  /-- MSEQ of the last cell sent, last MACK taken, cells held for replay, the peer's HOLD -/
  seq : Nat
  acked : Nat
  replay : List (Nat × Bytes)
  peerHold : Bool
  /-- cells that wait for HOLD to clear or for room in the replay buffer -/
  queue : List Bytes
  /-- MSEQ of the last cell accepted, of the last applied, RECOVER, NAK to send -/
  accepted : Nat
  mack : Nat
  recover : Bool
  asm : Option MirrorAsm
  /-- META cells of the cycle: record, offset, bytes -/
  metas : List (Nat × Nat × Bytes)
  /-- the standby's copy of the buddy's duplex lines: TAG and 64 bytes by line -/
  copy : SMap (Nat × Bytes)
  held : List HeldWrite
  /-- next line of a resynchronisation copy, while one runs -/
  resync : Option Nat
deriving DecidableEq, Repr

/-- A metadata record: EPOCH, contents. -/
structure MetaRec where
  epoch : Nat
  data : Bytes
deriving DecidableEq, Repr

/-- The buddy pair. -/
structure BuddySt where
  own : RoleSt
  other : RoleSt
  mirror : MirrorSt
  /-- metadata records of the own role and of the buddy's role, and the own records changed since the last cycle -/
  ownRecs : SMap MetaRec
  otherRecs : SMap MetaRec
  changed : List Nat
  /-- frozen records with the buddy's copy (R397) -/
  frozen : SMap MetaRec
  /-- healthy core-rail phases (R388) -/
  phases : Nat
  /-- the referee has told this start that the buddy holds this module's role (R398) -/
  buddyHolds : Bool
deriving DecidableEq, Repr

/-! ## Management -/

/-- An event in the queue or unacknowledged (R426): its code, the time it arose, its 44 data bytes, the CTR of its
message once sent. -/
structure EventRec where
  code : Nat
  ptime : Nat
  data : Bytes
  ctr : Nat
deriving DecidableEq, Repr

/-- The registers of one LD's object window (Table 20-6). -/
structure ObjWin where
  addr : Nat
  len : Nat
  token : Nat
  status : Nat
  busy : Bool
  data : Bytes
deriving DecidableEq, Repr

/-- The management island's protocol state (R425, R426, R427, R429, R435). -/
structure MgmtSt where
  /-- events that wait to be sent, oldest first, at most 256 -/
  events : List EventRec
  /-- events sent and not acknowledged, at most 8 -/
  unacked : List EventRec
  /-- events dropped since the last EVENTS_LOST event -/
  lost : Nat
  /-- CTR of the last message sent -/
  ctr : Nat
  /-- the last 16 responses: request CTR, request TAG, response message -/
  responses : List (Nat × Bytes × Msg)
  /-- expert unlocks by group * 2 + role (0 FM, 1 MON): the powered time at which each lapses -/
  unlocks : SMap Nat
  windows : SMap ObjWin
  /-- a TAP instruction holds the module in reset (R435) -/
  jtagHold : Bool
  /-- the TAP's instruction, and the cells of the boundary register as last updated and captured (R435, R446) -/
  tap : TapInstr
  cells : Boundary
deriving DecidableEq, Repr

/-- Lovage (R432, R433): three copies of a ring of 21,760 records. -/
structure LovageSt where
  a : SMap Bytes
  b : SMap Bytes
  c : SMap Bytes
  /-- ring position of the next record -/
  next : Nat
  /-- SEQ of the next record -/
  seq : Nat
  /-- records written since the last CLEAR, at most 21,760 -/
  count : Nat
  frozen : Bool
deriving DecidableEq, Repr

/-! ## Power and bring-up (spec/19) -/

/-- Power input, power states and the start under way. -/
structure PowerSt where
  /-- the management island is powered: the input is at or above 24 V -/
  powered : Bool
  /-- the last input sample, in 10 mV -/
  vin : Nat
  uvWarn : Bool
  /-- PFAIL_N driven low; held low from a protective shutdown until the next READY (R402) -/
  pfail : Bool
  pfailHeld : Bool
  ov : Bool
  /-- below 36 V, before that qualification has ended -/
  dip : Bool
  ref25 : Bool
  ref100 : Bool
  ref156 : Bool
  degraded : Bool
  /-- main power stage on -/
  mainOn : Bool
  /-- cause of the protective shutdown after which nothing has started: 0 none, 1 UV, 2 OV, 3 PHASES, 4 THERMAL -/
  shutdown : Nat
  /-- hottest junction and stack sensor reading, and whether either is at its warning level (R405) -/
  junction : Nat
  stack : Nat
  hot : Bool
  /-- POWER_STATE: STATE 0-3, BUSY, LAST_TOKEN, LAST_STATUS; the state a transition goes to -/
  state : Nat
  busy : Bool
  token : Nat
  lastStatus : Nat
  target : Nat
  /-- gate masks in force and those of the running transition: tiles, Narlin ports, CXL ports -/
  tileGate : Nat
  nlGate : Nat
  cxlGate : Nat
  newTileGate : Nat
  newNlGate : Nat
  newCxlGate : Nat
  /-- M3 has been accepted (R411) -/
  closing : Bool
  /-- the SRAM rows that the boot ROM has repaired at this start (R389) -/
  sramFixed : List SramRow
  /-- BRINGUP_STATUS: PHASE (Table 19-5), KIND 1 cold 2 warm, FW_REJECT -/
  phase : Nat
  kind : Nat
  fwReject : Nat
  /-- image bytes gathered over the network and through the mailbox (R416) -/
  netImage : Bytes
  mbImage : Bytes
  /-- transferred images not yet verified, first completed first -/
  images : List Bytes
  /-- the verified image; the running one, once a start has verified it -/
  image : Option Bytes
  /-- the channels of this start are trained (R85, R87) -/
  trained : Bool
  /-- the next wave of physical tiles (R415) -/
  wave : Nat
  /-- a warm start that waits for the 25 MHz reference (R407) -/
  warmWait : Bool
  /-- an ORDERLY module reset whose fences drain (R383); the cause of the reset whose warm start runs -/
  orderly : Bool
  resetCause : Nat
  /-- DEBUG_STATE in force (R367) -/
  debug : Nat
deriving DecidableEq, Repr

/-! ## The whole machine -/

/-- The state of the module. -/
structure State where
  /-- powered time in ns, 64 bits (R18) -/
  ptime : Nat
  /-- the module is READY (R420), and no module reset has begun since -/
  ready : Bool
  mram : MramSt
  /-- values of objects that differ from their defaults, by `objKey` -/
  objs : SMap Nat
  dram : DramSt
  coh : CohSt
  hosts : HostSt
  cxl : CxlSt
  work : WorkSt
  /-- tiles by logical number; unlisted: all zero, idle -/
  tiles : SMap TileSt
  sync : SyncSt
  fabric : FabricSt
  /-- scheduled ports: Narlin 0-13, CXL 16-19, memory groups 32-63; unlisted: idle -/
  sched : SMap SchedPort
  /-- lanes of ports 0-14; unlisted: DISABLED and not started -/
  lanes : SMap LaneSt
  eyeCmd : Option EyeCmd
  /-- link layers of ports 0-13; unlisted: DOWN -/
  links : SMap LinkSt
  sec : SecSt
  buddy : BuddySt
  mgmt : MgmtSt
  lovage : LovageSt
  power : PowerSt
  /-- reservations that ring stops hold, by (ring * 64 + stop) * 2 + direction (R26); unlisted: none -/
  rings : SMap Bool
  /-- the next free value (log entry 11) -/
  fresh : Nat
  /-- messages sent, oldest first -/
  outbox : List Msg
  /-- commands that wait, first in, first out -/
  pending : List Instr
deriving DecidableEq, Repr

/-- The power state at power-on: nothing sampled, nothing started. -/
def power0 : PowerSt :=
  { powered := true, vin := 0, uvWarn := false, pfail := true, pfailHeld := false, ov := false, dip := false,
    ref25 := false, ref100 := false, ref156 := false, degraded := false, mainOn := false, shutdown := 0, junction := 0,
    stack := 0, hot := false, state := 0, busy := false, token := 0, lastStatus := 0, target := 0, tileGate := 0,
    nlGate := 0, cxlGate := 0, newTileGate := 0, newNlGate := 0, newCxlGate := 0, closing := false, sramFixed := [], phase := 0, kind := 0,
    fwReject := 0, netImage := [], mbImage := [], images := [], image := none, trained := false, wave := 0, warmWait := false,
    orderly := false, resetCause := 0, debug := 0 }

/-- The boundary register at power-on: no output enabled (log entry 5). -/
def cells0 : Boundary :=
  { uartTxdCtl := false, uartTxdOut := false, pfailCtl := false, pfailOut := false, uartRxd := false, claimClrN := false,
    perstN := 0, refclk25 := false, refclk100 := false, refclk156 := false, tx := 0, rx := 0 }

/-- The module at power-on: input power has just reached the management island (R18), every object holds its default
(R438), nothing is running (log entries 4 and 5). -/
def State.reset : State :=
  { ptime := 0
    ready := false
    mram := { sramRows := [], minutes := 0, hours := 0, copyA := [], copyB := [], train := [], failedTiles := [], deadStacks := [], remaps := [],
              fmKey := none, fmCtr := 0, rollback := 0, lastShutdown := 0 }
    objs := []
    dram := { cells := [], lost := [], stackMap := [], init := 0, summary := [], evac := none, evacWait := [], rowCe := [],
              chanUe := [], heldRows := [], refusedRows := [], refresh := [], dqs := [], selfRefresh := false }
    coh := { lines := [], filter := [], txns := [], failure := none, alarm := none, tagFaults := [], plru := [], bridges := [], tilesUp := [], beats := [] }
    hosts := { ldMap := [], hdm := [], regions := [], pub := [], extents := [], dirCache := [], dirOver := [],
               snoops := [], answered := [], waiting := [], nextReq := 0, recalls := [], nextRecall := 0, cmdRunning := false,
               sweeps := [] }
    cxl := { lanes := [], ide := [], trained := 0, perst := 0, creditHeld := 15, gated := 0 }
    work := { parts := [], queues := [], jobs := [], nextJob := 0, groups := [], fills := [], cmdRunning := false }
    tiles := []
    sync := { objs := [], waits := [], banks := [], held := [] }
    fabric := { send := [], recv := [], waiting := [], sendCell := [], recvCell := [], sendMc := [], mcOut := [],
                recvMc := [], reqs := [], retired := [], nextTag := 0, lastPort := [], egress := [], throttled := [] }
    sched := []
    lanes := []
    eyeCmd := none
    links := []
    sec := { slots := [], attest := none, blob := none }
    buddy := { own := { code := 6, epoch := 0, granted := 0, late := false, peerSynced := false, handing := false, released := false }
               other := { code := 6, epoch := 0, granted := 0, late := false, peerSynced := false, handing := false, released := false }
               mirror := { up := false, simplex := false, cycle := 0, seq := 0xFFFF, acked := 0xFFFF, replay := [],
                           peerHold := false, queue := [], accepted := 0xFFFF, mack := 0xFFFF, recover := false,
                           asm := none, metas := [], copy := [], held := [], resync := none }
               ownRecs := [], otherRecs := [], changed := [], frozen := [], phases := 26, buddyHolds := false }
    mgmt := { events := [], unacked := [], lost := 0, ctr := 0, responses := [], unlocks := [], windows := [],
              jtagHold := false, tap := .quiet .testLogicReset, cells := cells0 }
    lovage := { a := [], b := [], c := [], next := 0, seq := 0, count := 0, frozen := false }
    power := power0
    rings := []
    fresh := 0
    outbox := []
    pending := [] }

end Sys2Proof.Machine
end

