-- ==== Sys2Proof/ObjTable.lean ====
section
/-!
DEFINITION. The object dictionary's register: every object of spec/21_object_dictionary_map.md and of the object
tables of the chapters (R436), with its sub-index range, width in bytes, access class, level, the roles that may
write it, its default (R438) and the range the spec states for its value (Table 20-3).
-/
namespace Sys2Proof

/-- Access class of an object (R11); the two counter classes are the class S counters of R14, kept over a loss of
power or not. -/
inductive ObjKind where
  | const | ro | rw | rws | wo | counter | counterRws
deriving DecidableEq, Repr

/-- Who may write an object besides what Table 20-2 gives every role. -/
inductive ObjWriters where
  | fm | fmMon | fmPd | pd | any
deriving DecidableEq, Repr

/-- The range check of an object's value (Table 20-3, last row). -/
inductive ObjCheck where
  | any
  | range (lo hi : Nat)
  | rangeOr (lo hi other : Nat)
  | oneOf (vs : List Nat)
  | bits (mask : Nat)
deriving DecidableEq, Repr

/-- One row of the object dictionary. -/
structure ObjRow where
  index : Nat
  subLo : Nat
  subHi : Nat
  width : Nat
  kind : ObjKind
  expert : Bool
  writers : ObjWriters
  default : Nat
  check : ObjCheck
deriving DecidableEq, Repr

/-- Rows of indices 0x1000 to 0x10FF. -/
def objRows10 : List ObjRow := [
   /- DEVICE_IDENTITY -/ ⟨0x1000, 0, 0, 64, .const, false, .fm, 0, .any⟩]

/-- Rows of indices 0x1100 to 0x11FF. -/
def objRows11 : List ObjRow := [
   /- GEOM_FORMAT -/ ⟨0x1100, 0, 0, 2, .const, false, .fm, 1, .any⟩,
   /- GEOM_TILES -/ ⟨0x1101, 0, 0, 2, .ro, false, .fm, 64, .any⟩,
   /- GEOM_CONTEXTS_PER_TILE -/ ⟨0x1102, 0, 0, 2, .ro, false, .fm, 16, .any⟩,
   /- GEOM_DECODE_CONTEXTS -/ ⟨0x1103, 0, 0, 2, .ro, false, .fm, 0x400, .any⟩,
   /- GEOM_JOB_QUEUES -/ ⟨0x1104, 0, 0, 2, .ro, false, .fm, 0x400, .any⟩,
   /- GEOM_PARTITIONS -/ ⟨0x1105, 0, 0, 1, .ro, false, .fm, 64, .any⟩,
   /- GEOM_SYNC_OBJECTS -/ ⟨0x1106, 0, 0, 4, .ro, false, .fm, 0x10000, .any⟩,
   /- GEOM_STACKS -/ ⟨0x1107, 0, 0, 1, .ro, false, .fm, 32, .any⟩,
   /- GEOM_CHANNELS -/ ⟨0x1108, 0, 0, 2, .ro, false, .fm, 128, .any⟩,
   /- GEOM_POOL_BYTES -/ ⟨0x1109, 0, 0, 8, .ro, false, .fm, 0xE000000000, .any⟩,
   /- GEOM_CXL_PORTS -/ ⟨0x110A, 0, 0, 1, .ro, false, .fm, 4, .any⟩,
   /- GEOM_LD_PER_PORT -/ ⟨0x110B, 0, 0, 1, .ro, false, .fm, 16, .any⟩,
   /- GEOM_HOSTS -/ ⟨0x110C, 0, 0, 1, .ro, false, .fm, 32, .any⟩,
   /- GEOM_NARLIN_ACCEL_PORTS -/ ⟨0x110D, 0, 0, 1, .ro, false, .fm, 12, .any⟩,
   /- GEOM_NARLIN_FABRIC_PORTS -/ ⟨0x110E, 0, 0, 1, .ro, false, .fm, 2, .any⟩,
   /- GEOM_FABRIC_ENDPOINTS -/ ⟨0x110F, 0, 0, 2, .ro, false, .fm, 256, .any⟩,
   /- GEOM_KEY_SLOTS -/ ⟨0x1110, 0, 0, 2, .ro, false, .fm, 256, .any⟩,
   /- GEOM_LOCAL_RINGS -/ ⟨0x1111, 0, 0, 1, .ro, false, .fm, 8, .any⟩,
   /- GEOM_TILE_SCRATCH_BYTES -/ ⟨0x1112, 0, 0, 4, .ro, false, .fm, 0x40000, .any⟩,
   /- GEOM_TILE_CACHE_BYTES -/ ⟨0x1113, 0, 0, 4, .ro, false, .fm, 0x200000, .any⟩,
   /- GEOM_TILE_PROGRAM_BYTES -/ ⟨0x1114, 0, 0, 4, .ro, false, .fm, 0x10000, .any⟩]

/-- Rows of indices 0x1200 to 0x12FF. -/
def objRows12 : List ObjRow := [
   /- FIRMWARE_DIGESTS -/ ⟨0x1200, 0, 0, 160, .ro, false, .fm, 0, .any⟩]

/-- Rows of indices 0x2000 to 0x20FF. -/
def objRows20 : List ObjRow := [
   /- POWER_STATE_CMD -/ ⟨0x2000, 0, 0, 24, .wo, false, .fm, 0, .any⟩]

/-- Rows of indices 0x2100 to 0x21FF. -/
def objRows21 : List ObjRow := [
   /- PART_CMD -/ ⟨0x2100, 0, 0, 16, .wo, false, .fm, 0, .any⟩,
   /- PART_CMD_STATUS -/ ⟨0x2101, 0, 0, 4, .ro, false, .fm, 0, .any⟩,
   /- (entries) -/ ⟨0x2110, 0, 0, 1, .const, false, .fm, 64, .any⟩,
   /- PART_BLOCKS -/ ⟨0x2110, 1, 64, 896, .rws, false, .fm, 0, .any⟩,
   /- (entries) -/ ⟨0x2111, 0, 0, 1, .const, false, .fm, 64, .any⟩,
   /- PART_EP_GRANT -/ ⟨0x2111, 1, 64, 32, .rws, false, .fm, 0, .any⟩,
   /- (entries) -/ ⟨0x2112, 0, 0, 1, .const, false, .fm, 64, .any⟩,
   /- PART_KEYS -/ ⟨0x2112, 1, 64, 4, .rws, false, .fm, 0xFF0000, .any⟩,
   /- (entries) -/ ⟨0x2120, 0, 0, 1, .const, false, .fm, 128, .any⟩,
   /- EP_GRANT_LO -/ ⟨0x2120, 1, 128, 912, .rws, false, .fm, 0, .any⟩,
   /- (entries) -/ ⟨0x2121, 0, 0, 1, .const, false, .fm, 128, .any⟩,
   /- EP_GRANT_HI -/ ⟨0x2121, 1, 128, 912, .rws, false, .fm, 0, .any⟩,
   /- EP_PARTITION -/ ⟨0x2122, 0, 0, 256, .rws, false, .fm, 0xFFFFFFFFFFFFFFFFFFFFFFFFFFFFFFFFFFFFFFFFFFFFFFFFFFFFFFFFFFFFFFFFFFFFFFFFFFFFFFFFFFFFFFFFFFFFFFFFFFFFFFFFFFFFFFFFFFFFFFFFFFFFFFFFFFFFFFFFFFFFFFFFFFFFFFFFFFFFFFFFFFFFFFFFFFFFFFFFFFFFFFFFFFFFFFFFFFFFFFFFFFFFFFFFFFFFFFFFFFFFFFFFFFFFFFFFFFFFFFFFFFFFFFFFFFFFFFFFFFFFFFFFFFFFFFFFFFFFFFFFFFFFFFFFFFFFFFFFFFFFFFFFFFFFFFFFFFFFFFFFFFFFFFFFFFFFFFFFFFFFFFFFFFFFFFFFFFFFFFFFFFFFFFFFFFFFFFFFFFFFFFFFFFFFFFFFFFFFFFFFFFFFFFFFFFFFFFFFFFFFFFFFFFFFFFFFFFFFFFFFFFFFFFFFFFFFFFFFFFFFFFFFFFFFFFFFFFFFFFFFFFFFFFFFFFFFFFFFFFFFFFFFFFFFFFFF, .any⟩]

/-- Rows of indices 0x2200 to 0x22FF. -/
def objRows22 : List ObjRow := [
   /- REGION_CMD -/ ⟨0x2200, 0, 0, 32, .wo, false, .fm, 0, .any⟩,
   /- REGION_CMD_STATUS -/ ⟨0x2201, 0, 0, 4, .ro, false, .fm, 0, .any⟩,
   /- HOST_DECLARE_DEAD -/ ⟨0x2202, 0, 0, 1, .wo, false, .fm, 0, .any⟩,
   /- REGION_QUERY_RESULT -/ ⟨0x2203, 0, 0, 32, .ro, false, .fm, 0, .any⟩,
   /- HOST_TABLE -/ ⟨0x2210, 0, 0, 1, .const, false, .fm, 32, .any⟩,
   /- HOST_TABLE -/ ⟨0x2210, 1, 32, 8, .rw, false, .fm, 0, .any⟩]

/-- Rows of indices 0x2300 to 0x23FF. -/
def objRows23 : List ObjRow := [
   /- MEM_REFRESH_MODE -/ ⟨0x2310, 0, 0, 1, .const, false, .fm, 8, .any⟩,
   /- MEM_REFRESH_MODE -/ ⟨0x2310, 1, 8, 1, .rws, false, .fm, 0, (.range 0 1)⟩,
   /- MEM_SCRUB_ENABLE -/ ⟨0x2311, 0, 0, 1, .rws, false, .fm, 1, (.range 0 1)⟩,
   /- BLOCK_MARK_INIT -/ ⟨0x2320, 0, 0, 4, .wo, false, .fm, 0, .any⟩,
   /- BLOCK_INIT_QUERY -/ ⟨0x2321, 0, 0, 4, .rw, false, .fm, 0, .any⟩,
   /- SPARE_STACK_CMD -/ ⟨0x2330, 0, 0, 1, .wo, false, .fm, 0, .any⟩]

/-- Rows of indices 0x2400 to 0x24FF. -/
def objRows24 : List ObjRow := [
   /- (entries) -/ ⟨0x2400, 0, 0, 1, .const, false, .fm, 15, .any⟩,
   /- NL_PORT_ENABLE -/ ⟨0x2400, 1, 15, 1, .rws, false, .fm, 1, (.range 0 1)⟩,
   /- (entries) -/ ⟨0x2401, 0, 0, 1, .const, false, .fm, 15, .any⟩,
   /- NL_MAX_RATE -/ ⟨0x2401, 1, 14, 1, .rws, false, .fm, 4, (.range 1 4)⟩,
   /- NL_MAX_RATE -/ ⟨0x2401, 15, 15, 1, .rws, false, .fm, 3, (.range 1 3)⟩,
   /- NL_RETRAIN_CMD -/ ⟨0x2402, 0, 0, 1, .wo, false, .fm, 0, .any⟩,
   /- NF_ROUTE_LO -/ ⟨0x2420, 0, 0, 1, .const, false, .fm, 128, .any⟩,
   /- NF_ROUTE_LO -/ ⟨0x2420, 1, 128, 8, .rw, false, .fm, 0, .any⟩,
   /- NF_ROUTE_HI -/ ⟨0x2421, 0, 0, 1, .const, false, .fm, 128, .any⟩,
   /- NF_ROUTE_HI -/ ⟨0x2421, 1, 128, 8, .rw, false, .fm, 0, .any⟩,
   /- NF_OWN_ENDPOINT -/ ⟨0x2422, 0, 0, 1, .rws, false, .fm, 0, .any⟩,
   /- NF_ZERO_ELIDE -/ ⟨0x2423, 0, 0, 1, .rws, false, .fm, 1, (.range 0 1)⟩]

/-- Rows of indices 0x2500 to 0x25FF. -/
def objRows25 : List ObjRow := [
   /- SCH_SUB_WEIGHT -/ ⟨0x2500, 0, 0, 1, .const, false, .fm, 65, .any⟩,
   /- SCH_SUB_WEIGHT -/ ⟨0x2500, 1, 65, 1, .rws, false, .fm, 16, (.range 1 255)⟩,
   /- SCH_SUB_MIN -/ ⟨0x2501, 0, 0, 1, .const, false, .fm, 65, .any⟩,
   /- SCH_SUB_MIN -/ ⟨0x2501, 1, 65, 2, .rws, false, .fm, 0, (.range 0 1024)⟩,
   /- (entries) -/ ⟨0x2502, 0, 0, 1, .const, false, .fm, 32, .any⟩,
   /- SCH_HOST_SUB -/ ⟨0x2502, 1, 32, 1, .rws, false, .fm, 64, (.range 0 64)⟩,
   /- SCH_EP_SUB -/ ⟨0x2503, 0, 0, 256, .rws, false, .fm, 0x40404040404040404040404040404040404040404040404040404040404040404040404040404040404040404040404040404040404040404040404040404040404040404040404040404040404040404040404040404040404040404040404040404040404040404040404040404040404040404040404040404040404040404040404040404040404040404040404040404040404040404040404040404040404040404040404040404040404040404040404040404040404040404040404040404040404040404040404040404040404040404040404040404040404040404040404040404040404040404040404040404040404040404040404040404040, .any⟩,
   /- SCH_PACED -/ ⟨0x2504, 0, 0, 32, .rws, false, .fm, 0, .any⟩]

/-- Rows of indices 0x2600 to 0x26FF. -/
def objRows26 : List ObjRow := [
   /- TILE_OWNER -/ ⟨0x2600, 0, 0, 1, .const, false, .fm, 64, .any⟩,
   /- TILE_OWNER -/ ⟨0x2600, 1, 64, 1, .rws, false, .fm, 255, .any⟩,
   /- QUEUE_ASSIGN -/ ⟨0x2601, 0, 0, 4, .wo, false, .fm, 0, .any⟩,
   /- (entries) -/ ⟨0x2602, 0, 0, 1, .const, false, .fm, 64, .any⟩,
   /- PART_LD -/ ⟨0x2602, 1, 64, 4, .rws, false, .fm, 0, (.bits 0xFFFFF)⟩,
   /- (entries) -/ ⟨0x2603, 0, 0, 1, .const, false, .fm, 64, .any⟩,
   /- PART_MSIX_SIZE -/ ⟨0x2603, 1, 64, 2, .rws, false, .fm, 64, (.range 1 256)⟩,
   /- ATT_PERMIT -/ ⟨0x2610, 0, 0, 1, .const, false, .fm, 64, .any⟩,
   /- ATT_PERMIT -/ ⟨0x2610, 1, 64, 1, .rws, false, .fm, 3, (.bits 0x3)⟩,
   /- EXP_WINDOW_DEFAULT_US -/ ⟨0x2620, 0, 0, 2, .rws, false, .fm, 100, (.range 0 1000)⟩,
   /- PROG_PERMIT -/ ⟨0x2630, 0, 0, 1, .const, false, .fm, 64, .any⟩,
   /- PROG_PERMIT -/ ⟨0x2630, 1, 64, 1, .rws, false, .fm, 1, (.range 0 1)⟩]

/-- Rows of indices 0x2700 to 0x27FF. -/
def objRows27 : List ObjRow := [
   /- SYNC_RANGE -/ ⟨0x2700, 0, 0, 1, .const, false, .fm, 64, .any⟩,
   /- SYNC_RANGE -/ ⟨0x2700, 1, 64, 8, .rws, false, .fm, 0, (.bits 0x1FFFF0000FFFF)⟩,
   /- (entries) -/ ⟨0x2701, 0, 0, 1, .const, false, .fm, 64, .any⟩,
   /- SYNC_EP_GRANT -/ ⟨0x2701, 1, 64, 32, .rws, false, .fm, 0, .any⟩]

/-- Rows of indices 0x2800 to 0x28FF. -/
def objRows28 : List ObjRow := [
   /- ROLE_HOME -/ ⟨0x2800, 0, 0, 1, .const, false, .fm, 2, .any⟩,
   /- ROLE_HOME -/ ⟨0x2800, 1, 1, 1, .rws, false, .fm, 1, (.range 0 1)⟩,
   /- ROLE_HOME -/ ⟨0x2800, 2, 2, 1, .rws, false, .fm, 0, (.range 0 1)⟩,
   /- ROLE_SWAP_CMD -/ ⟨0x2801, 0, 0, 1, .wo, false, .fm, 0, .any⟩,
   /- SPARE_TILE_CMD -/ ⟨0x2802, 0, 0, 1, .wo, false, .fm, 0, .any⟩,
   /- DIVERGENCE_RESOLVE -/ ⟨0x2803, 0, 0, 4, .wo, false, .fm, 0, .any⟩]

/-- Rows of indices 0x2900 to 0x29FF. -/
def objRows29 : List ObjRow := [
   /- MODULE_RESET_CMD -/ ⟨0x2900, 0, 0, 1, .wo, false, .fmMon, 0, .any⟩]

/-- Rows of indices 0x2A00 to 0x2AFF. -/
def objRows2A : List ObjRow := [
   /- BOOT_SOURCE -/ ⟨0x2A00, 0, 0, 1, .rws, false, .fm, 0, (.range 0 2)⟩,
   /- EXPECTED_TOPOLOGY -/ ⟨0x2A01, 0, 0, 120, .rws, false, .fm, 0, .any⟩,
   /- TOPO_ACCEPT -/ ⟨0x2A02, 0, 0, 2, .wo, false, .fm, 0, .any⟩]

/-- Rows of indices 0x2B00 to 0x2BFF. -/
def objRows2B : List ObjRow := [
   /- EXPERT_UNLOCK -/ ⟨0x2B00, 0, 0, 1, .const, false, .fm, 12, .any⟩,
   /- EXPERT_UNLOCK -/ ⟨0x2B00, 1, 12, 2, .rw, false, .fmMon, 0, .any⟩,
   /- MGMT_FM_ENDPOINT -/ ⟨0x2B01, 0, 0, 18, .rws, false, .fm, 0, .any⟩,
   /- PLCA_NODE_ID -/ ⟨0x2B02, 0, 0, 1, .rws, false, .fm, 255, (.range 0 255)⟩,
   /- MGMT_IPV6_ADDR -/ ⟨0x2B03, 0, 0, 16, .rws, false, .fm, 0, .any⟩,
   /- MB_POWER_HOSTS -/ ⟨0x2B04, 0, 0, 4, .rws, false, .fm, 0, .any⟩]

/-- Rows of indices 0x3000 to 0x30FF. -/
def objRows30 : List ObjRow := [
   /- POWER_STATE -/ ⟨0x3000, 0, 0, 4, .ro, false, .fm, 0, .any⟩,
   /- INPUT_STATUS -/ ⟨0x3001, 0, 0, 4, .ro, false, .fm, 0, .any⟩,
   /- PWR_COUNTERS -/ ⟨0x3002, 0, 0, 1, .const, false, .fm, 6, .any⟩,
   /- PWR_DIPS_RIDDEN -/ ⟨0x3002, 1, 1, 8, .counter, false, .fm, 0, .any⟩,
   /- PWR_UV_WARNINGS -/ ⟨0x3002, 2, 2, 8, .counter, false, .fm, 0, .any⟩,
   /- PWR_OV_EVENTS -/ ⟨0x3002, 3, 3, 8, .counter, false, .fm, 0, .any⟩,
   /- PWR_SHUTDOWNS -/ ⟨0x3002, 4, 4, 8, .counterRws, false, .fm, 0, .any⟩,
   /- PWR_THERMAL_WARNINGS -/ ⟨0x3002, 5, 5, 8, .counter, false, .fm, 0, .any⟩,
   /- PWR_REF_LOSSES -/ ⟨0x3002, 6, 6, 8, .counter, false, .fm, 0, .any⟩,
   /- THERMAL_STATUS -/ ⟨0x3003, 0, 0, 4, .ro, false, .fm, 0, .any⟩,
   /- PWR_LAST_SHUTDOWN -/ ⟨0x3004, 0, 0, 16, .ro, false, .fm, 0, .any⟩]

/-- Rows of indices 0x3100 to 0x31FF. -/
def objRows31 : List ObjRow := [
   /- (entries) -/ ⟨0x3110, 0, 0, 1, .const, false, .fm, 64, .any⟩,
   /- PART_STATE -/ ⟨0x3110, 1, 64, 1, .ro, false, .fm, 0, .any⟩,
   /- SEC_SANITISED_BLOCKS -/ ⟨0x3111, 0, 0, 8, .counterRws, false, .fm, 0, .any⟩,
   /- (entries) -/ ⟨0x3120, 0, 0, 1, .const, false, .fm, 64, .any⟩,
   /- XL_PT_ROOT_VIEW -/ ⟨0x3120, 1, 64, 8, .ro, false, .fm, 0, .any⟩,
   /- (entries) -/ ⟨0x3121, 0, 0, 1, .const, false, .fm, 64, .any⟩,
   /- XL_FAULT_VIEW -/ ⟨0x3121, 1, 64, 8, .ro, false, .fm, 0, .any⟩,
   /- (entries) -/ ⟨0x3122, 0, 0, 1, .const, false, .fm, 128, .any⟩,
   /- EP_REFUSED_LO -/ ⟨0x3122, 1, 128, 8, .counter, false, .fm, 0, .any⟩,
   /- (entries) -/ ⟨0x3123, 0, 0, 1, .const, false, .fm, 128, .any⟩,
   /- EP_REFUSED_HI -/ ⟨0x3123, 1, 128, 8, .counter, false, .fm, 0, .any⟩]

/-- Rows of indices 0x3200 to 0x32FF. -/
def objRows32 : List ObjRow := [
   /- (entries) -/ ⟨0x3210, 0, 0, 1, .const, false, .fm, 32, .any⟩,
   /- HOST_BISNP_SENT -/ ⟨0x3210, 1, 32, 8, .counter, false, .fm, 0, .any⟩,
   /- (entries) -/ ⟨0x3211, 0, 0, 1, .const, false, .fm, 32, .any⟩,
   /- HOST_BI_TIMEOUT -/ ⟨0x3211, 1, 32, 8, .counter, false, .fm, 0, .any⟩,
   /- (entries) -/ ⟨0x3212, 0, 0, 1, .const, false, .fm, 32, .any⟩,
   /- HOST_LINES_POISONED -/ ⟨0x3212, 1, 32, 8, .counterRws, false, .fm, 0, .any⟩,
   /- (entries) -/ ⟨0x3213, 0, 0, 1, .const, false, .fm, 32, .any⟩,
   /- HOST_PUBLISH_CONFLICT -/ ⟨0x3213, 1, 32, 8, .counter, false, .fm, 0, .any⟩,
   /- DIR_CACHE_SPILLS -/ ⟨0x3220, 0, 0, 8, .counter, false, .fm, 0, .any⟩,
   /- DIR_BROADCAST_LINES -/ ⟨0x3221, 0, 0, 8, .counter, false, .fm, 0, .any⟩,
   /- (entries) -/ ⟨0x3230, 0, 0, 1, .const, false, .fm, 64, .any⟩,
   /- LD_UNMAPPED_ACCESS -/ ⟨0x3230, 1, 64, 8, .counter, false, .fm, 0, .any⟩,
   /- (entries) -/ ⟨0x3231, 0, 0, 1, .const, false, .fm, 64, .any⟩,
   /- LD_WRITE_REFUSED -/ ⟨0x3231, 1, 64, 8, .counter, false, .fm, 0, .any⟩]

/-- Rows of indices 0x3300 to 0x33FF. -/
def objRows33 : List ObjRow := [
   /- MEM_SPARE_STATE -/ ⟨0x3300, 0, 0, 2, .ro, false, .fm, 0xFFFF, .any⟩,
   /- MEM_EVAC_STATUS -/ ⟨0x3301, 0, 0, 4, .ro, false, .fm, 0, .any⟩,
   /- (entries) -/ ⟨0x3320, 0, 0, 1, .const, false, .fm, 32, .any⟩,
   /- MEM_CE -/ ⟨0x3320, 1, 32, 8, .counterRws, false, .fm, 0, .any⟩,
   /- (entries) -/ ⟨0x3321, 0, 0, 1, .const, false, .fm, 32, .any⟩,
   /- MEM_UE -/ ⟨0x3321, 1, 32, 8, .counterRws, false, .fm, 0, .any⟩,
   /- MEM_UNINIT_READS -/ ⟨0x3322, 0, 0, 8, .counter, false, .fm, 0, .any⟩,
   /- (entries) -/ ⟨0x3330, 0, 0, 1, .const, false, .fm, 8, .any⟩,
   /- MEM_REFRESH_POSTPONED -/ ⟨0x3330, 1, 8, 8, .counter, false, .fm, 0, .any⟩,
   /- (entries) -/ ⟨0x3331, 0, 0, 1, .const, false, .fm, 8, .any⟩,
   /- MEM_REFRESH_FORCED -/ ⟨0x3331, 1, 8, 8, .counter, false, .fm, 0, .any⟩,
   /- (entries) -/ ⟨0x3340, 0, 0, 1, .const, false, .fm, 32, .any⟩,
   /- MEM_ROW_REMAPS -/ ⟨0x3340, 1, 32, 8, .counterRws, false, .fm, 0, .any⟩,
   /- (entries) -/ ⟨0x3341, 0, 0, 1, .const, false, .fm, 32, .any⟩,
   /- MEM_REMAP_REFUSED -/ ⟨0x3341, 1, 32, 8, .counterRws, false, .fm, 0, .any⟩,
   /- (entries) -/ ⟨0x3350, 0, 0, 1, .const, false, .fm, 64, .any⟩,
   /- MEM_ERROR_LOG -/ ⟨0x3350, 1, 64, 32, .ro, false, .fm, 0, .any⟩,
   /- MEM_ERROR_LOG_NEXT -/ ⟨0x3351, 0, 0, 1, .ro, false, .fm, 1, .any⟩]

/-- Rows of indices 0x3400 to 0x34FF. -/
def objRows34 : List ObjRow := [
   /- (entries) -/ ⟨0x3400, 0, 0, 1, .const, false, .fm, 15, .any⟩,
   /- NL_PORT_STATUS -/ ⟨0x3400, 1, 15, 4, .ro, false, .fm, 0, .any⟩,
   /- (entries) -/ ⟨0x3401, 0, 0, 1, .const, false, .fm, 15, .any⟩,
   /- NL_PEER_ID -/ ⟨0x3401, 1, 15, 8, .ro, false, .fm, 0, .any⟩,
   /- (entries) -/ ⟨0x3402, 0, 0, 1, .const, false, .fm, 15, .any⟩,
   /- NL_LANE_WIDTH -/ ⟨0x3402, 1, 15, 8, .ro, false, .fm, 0xFFFFFFFFFFFFFFFF, .any⟩,
   /- (entries) -/ ⟨0x3403, 0, 0, 1, .const, false, .fm, 15, .any⟩,
   /- NL_LANE_HEIGHT -/ ⟨0x3403, 1, 15, 8, .ro, false, .fm, 0xFFFFFFFFFFFFFFFF, .any⟩,
   /- (entries) -/ ⟨0x3410, 0, 0, 1, .const, false, .fm, 15, .any⟩,
   /- NL_RETRAINS -/ ⟨0x3410, 1, 15, 8, .counter, false, .fm, 0, .any⟩,
   /- (entries) -/ ⟨0x3411, 0, 0, 1, .const, false, .fm, 15, .any⟩,
   /- NL_SPARE_SWITCHES -/ ⟨0x3411, 1, 15, 8, .counter, false, .fm, 0, .any⟩,
   /- (entries) -/ ⟨0x3412, 0, 0, 1, .const, false, .fm, 15, .any⟩,
   /- NL_STEP_FAILS -/ ⟨0x3412, 1, 15, 8, .counter, false, .fm, 0, .any⟩,
   /- (entries) -/ ⟨0x3420, 0, 0, 1, .const, false, .fm, 9, .any⟩,
   /- NL_LOOP_ERRORS -/ ⟨0x3420, 1, 9, 8, .counter, false, .fm, 0, .any⟩,
   /- NL_LOOP_STATUS -/ ⟨0x3421, 0, 0, 1, .ro, false, .fm, 0, .any⟩,
   /- (entries) -/ ⟨0x3430, 0, 0, 1, .const, false, .fm, 14, .any⟩,
   /- NL_LINK_STATUS -/ ⟨0x3430, 1, 14, 4, .ro, false, .fm, 0, .any⟩,
   /- (entries) -/ ⟨0x3431, 0, 0, 1, .const, false, .fm, 14, .any⟩,
   /- NL_FLITS_CORRECTED -/ ⟨0x3431, 1, 14, 8, .counter, false, .fm, 0, .any⟩,
   /- (entries) -/ ⟨0x3432, 0, 0, 1, .const, false, .fm, 14, .any⟩,
   /- NL_FLITS_BAD -/ ⟨0x3432, 1, 14, 8, .counter, false, .fm, 0, .any⟩,
   /- (entries) -/ ⟨0x3433, 0, 0, 1, .const, false, .fm, 14, .any⟩]

/-- Rows of indices 0x3400 to 0x34FF. -/
def objRows34b : List ObjRow := [
   /- NL_REPLAYS -/ ⟨0x3433, 1, 14, 8, .counter, false, .fm, 0, .any⟩,
   /- (entries) -/ ⟨0x3434, 0, 0, 1, .const, false, .fm, 14, .any⟩,
   /- NL_LINK_DOWNS -/ ⟨0x3434, 1, 14, 8, .counterRws, false, .fm, 0, .any⟩,
   /- (entries) -/ ⟨0x3435, 0, 0, 1, .const, false, .fm, 14, .any⟩,
   /- NL_DUPLICATES -/ ⟨0x3435, 1, 14, 8, .counter, false, .fm, 0, .any⟩,
   /- (entries) -/ ⟨0x3436, 0, 0, 1, .const, false, .fm, 14, .any⟩,
   /- NL_CREDIT_OVERRUNS -/ ⟨0x3436, 1, 14, 8, .counter, false, .fm, 0, .any⟩,
   /- (entries) -/ ⟨0x3437, 0, 0, 1, .const, false, .fm, 14, .any⟩,
   /- NL_UNROUTABLE -/ ⟨0x3437, 1, 14, 8, .counter, false, .fm, 0, .any⟩,
   /- NF_COUNTERS -/ ⟨0x3440, 0, 0, 1, .const, false, .fm, 11, .any⟩,
   /- NF_DUPLICATES -/ ⟨0x3440, 1, 1, 8, .counter, false, .fm, 0, .any⟩,
   /- NF_SEQ_GAPS -/ ⟨0x3440, 2, 2, 8, .counter, false, .fm, 0, .any⟩,
   /- NF_REQ_TIMEOUTS -/ ⟨0x3440, 3, 3, 8, .counter, false, .fm, 0, .any⟩,
   /- NF_MALFORMED -/ ⟨0x3440, 4, 4, 8, .counter, false, .fm, 0, .any⟩,
   /- NF_AUTH_FAILS -/ ⟨0x3440, 5, 5, 8, .counter, false, .fm, 0, .any⟩,
   /- NF_FENCED_DROPS -/ ⟨0x3440, 6, 6, 8, .counter, false, .fm, 0, .any⟩,
   /- NF_ESC_MARKED -/ ⟨0x3440, 7, 7, 8, .counter, false, .fm, 0, .any⟩,
   /- NF_THROTTLE_EVENTS -/ ⟨0x3440, 8, 8, 8, .counter, false, .fm, 0, .any⟩,
   /- NF_SECTORS_ELIDED -/ ⟨0x3440, 9, 9, 8, .counter, false, .fm, 0, .any⟩,
   /- NF_POSTED_DROPS -/ ⟨0x3440, 10, 10, 8, .counter, false, .fm, 0, .any⟩,
   /- NF_UNROUTABLE_LOCAL -/ ⟨0x3440, 11, 11, 8, .counter, false, .fm, 0, .any⟩,
   /- NF_REORDER_HELD -/ ⟨0x3441, 0, 0, 4, .ro, false, .fm, 0, .any⟩]

/-- Rows of indices 0x3500 to 0x35FF. -/
def objRows35 : List ObjRow := [
   /- (entries) -/ ⟨0x3500, 0, 0, 1, .const, false, .fm, 14, .any⟩,
   /- SCH_PANIC_RAISED -/ ⟨0x3500, 1, 14, 8, .counter, false, .fm, 0, .any⟩,
   /- (entries) -/ ⟨0x3501, 0, 0, 1, .const, false, .fm, 14, .any⟩,
   /- SCH_PANIC_STATE -/ ⟨0x3501, 1, 14, 1, .ro, false, .fm, 0, .any⟩,
   /- SCH_MODULE_COUNTERS -/ ⟨0x3502, 0, 0, 1, .const, false, .fm, 3, .any⟩,
   /- SCH_MOD_SERVED -/ ⟨0x3502, 1, 1, 8, .counter, false, .fm, 0, .any⟩,
   /- SCH_MOD_DELAYED -/ ⟨0x3502, 2, 2, 8, .counter, false, .fm, 0, .any⟩,
   /- SCH_MOD_REFUSED -/ ⟨0x3502, 3, 3, 8, .counter, false, .fm, 0, .any⟩]

/-- Rows of indices 0x3600 to 0x36FF. -/
def objRows36 : List ObjRow := [
   /- (entries) -/ ⟨0x3600, 0, 0, 1, .const, false, .fm, 64, .any⟩,
   /- TILE_RING -/ ⟨0x3600, 1, 64, 1, .ro, false, .fm, 0, .any⟩,
   /- (entries) -/ ⟨0x3601, 0, 0, 1, .const, false, .fm, 64, .any⟩,
   /- TILE_STATE -/ ⟨0x3601, 1, 64, 1, .ro, false, .fm, 3, .any⟩,
   /- (entries) -/ ⟨0x3602, 0, 0, 1, .const, false, .fm, 64, .any⟩,
   /- TILE_PHYS -/ ⟨0x3602, 1, 64, 1, .ro, false, .fm, 0, .any⟩,
   /- PM_LOAD_ID -/ ⟨0x3610, 0, 0, 1, .const, false, .fm, 64, .any⟩,
   /- PM_LOAD_ID -/ ⟨0x3610, 1, 64, 2, .ro, false, .fm, 0, .any⟩,
   /- TCOH_COUNTERS -/ ⟨0x3620, 0, 0, 1, .const, false, .fm, 7, .any⟩,
   /- TCOH_SNOOPS -/ ⟨0x3620, 1, 1, 8, .counter, false, .fm, 0, .any⟩,
   /- TCOH_FILTER_RECALLS -/ ⟨0x3620, 2, 2, 8, .counter, false, .fm, 0, .any⟩,
   /- TCOH_STALE_PUTS -/ ⟨0x3620, 3, 3, 8, .counter, false, .fm, 0, .any⟩,
   /- TCOH_CACHE_DATA_CE -/ ⟨0x3620, 4, 4, 8, .counter, false, .fm, 0, .any⟩,
   /- TCOH_CACHE_DATA_UE -/ ⟨0x3620, 5, 5, 8, .counter, false, .fm, 0, .any⟩,
   /- TCOH_DOMAIN_RESETS -/ ⟨0x3620, 6, 6, 8, .counterRws, false, .fm, 0, .any⟩,
   /- TCOH_LINES_POISONED -/ ⟨0x3620, 7, 7, 8, .counterRws, false, .fm, 0, .any⟩,
   /- TCOH_LAST_FAILURE -/ ⟨0x3621, 0, 0, 16, .ro, false, .fm, 0, .any⟩]

/-- Rows of indices 0x3700 to 0x37FF. -/
def objRows37 : List ObjRow := [
   /- SYNC_COUNTERS -/ ⟨0x3700, 0, 0, 1, .const, false, .fm, 4, .any⟩,
   /- SYNC_OPS -/ ⟨0x3700, 1, 1, 8, .counter, false, .fm, 0, .any⟩,
   /- SYNC_PARKED_HITS -/ ⟨0x3700, 2, 2, 8, .counter, false, .fm, 0, .any⟩,
   /- SYNC_ABANDONED -/ ⟨0x3700, 3, 3, 8, .counter, false, .fm, 0, .any⟩,
   /- SYNC_FENCED_DROPS -/ ⟨0x3700, 4, 4, 8, .counter, false, .fm, 0, .any⟩,
   /- SYNC_WAITING -/ ⟨0x3701, 0, 0, 2, .ro, false, .fm, 0, .any⟩]

/-- Rows of indices 0x3800 to 0x38FF. -/
def objRows38 : List ObjRow := [
   /- (entries) -/ ⟨0x3800, 0, 0, 1, .const, false, .fm, 2, .any⟩,
   /- ROLE_STATE -/ ⟨0x3800, 1, 2, 1, .ro, false, .fm, 6, .any⟩,
   /- LEASE_STATUS -/ ⟨0x3801, 0, 0, 8, .ro, false, .fm, 0, .any⟩,
   /- MIRROR_STATUS -/ ⟨0x3802, 0, 0, 8, .ro, false, .fm, 0, .any⟩,
   /- RED_COUNTERS -/ ⟨0x3803, 0, 0, 1, .const, false, .fm, 5, .any⟩,
   /- RED_DEMOTIONS -/ ⟨0x3803, 1, 1, 8, .counterRws, false, .fm, 0, .any⟩,
   /- RED_TAKEOVERS -/ ⟨0x3803, 2, 2, 8, .counterRws, false, .fm, 0, .any⟩,
   /- RED_DIVERGENCE -/ ⟨0x3803, 3, 3, 8, .counterRws, false, .fm, 0, .any⟩,
   /- RED_PHASE_FAILS -/ ⟨0x3803, 4, 4, 8, .counterRws, false, .fm, 0, .any⟩,
   /- RED_THROTTLED_CYCLES -/ ⟨0x3803, 5, 5, 8, .counterRws, false, .fm, 0, .any⟩,
   /- SPARE_TILES_FREE -/ ⟨0x3804, 0, 0, 1, .ro, false, .fm, 4, .any⟩,
   /- DIVERGENCE_LAST -/ ⟨0x3805, 0, 0, 128, .ro, false, .fm, 0, .any⟩]

/-- Rows of indices 0x3900 to 0x39FF. -/
def objRows39 : List ObjRow := [
   /- FENCE_COUNTERS -/ ⟨0x3900, 0, 0, 1, .const, false, .fm, 5, .any⟩,
   /- FENCE_PARTITION -/ ⟨0x3900, 1, 1, 8, .counterRws, false, .fm, 0, .any⟩,
   /- FENCE_BUDGET_EXPIRED -/ ⟨0x3900, 2, 2, 8, .counter, false, .fm, 0, .any⟩,
   /- FENCE_ABANDONED -/ ⟨0x3900, 3, 3, 8, .counter, false, .fm, 0, .any⟩,
   /- FENCE_HEARTBEAT_LOSS -/ ⟨0x3900, 4, 4, 8, .counterRws, false, .fm, 0, .any⟩,
   /- FENCE_PORT_STARVED -/ ⟨0x3900, 5, 5, 8, .counter, false, .fm, 0, .any⟩,
   /- FENCE_LAST -/ ⟨0x3901, 0, 0, 16, .ro, false, .fm, 0, .any⟩]

/-- Rows of indices 0x3A00 to 0x3AFF. -/
def objRows3A : List ObjRow := [
   /- BRINGUP_STATUS -/ ⟨0x3A00, 0, 0, 4, .ro, false, .fm, 0, .any⟩,
   /- DISCOVERED_TOPOLOGY -/ ⟨0x3A01, 0, 0, 120, .ro, false, .fm, 0, .any⟩,
   /- START_COUNTERS -/ ⟨0x3A02, 0, 0, 1, .const, false, .fm, 3, .any⟩,
   /- COLD_STARTS -/ ⟨0x3A02, 1, 1, 8, .counterRws, false, .fm, 0, .any⟩,
   /- WARM_STARTS -/ ⟨0x3A02, 2, 2, 8, .counterRws, false, .fm, 0, .any⟩,
   /- FW_REJECTS -/ ⟨0x3A02, 3, 3, 8, .counter, false, .fm, 0, .any⟩]

/-- Rows of indices 0x3B00 to 0x3BFF. -/
def objRows3B : List ObjRow := [
   /- POWERED_TIME -/ ⟨0x3B00, 0, 0, 8, .ro, false, .fm, 0, .any⟩,
   /- SERVICE_HOURS -/ ⟨0x3B01, 0, 0, 4, .ro, false, .fm, 0, .any⟩,
   /- MGMT_COUNTERS -/ ⟨0x3B02, 0, 0, 1, .const, false, .fm, 3, .any⟩,
   /- MGMT_AUTH_DROPS -/ ⟨0x3B02, 1, 1, 8, .counter, false, .fm, 0, .any⟩,
   /- MGMT_EVENTS_LOST -/ ⟨0x3B02, 2, 2, 8, .counterRws, false, .fm, 0, .any⟩,
   /- LOVAGE_DROPPED -/ ⟨0x3B02, 3, 3, 8, .counterRws, false, .fm, 0, .any⟩]

/-- Rows of indices 0x4000 to 0x40FF. -/
def objRows40 : List ObjRow := [
   /- PWR_UV_QUAL_US -/ ⟨0x4000, 0, 0, 2, .rws, true, .fm, 500, (.range 100 1000)⟩,
   /- THERMAL_WARN_C -/ ⟨0x4001, 0, 0, 1, .rws, true, .fm, 104, (.range 80 105)⟩]

/-- Rows of indices 0x4100 to 0x41FF. -/
def objRows41 : List ObjRow := [
   /- XL_OPERAND_EXTENT_LIMIT -/ ⟨0x4110, 0, 0, 4, .rw, true, .fm, 0x10000, (.range 16 65536)⟩,
   /- KEY_ROLL_US -/ ⟨0x4120, 0, 0, 4, .rws, true, .fm, 0xFA0, (.range 1000 40000)⟩]

/-- Rows of indices 0x4200 to 0x42FF. -/
def objRows42 : List ObjRow := [
   /- BI_TIMEOUT_US -/ ⟨0x4200, 0, 0, 4, .rw, true, .fm, 0xFA0, (.range 500 16000)⟩,
   /- DEAD_SWEEP_RATE_GBPS -/ ⟨0x4201, 0, 0, 2, .rw, true, .fm, 32, (.range 4 256)⟩]

/-- Rows of indices 0x4300 to 0x43FF. -/
def objRows43 : List ObjRow := [
   /- MEM_DATA_RATE_MTS -/ ⟨0x4300, 0, 0, 2, .rws, true, .fm, 0x2580, (.oneOf [6400, 7500, 8533, 9600])⟩,
   /- MEM_TRAIN_FORCE -/ ⟨0x4301, 0, 0, 1, .rw, true, .fm, 0, (.range 0 1)⟩,
   /- (entries) -/ ⟨0x4310, 0, 0, 1, .const, true, .fm, 8, .any⟩,
   /- MEM_ELASTIC_LIMIT -/ ⟨0x4310, 1, 8, 1, .rws, true, .fm, 8, (.range 1 8)⟩,
   /- MEM_SCRUB_PERIOD_H -/ ⟨0x4320, 0, 0, 2, .rws, true, .fm, 24, (.range 1 168)⟩,
   /- CHK_CMD -/ ⟨0x4330, 0, 0, 80, .wo, true, .fmMon, 0, .any⟩,
   /- CHK_RESULT -/ ⟨0x4331, 0, 0, 80, .ro, true, .fm, 0, .any⟩,
   /- RAW_WORD -/ ⟨0x4332, 0, 0, 4, .rw, true, .fm, 0, .any⟩,
   /- MEM_EVAC_RATE_GBPS -/ ⟨0x4340, 0, 0, 2, .rws, true, .fm, 20, (.range 4 72)⟩,
   /- MEM_REMAP_CE_THRESHOLD -/ ⟨0x4341, 0, 0, 2, .rws, true, .fm, 16, (.range 2 1024)⟩]

/-- Rows of indices 0x4400 to 0x44FF. -/
def objRows44 : List ObjRow := [
   /- NL_EYE_SCAN_CMD -/ ⟨0x4400, 0, 0, 4, .wo, true, .fmMon, 0, .any⟩,
   /- NL_EYE_RESULT -/ ⟨0x4401, 0, 0, 520, .ro, true, .fm, 0, .any⟩,
   /- NL_EYE_SCAN_PERIOD_S -/ ⟨0x4402, 0, 0, 2, .rws, true, .fm, 60, (.range 10 3600)⟩,
   /- NL_SPARE_MARGIN -/ ⟨0x4403, 0, 0, 1, .rws, true, .fm, 16, (.range 4 48)⟩,
   /- NL_LANE_CE_LIMIT -/ ⟨0x4404, 0, 0, 4, .rws, true, .fm, 0x1000, (.range 64 65536)⟩,
   /- (entries) -/ ⟨0x4405, 0, 0, 1, .const, true, .fm, 15, .any⟩,
   /- NL_TX_PRESET_FORCE -/ ⟨0x4405, 1, 15, 1, .rws, true, .fm, 255, (.rangeOr 0 7 255)⟩,
   /- (entries) -/ ⟨0x4406, 0, 0, 1, .const, true, .fm, 15, .any⟩,
   /- NL_FAR_LOOP_ACCEPT -/ ⟨0x4406, 1, 15, 1, .rws, true, .fm, 0, (.range 0 1)⟩,
   /- NL_LOOPBACK_CMD -/ ⟨0x4407, 0, 0, 8, .wo, true, .fmMon, 0, .any⟩,
   /- NL_REPLAY_TIMER_NS -/ ⟨0x4410, 0, 0, 2, .rws, true, .fm, 0x7D0, (.range 500 10000)⟩,
   /- NL_REPLAY_LIMIT -/ ⟨0x4411, 0, 0, 1, .rws, true, .fm, 4, (.range 1 16)⟩,
   /- NF_ESC_WAIT_NS -/ ⟨0x4420, 0, 0, 2, .rws, true, .fm, 0x3E8, (.range 100 10000)⟩,
   /- NF_ESC_RESERVE -/ ⟨0x4421, 0, 0, 1, .rws, true, .fm, 16, (.range 4 64)⟩,
   /- NF_REORDER_TIMEOUT_US -/ ⟨0x4422, 0, 0, 2, .rws, true, .fm, 0x3E8, (.range 100 10000)⟩,
   /- NF_REQ_TIMEOUT_US -/ ⟨0x4423, 0, 0, 2, .rws, true, .fm, 0x7D0, (.range 200 20000)⟩,
   /- NF_THROTTLE_HIGH -/ ⟨0x4424, 0, 0, 1, .rws, true, .fm, 192, (.range 64 255)⟩,
   /- NF_THROTTLE_LOW -/ ⟨0x4425, 0, 0, 1, .rws, true, .fm, 128, (.range 16 254)⟩]

/-- Rows of indices 0x4500 to 0x45FF. -/
def objRows45 : List ObjRow := [
   /- (entries) -/ ⟨0x4500, 0, 0, 1, .const, true, .fm, 64, .any⟩,
   /- SCH_SUB_SHAPE -/ ⟨0x4500, 1, 64, 24, .rws, true, .fm, 0, .any⟩,
   /- (entries) -/ ⟨0x4501, 0, 0, 1, .const, true, .fm, 64, .any⟩,
   /- SCH_SVC_SHAPE -/ ⟨0x4501, 1, 64, 96, .rws, true, .fm, 0, .any⟩,
   /- SCH_LEAF_LIMIT -/ ⟨0x4502, 0, 0, 2, .rws, true, .fm, 32, (.range 4 512)⟩,
   /- SCH_SUB_LIMIT -/ ⟨0x4503, 0, 0, 2, .rws, true, .fm, 128, (.range 8 1024)⟩,
   /- SCH_PANIC_LOW -/ ⟨0x4504, 0, 0, 1, .rws, true, .fm, 16, (.range 1 254)⟩,
   /- SCH_PANIC_HIGH -/ ⟨0x4505, 0, 0, 1, .rws, true, .fm, 48, (.range 1 255)⟩]

/-- Rows of indices 0x4600 to 0x46FF. -/
def objRows46 : List ObjRow := [
   /- JOB_BUDGET_DEFAULT_MS -/ ⟨0x4600, 0, 0, 4, .rws, true, .fm, 100, (.range 1 10000)⟩,
   /- ATT_MIN_MARGIN -/ ⟨0x4610, 0, 0, 1, .const, true, .fm, 64, .any⟩,
   /- ATT_MIN_MARGIN -/ ⟨0x4610, 1, 64, 1, .rws, true, .fm, 0, (.range 0 255)⟩,
   /- (entries) -/ ⟨0x4620, 0, 0, 1, .const, true, .fm, 64, .any⟩,
   /- EXP_GROUP_LIMIT -/ ⟨0x4620, 1, 64, 1, .rws, true, .fm, 8, (.range 1 64)⟩,
   /- PROG_STREAM_LIMIT -/ ⟨0x4630, 0, 0, 1, .const, true, .fm, 64, .any⟩,
   /- PROG_STREAM_LIMIT -/ ⟨0x4630, 1, 64, 1, .rws, true, .fm, 16, (.range 1 16)⟩,
   /- SNOOP_TIMEOUT_US -/ ⟨0x4640, 0, 0, 2, .rws, true, .fm, 20, (.range 5 1000)⟩]

/-- Rows of indices 0x4700 to 0x47FF. -/
def objRows47 : List ObjRow := [
   /- BACKOFF_UNIT_NS -/ ⟨0x4700, 0, 0, 2, .rws, true, .fm, 250, (.range 50 10000)⟩,
   /- (entries) -/ ⟨0x4701, 0, 0, 1, .const, true, .fm, 64, .any⟩,
   /- SYNC_WAIT_LIMIT -/ ⟨0x4701, 1, 64, 2, .rws, true, .fm, 512, (.range 0 32768)⟩]

/-- Rows of indices 0x4800 to 0x48FF. -/
def objRows48 : List ObjRow := [
   /- LEASE_RENEW_US -/ ⟨0x4800, 0, 0, 2, .rws, true, .fm, 0x9C4, (.range 500 5000)⟩,
   /- COMMIT_CYCLE_US -/ ⟨0x4801, 0, 0, 2, .rws, true, .fm, 250, (.range 100 1000)⟩]

/-- Rows of indices 0x4900 to 0x49FF. -/
def objRows49 : List ObjRow := [
   /- FENCE_DRAIN_BUDGET_US -/ ⟨0x4900, 0, 0, 4, .rws, true, .fm, 0x7D0, (.range 100 100000)⟩,
   /- TILE_HEARTBEAT_US -/ ⟨0x4901, 0, 0, 2, .rws, true, .fm, 50, (.range 20 1000)⟩,
   /- PORT_STARVE_US -/ ⟨0x4902, 0, 0, 4, .rws, true, .fm, 0x1388, (.range 500 100000)⟩]

/-- Rows of indices 0x4A00 to 0x4AFF. -/
def objRows4A : List ObjRow := [
   /- FW_ROLLBACK_COMMIT -/ ⟨0x4A00, 0, 0, 1, .wo, true, .fm, 0, .any⟩,
   /- TOPO_WAIT_MS -/ ⟨0x4A01, 0, 0, 2, .rws, true, .fm, 100, (.range 10 10000)⟩]

/-- Rows of indices 0x4B00 to 0x4BFF. -/
def objRows4B : List ObjRow := [
   /- EXPERT_UNLOCK_S -/ ⟨0x4B00, 0, 0, 2, .rws, true, .fm, 600, (.range 10 3600)⟩]

/-- Rows of indices 0x6100 to 0x61FF. -/
def objRows61 : List ObjRow := [
   /- PT_ROOT -/ ⟨0x6100, 0, 0, 8, .rw, false, .fmPd, 0, .any⟩,
   /- OWN_ENDPOINT -/ ⟨0x6101, 0, 0, 1, .ro, false, .fmPd, 0, .any⟩,
   /- ENDPOINT_GRANT -/ ⟨0x6102, 0, 0, 32, .ro, false, .fmPd, 0, .any⟩,
   /- PT_FAULT_LAST -/ ⟨0x6103, 0, 0, 8, .ro, false, .fmPd, 0, .any⟩,
   /- XL_COUNTERS -/ ⟨0x6110, 0, 0, 1, .const, false, .fmPd, 5, .any⟩,
   /- XL_WALKS -/ ⟨0x6110, 1, 1, 8, .counter, false, .fmPd, 0, .any⟩,
   /- XL_ERR_TRANSLATE -/ ⟨0x6110, 2, 2, 8, .counter, false, .fmPd, 0, .any⟩,
   /- XL_ERR_PERMISSION -/ ⟨0x6110, 3, 3, 8, .counter, false, .fmPd, 0, .any⟩,
   /- XL_DI_DONE -/ ⟨0x6110, 4, 4, 8, .counter, false, .fmPd, 0, .any⟩,
   /- PT_COMPLETION_LOST -/ ⟨0x6110, 5, 5, 8, .counter, false, .fmPd, 0, .any⟩,
   /- SEC_COUNTERS -/ ⟨0x6120, 0, 0, 1, .const, false, .fmPd, 3, .any⟩,
   /- SEC_AUTH_FAILS -/ ⟨0x6120, 1, 1, 8, .counter, false, .fmPd, 0, .any⟩,
   /- SEC_KEY_COMMANDS -/ ⟨0x6120, 2, 2, 8, .counter, false, .fmPd, 0, .any⟩,
   /- SEC_BLOBS_OPENED -/ ⟨0x6120, 3, 3, 8, .counter, false, .fmPd, 0, .any⟩]

/-- Rows of indices 0x6500 to 0x65FF. -/
def objRows65 : List ObjRow := [
   /- SCH_SVC_WEIGHT -/ ⟨0x6500, 0, 0, 1, .const, false, .fmPd, 4, .any⟩,
   /- SCH_SVC_WEIGHT -/ ⟨0x6500, 1, 4, 1, .rw, false, .fmPd, 16, (.range 1 255)⟩,
   /- SCH_PART_COUNTERS -/ ⟨0x6510, 0, 0, 1, .const, false, .fmPd, 8, .any⟩,
   /- SCH_SERVED_MIN -/ ⟨0x6510, 1, 1, 8, .counter, false, .fmPd, 0, .any⟩,
   /- SCH_SERVED_WEIGHT -/ ⟨0x6510, 2, 2, 8, .counter, false, .fmPd, 0, .any⟩,
   /- SCH_DELAY_SUB -/ ⟨0x6510, 3, 3, 8, .counter, false, .fmPd, 0, .any⟩,
   /- SCH_DELAY_SVC -/ ⟨0x6510, 4, 4, 8, .counter, false, .fmPd, 0, .any⟩,
   /- SCH_DELAY_THROTTLE -/ ⟨0x6510, 5, 5, 8, .counter, false, .fmPd, 0, .any⟩,
   /- SCH_REFUSE_PORT -/ ⟨0x6510, 6, 6, 8, .counter, false, .fmPd, 0, .any⟩,
   /- SCH_REFUSE_SUB -/ ⟨0x6510, 7, 7, 8, .counter, false, .fmPd, 0, .any⟩,
   /- SCH_REFUSE_LEAF -/ ⟨0x6510, 8, 8, 8, .counter, false, .fmPd, 0, .any⟩,
   /- SCH_LAST_REFUSAL -/ ⟨0x6511, 0, 0, 8, .ro, false, .fmPd, 0, .any⟩]

/-- Rows of indices 0x6600 to 0x66FF. -/
def objRows66 : List ObjRow := [
   /- JOB_COUNTERS -/ ⟨0x6600, 0, 0, 1, .const, false, .fmPd, 5, .any⟩,
   /- JOBS_SEALED -/ ⟨0x6600, 1, 1, 8, .counter, false, .fmPd, 0, .any⟩,
   /- JOBS_RETIRED -/ ⟨0x6600, 2, 2, 8, .counter, false, .fmPd, 0, .any⟩,
   /- JOBS_ERROR -/ ⟨0x6600, 3, 3, 8, .counter, false, .fmPd, 0, .any⟩,
   /- RECORDS_HELD -/ ⟨0x6600, 4, 4, 8, .counter, false, .fmPd, 0, .any⟩,
   /- IRQ_UNDELIVERED -/ ⟨0x6600, 5, 5, 8, .counter, false, .fmPd, 0, .any⟩,
   /- ATTEND_COUNTERS -/ ⟨0x6610, 0, 0, 1, .const, false, .fmPd, 4, .any⟩,
   /- ATT_PAGES_READ -/ ⟨0x6610, 1, 1, 8, .counter, false, .fmPd, 0, .any⟩,
   /- ATT_PAGES_SKIPPED -/ ⟨0x6610, 2, 2, 8, .counter, false, .fmPd, 0, .any⟩,
   /- ATT_UNSUMMARISED -/ ⟨0x6610, 3, 3, 8, .counter, false, .fmPd, 0, .any⟩,
   /- KV_SUMMARIES_WRITTEN -/ ⟨0x6610, 4, 4, 8, .counter, false, .fmPd, 0, .any⟩,
   /- UPDATE_COUNTERS -/ ⟨0x6620, 0, 0, 1, .const, false, .fmPd, 7, .any⟩,
   /- OPT_ROWS_STEPPED -/ ⟨0x6620, 1, 1, 8, .counter, false, .fmPd, 0, .any⟩,
   /- OPT_ROWS_NONFINITE -/ ⟨0x6620, 2, 2, 8, .counter, false, .fmPd, 0, .any⟩,
   /- GATHER_ROWS -/ ⟨0x6620, 3, 3, 8, .counter, false, .fmPd, 0, .any⟩,
   /- SCATTER_INDICES -/ ⟨0x6620, 4, 4, 8, .counter, false, .fmPd, 0, .any⟩,
   /- EXP_JOBS -/ ⟨0x6620, 5, 5, 8, .counter, false, .fmPd, 0, .any⟩,
   /- EXP_JOINED -/ ⟨0x6620, 6, 6, 8, .counter, false, .fmPd, 0, .any⟩,
   /- MCAST_SKIPPED -/ ⟨0x6620, 7, 7, 8, .counter, false, .fmPd, 0, .any⟩,
   /- PROG_COUNTERS -/ ⟨0x6630, 0, 0, 1, .const, false, .fmPd, 4, .any⟩,
   /- PROG_LOADS -/ ⟨0x6630, 1, 1, 8, .counter, false, .fmPd, 0, .any⟩,
   /- PROG_RUNS -/ ⟨0x6630, 2, 2, 8, .counter, false, .fmPd, 0, .any⟩,
   /- PROG_FAULTS -/ ⟨0x6630, 3, 3, 8, .counter, false, .fmPd, 0, .any⟩,
   /- PROG_STREAM_BYTES -/ ⟨0x6630, 4, 4, 8, .counter, false, .fmPd, 0, .any⟩]

/-- Rows of indices 0x6700 to 0x67FF. -/
def objRows67 : List ObjRow := [
   /- SYNC_PART_COUNTERS -/ ⟨0x6700, 0, 0, 1, .const, false, .fmPd, 3, .any⟩,
   /- SYNC_PART_OPS -/ ⟨0x6700, 1, 1, 8, .counter, false, .fmPd, 0, .any⟩,
   /- SYNC_BACKOFFS -/ ⟨0x6700, 2, 2, 8, .counter, false, .fmPd, 0, .any⟩,
   /- SYNC_WITHDRAWN -/ ⟨0x6700, 3, 3, 8, .counter, false, .fmPd, 0, .any⟩,
   /- SYNC_RANGE_OWN -/ ⟨0x6701, 0, 0, 8, .ro, false, .fmPd, 0, .any⟩]

/-- Rows of indices 0x6900 to 0x69FF. -/
def objRows69 : List ObjRow := [
   /- PART_SELF_RESET -/ ⟨0x6900, 0, 0, 1, .wo, false, .pd, 0, .any⟩,
   /- PART_RESET_STATUS -/ ⟨0x6901, 0, 0, 8, .ro, false, .fmPd, 0, .any⟩,
   /- PART_FENCE_COUNTERS -/ ⟨0x6902, 0, 0, 1, .const, false, .fmPd, 2, .any⟩,
   /- PART_RESETS -/ ⟨0x6902, 1, 1, 8, .counter, false, .fmPd, 0, .any⟩,
   /- CTX_STALE_DROPS -/ ⟨0x6902, 2, 2, 8, .counter, false, .fmPd, 0, .any⟩]

/-- Rows of indices 0x7000 to 0x70FF. -/
def objRows70 : List ObjRow := [
   /- ATTESTATION_PUBKEY -/ ⟨0x7000, 0, 0, 97, .const, false, .fm, 0, .any⟩,
   /- ATTESTATION_ENDORSEMENT -/ ⟨0x7001, 0, 0, 96, .const, false, .fm, 0, .any⟩,
   /- KA_PUBKEY -/ ⟨0x7002, 0, 0, 97, .const, false, .fm, 0, .any⟩,
   /- ATTESTATION_REQUEST -/ ⟨0x7010, 0, 0, 36, .wo, false, .fmPd, 0, .any⟩,
   /- ATTESTATION_REPORT -/ ⟨0x7011, 0, 0, 448, .ro, false, .fm, 0, .any⟩,
   /- KEY_SLOT_CMD -/ ⟨0x7020, 0, 0, 176, .wo, false, .fmPd, 0, .any⟩,
   /- KEY_SLOT_STATUS -/ ⟨0x7021, 0, 0, 4, .ro, false, .fm, 0, .any⟩,
   /- KEY_SLOT_TABLE -/ ⟨0x7022, 0, 0, 1024, .ro, false, .fm, 0, .any⟩,
   /- BLOB_UNWRAP_CMD -/ ⟨0x7030, 0, 0, 32, .wo, false, .fmPd, 0, .any⟩,
   /- BLOB_UNWRAP_STATUS -/ ⟨0x7031, 0, 0, 4, .ro, false, .fm, 0, .any⟩,
   /- DEBUG_ENABLE -/ ⟨0x7040, 0, 0, 1, .rws, true, .fm, 0, (.range 0 2)⟩,
   /- DEBUG_STATE -/ ⟨0x7041, 0, 0, 1, .ro, false, .fm, 0, .any⟩,
   /- FM_KEY_CMD -/ ⟨0x7050, 0, 0, 176, .wo, false, .any, 0, .any⟩,
   /- FM_KEY_STATE -/ ⟨0x7051, 0, 0, 1, .ro, false, .fm, 0, .any⟩]

/-- Rows of indices 0x8000 to 0x80FF. -/
def objRows80 : List ObjRow := [
   /- LOVAGE_CONTROL -/ ⟨0x8000, 0, 0, 8, .wo, false, .fmMon, 0, .any⟩,
   /- LOVAGE_RESULT -/ ⟨0x8001, 0, 0, 1056, .ro, false, .fm, 0, .any⟩,
   /- LOVAGE_STATUS -/ ⟨0x8002, 0, 0, 8, .ro, false, .fm, 0, .any⟩]

/-- Every object of the dictionary (R436). -/
def objTable : List ObjRow :=
  objRows10 ++ objRows11 ++ objRows12 ++ objRows20 ++ objRows21 ++ objRows22 ++ objRows23 ++ objRows24 ++ objRows25 ++ objRows26 ++ objRows27 ++ objRows28 ++ objRows29 ++ objRows2A ++ objRows2B ++
  objRows30 ++
  objRows31 ++
  objRows32 ++
  objRows33 ++
  objRows34 ++
  objRows34b ++
  objRows35 ++
  objRows36 ++
  objRows37 ++
  objRows38 ++
  objRows39 ++
  objRows3A ++
  objRows3B ++ objRows40 ++ objRows41 ++ objRows42 ++ objRows43 ++ objRows44 ++ objRows45 ++ objRows46 ++ objRows47 ++ objRows48 ++ objRows49 ++ objRows4A ++ objRows4B ++
  objRows61 ++
  objRows65 ++
  objRows66 ++
  objRows67 ++
  objRows69 ++ objRows70 ++ objRows80

end Sys2Proof
end

