-- ==== Sys2Proof/Machine/Ops.lean ====
section
/-!
DEFINITION. The operations every family shares: status codes, objects and counters, free values, CRC-32, Lovage
records, events, messages.
-/
namespace Sys2Proof.Machine

/-- The code of a status (Table 5-8). -/
def statusCode : Status → Nat
  | .ok => 0x00 | .partly => 0x01 | .retryShaped => 0x10 | .retryQueueFull => 0x11 | .backoff => 0x12
  | .fenced => 0x20 | .contextGone => 0x21 | .partitionReset => 0x22 | .errTranslate => 0x30
  | .errPermission => 0x31 | .errAlign => 0x32 | .errFormat => 0x33 | .errUncorrectable => 0x40
  | .errPoison => 0x41 | .errLink => 0x42 | .publishConflict => 0x50 | .errKey => 0x60 | .errInternal => 0x7F

/-- Every status, in the order of Table 5-8. -/
def allStatus : List Status :=
  [.ok, .partly, .retryShaped, .retryQueueFull, .backoff, .fenced, .contextGone, .partitionReset, .errTranslate,
   .errPermission, .errAlign, .errFormat, .errUncorrectable, .errPoison, .errLink, .publishConflict, .errKey,
   .errInternal]

/-- The status a code names; a code Table 5-8 does not list reads as ERR_INTERNAL. -/
def statusOf (c : Nat) : Status := (allStatus.find? (fun st => statusCode st == c)).getD .errInternal

/-! ## Messages and free values -/

/-- Send a message. -/
def send (m : Msg) (s : State) : State := { s with outbox := s.outbox ++ [m] }

/-- Take the next free value (log entry 11). -/
def takeFree (s : State) : BitVec 64 × State := (Config.freeValue s.fresh, { s with fresh := s.fresh + 1 })

/-! ## CRC-32 (R287) -/

/-- One bit of the reflected CRC. -/
def crcBit (c : BitVec 32) : BitVec 32 := if c.getLsbD 0 then (c >>> 1) ^^^ 0xEDB88320#32 else c >>> 1

/-- One byte of the reflected CRC. -/
def crcByte (c : BitVec 32) (b : Byte) : BitVec 32 :=
  crcBit (crcBit (crcBit (crcBit (crcBit (crcBit (crcBit (crcBit (c ^^^ b.setWidth 32))))))))

/-- The IEEE 802.3 CRC-32 of a byte string. -/
def crc32 (bs : Bytes) : Nat := (bs.foldl crcByte 0xFFFFFFFF#32 ^^^ 0xFFFFFFFF#32).toNat

/-! ## Objects (R10, R14-R16, R437, R438) -/

/-- The key of an object: the partition for an index of the 0x6000 window (R439), the index, the sub-index. -/
def objKey (part index sub : Nat) : Nat :=
  (if decide (0x6000 ≤ index) && decide (index < 0x7000) then part * 2 ^ 24 else 0) + index * 256 + sub

/-- The dictionary's row of an index and sub-index (R436). -/
def objRow? (index sub : Nat) : Option ObjRow :=
  objTable.find? (fun r => r.index == index && decide (r.subLo ≤ sub) && decide (sub ≤ r.subHi))

/-- The default of an object (R438). -/
def objDefault (index sub : Nat) : Nat :=
  match objRow? index sub with
  | some r => r.default
  | none => 0

/-- The stored value of an object of a partition's window. -/
def pobj (s : State) (part index sub : Nat) : Nat :=
  (smFind? (objKey part index sub) s.objs).getD (objDefault index sub)

/-- The stored value of an object. -/
def obj (s : State) (index sub : Nat) : Nat := pobj s 0 index sub

/-- The CRC-32 of an MRAM copy of an object of `w` bytes, over its EPOCH and value (R438; log entry 114). -/
def mramCrc (w epoch value : Nat) : Nat := crc32 (leBytes 8 epoch ++ leBytes w value)

/-- The width in bytes of an object. -/
def objWidth (index sub : Nat) : Nat :=
  match objRow? index sub with
  | some r => r.width
  | none => 0

/-- A copy of an RWS object in MRAM (R438). -/
def mramCopy (part index sub : Nat) (m : SMap MramCopy) : MramCopy :=
  (smFind? (objKey part index sub) m).getD
    { epoch := 0, value := objDefault index sub, crc := mramCrc (objWidth index sub) 0 (objDefault index sub) }

/-- Commit a value of an RWS object to both of its copies, with the next EPOCH (R438). -/
def commitRws (part index sub v : Nat) (m : MramSt) : MramSt :=
  let e := (max (mramCopy part index sub m.copyA).epoch (mramCopy part index sub m.copyB).epoch + 1) % 2 ^ 64
  let c : MramCopy := { epoch := e, value := v, crc := mramCrc (objWidth index sub) e v }
  { m with copyA := smPut (objKey part index sub) c m.copyA, copyB := smPut (objKey part index sub) c m.copyB }

/-- Is an object of an access class? -/
def objIs (k : ObjKind) (index sub : Nat) : Bool :=
  match objRow? index sub with
  | some r => r.kind == k
  | none => false

/-- Set the stored value of an object of a partition's window; that of an RWS object that is no counter is committed to MRAM
at once (R438). -/
def setPobj (part index sub v : Nat) (s : State) : State :=
  { s with
    objs := smSet (objDefault index sub) (objKey part index sub) v s.objs
    mram := if objIs .rws index sub then commitRws part index sub v s.mram else s.mram }

/-- Set the stored value of an object. -/
def setObj (index sub v : Nat) (s : State) : State := setPobj 0 index sub v s

/-- The largest count of a class S counter (R15). -/
def countMax : Nat := 0xFFFFFFFFFFFF

/-- The saturation bit of a class S counter (R15). -/
def satBit : Nat := 2 ^ 63

/-- A class S counter after an increment by `n`, and whether its SAT has just become 1 (R15). -/
def counterAdd (v n : Nat) : Nat × Bool :=
  let c := v % 2 ^ 48 + n
  if c ≤ countMax then (c + (if bitOf v 63 then satBit else 0), false)
  else (countMax + satBit, !bitOf v 63)

/-! ## Counters without events, Lovage, events (R15, R426, R432) -/

/-- Add to a class S counter; answers whether it has just saturated. -/
def addCounter (part index sub n : Nat) (s : State) : Bool × State :=
  let r := counterAdd (pobj s part index sub) n
  (r.2, setPobj part index sub r.1 s)

/-- Records in one copy of the black box. -/
def lovageRing : Nat := 21760

/-- A 64-byte Lovage record (Table 20-7). -/
def lovageRecord (ptime seq code group sev : Nat) (data : Bytes) : Bytes :=
  let body := leBytes 8 ptime ++ leBytes 4 seq ++ leBytes 2 code ++ leBytes 1 group ++ leBytes 1 sev ++ slice data 0 44
  body ++ leBytes 4 (crc32 body)

/-- Write one record to copies A, B and C at the same ring position (R432); while frozen and full it is dropped and
counted in LOVAGE_DROPPED (R433). Answers whether that counter has just saturated. -/
def lovageStore (code group sev : Nat) (data : Bytes) (s : State) : Bool × State :=
  if s.lovage.frozen && decide (lovageRing ≤ s.lovage.count) then addCounter 0 0x3B02 3 1 s
  else
    let r := lovageRecord s.ptime s.lovage.seq code group sev data
    let p := s.lovage.next
    (false, { s with lovage := { s.lovage with
        a := smPut p r s.lovage.a, b := smPut p r s.lovage.b, c := smPut p r s.lovage.c,
        next := (p + 1) % lovageRing, seq := (s.lovage.seq + 1) % 2 ^ 32,
        count := min lovageRing (s.lovage.count + 1) } })

/-- DATA of a record about these contents: as they stand where the spec gives the layout (R431 for 0x0004, R104 for 0x0021),
else in a layout it leaves open (log entry 16). -/
def recordData (code : Nat) (data : Bytes) : Bytes :=
  if code = 0x0004 ∨ code = 0x0021 then data else Config.eventData code data

/-- Write the Lovage record of a code about these contents; its group and severity are open (log entry 16). Answers whether
LOVAGE_DROPPED has just saturated. -/
def lovageRecordOf (code : Nat) (data : Bytes) (s : State) : Bool × State :=
  lovageStore code ((Config.eventGroup code data).toNat % 12) (Config.eventSeverity code data).toNat (recordData code data) s

/-- The header of a WOP message, its bytes 0-27 (Table 20-4). -/
def wopHeader (type auth status ctr ptime index sub part len : Nat) : Bytes :=
  leBytes 1 1 ++ leBytes 1 type ++ leBytes 1 auth ++ leBytes 1 status ++ leBytes 8 ctr ++ leBytes 8 ptime ++
  leBytes 2 index ++ leBytes 1 sub ++ leBytes 1 part ++ leBytes 2 len ++ leBytes 2 0

/-- The GCM nonce of an authenticated WOP message (R425): direction, CTR, three zero bytes. -/
def wopNonce (dir ctr : Nat) : Bytes := leBytes 1 dir ++ leBytes 8 ctr ++ zeros 3

/-- The WOP message the module sends with its next CTR: authenticated under the FM key once it is claimed (R425),
carrying PTIME (R430). -/
def wopMsg (type status index sub part : Nat) (data : Bytes) (s : State) : Msg :=
  let ctr := s.mgmt.ctr + 1
  match s.mram.fmKey with
  | none => .wop type status ctr s.ptime index sub part data none
  | some k =>
    let aad := wopHeader type 1 status ctr s.ptime index sub part data.length
    let ct := gcmSeal k (wopNonce 1 ctr) aad data
    .wop type status ctr s.ptime index sub part ct.1 (some ct.2)

/-- Send a WOP message. -/
def sendWop (type status index sub part : Nat) (data : Bytes) (s : State) : State :=
  let m := wopMsg type status index sub part data s
  send m { s with mgmt := { s.mgmt with ctr := s.mgmt.ctr + 1 } }

/-- Send the oldest waiting event if fewer than 8 are unacknowledged and MGMT_FM_ENDPOINT is set (R426). -/
def sendEvent (s : State) : State :=
  match s.mgmt.events with
  | [] => s
  | e :: es =>
    if decide (8 ≤ s.mgmt.unacked.length) || obj s 0x2B01 0 == 0 then s
    else
      let s1 := sendWop 0x04 0 e.code 0 0xFF e.data s
      { s1 with mgmt := { s1.mgmt with
          events := es, unacked := s1.mgmt.unacked ++ [{ e with ctr := s1.mgmt.ctr }] } }

/-- Queue one event: into a queue with room, or dropped and counted (R426). Answers whether MGMT_EVENTS_LOST has just
saturated. -/
def queueEvent (code : Nat) (data : Bytes) (s : State) : Bool × State :=
  if decide (256 ≤ s.mgmt.events.length) then
    let r := addCounter 0 0x3B02 2 1 s
    (r.1, { r.2 with mgmt := { r.2.mgmt with lost := r.2.mgmt.lost + 1 } })
  else
    (false, sendEvent { s with mgmt := { s.mgmt with
      events := s.mgmt.events ++ [{ code := code, ptime := s.ptime, data := slice data 0 44, ctr := 0 }] } })

/-- DATA bytes 0-2 of a saturation event: the index.sub of the counter (R431). -/
def saturationData (index sub : Nat) : Bytes := leBytes 2 index ++ leBytes 1 sub

/-- A Lovage record and a place in the event queue with the same DATA (R426). Answers whether LOVAGE_DROPPED and whether
MGMT_EVENTS_LOST has just saturated. -/
def raiseOnce (code : Nat) (data : Bytes) (s : State) : Bool × Bool × State :=
  let r := lovageRecordOf code data s
  let q := queueEvent code (recordData code data) r.2
  (r.1, q.1, q.2)

/-- Raise an event; where dropping its record or the event saturates a counter, that counter's saturation event follows
(R15). Two levels are all there can be, since neither counter saturates twice. -/
def raiseWithin : Nat → Nat → Bytes → State → State
  | 0, code, data, s => (raiseOnce code data s).2.2
  | n + 1, code, data, s =>
    let r := raiseOnce code data s
    let s1 := if r.1 then raiseWithin n 0x0004 (saturationData 0x3B02 3) r.2.2 else r.2.2
    if r.2.1 then raiseWithin n 0x0004 (saturationData 0x3B02 2) s1 else s1

/-- Raise an event (R426). -/
def raiseEvent (code : Nat) (data : Bytes) (s : State) : State := raiseWithin 2 code data s

/-- A record that only Lovage keeps (Table 20-7); a dropped one may saturate LOVAGE_DROPPED (R15). -/
def lovageNote (code : Nat) (data : Bytes) (s : State) : State :=
  let r := lovageRecordOf code data s
  if r.1 then raiseEvent 0x0004 (saturationData 0x3B02 3) r.2 else r.2

/-- Increment a class S counter of a partition's window by `n`; the increment that saturates it raises one event with
the counter's index.sub in DATA bytes 0-2 (R15, R431). -/
def pbump (part index sub n : Nat) (s : State) : State :=
  let r := addCounter part index sub n s
  if r.1 then raiseEvent 0x0004 (saturationData index sub) r.2 else r.2

/-- Increment a class S counter. -/
def bump (index sub : Nat) (s : State) : State := pbump 0 index sub 1 s

/-! ## What the module serves (Table 18-2, R397) -/

/-- Does this module serve its own role's pool (Table 18-2; log entry 22)? -/
def servesPool (s : State) : Bool := s.buddy.own.code == 1

/-- Does a frozen record, in either of its two copies, name a block (R397; log entry 55)? -/
def frozenBlock (s : State) (block : Nat) : Bool :=
  s.buddy.frozen.any (fun e => Config.recordNames e.1 e.2.data block ||
    (match smFind? e.1 s.buddy.ownRecs with
     | some own => Config.recordNames e.1 own.data block
     | none => false))

/-- The first line of the buddy's pool, as this module numbers the lines that it keeps and serves for the buddy's role
(R80, R390): line l of that pool is line 2^34 + l here. -/
def buddyBase : Nat := 2 ^ 34

/-- Is a line one of the buddy's pool? -/
def buddyLine (line : Nat) : Bool := decide (buddyBase ≤ line)

/-- Does the module serve the block of a pool address: its role's pool, and no frozen record names the block? An address from
2^40 on is one of the buddy's pool, which the module serves once it holds the buddy's role (R80). -/
def servesBlock (s : State) (pa : Nat) : Bool :=
  if 2 ^ 40 ≤ pa then s.buddy.other.code == 1 else servesPool s && !frozenBlock s (pa / 2 ^ 28)

end Sys2Proof.Machine
end

