-- ==== Sys2Proof/Machine/Dram.lean ====
section
/-!
DEFINITION. DRAM channels and stored data (spec/04): where a line lies, its check-and-tag code, reading and writing
it, the error log, row repair and stack replacement.
-/
namespace Sys2Proof.Machine

/-! ## Where a line lies (R82, R83, R456) -/

/-- The first address of the metadata area (Table 2-1). -/
def metaBase : Nat := 0xE000000000

/-- The interleave set of a pool physical address (R82, R83). -/
def setOfPa (pa : Nat) : Nat :=
  if pa < metaBase then (pa >>> 28) % 8 else field (pa - metaBase) 18 16

/-- The set-relative offset of a pool physical address (R82, R83). -/
def setOffset (pa : Nat) : Nat :=
  if pa < metaBase then ((pa >>> 28) / 8) * 2 ^ 28 + pa % 2 ^ 28
  else 112 * 2 ^ 30 + ((field (pa - metaBase) 39 19) <<< 16) + (pa - metaBase) % 2 ^ 16

/-- CH[3:0] of a set-relative offset (R82). -/
def chOfOffset (o : Nat) : Nat := (field o 11 8 ^^^ field o 15 12) ^^^ field o 19 16

/-- CH[3:0] of an address (R82, R83). -/
def chOfPa (pa : Nat) : Nat := chOfOffset (setOffset pa)

/-- The end of a set's data space in set-relative bytes: the 16 lines of each whole group of 17 bursts, in 16 channels of
8 GiB (Table 4-1, R456). -/
def setTop : Nat := 2 ^ 27 / 17 * 16 * 64 * 16

/-- The logical stack that holds an address (R82). -/
def lstackOf (pa : Nat) : Nat := 4 * setOfPa pa + field (chOfPa pa) 3 2

/-- The channel within its stack. -/
def chanOf (pa : Nat) : Nat := field (chOfPa pa) 1 0

/-- The data burst B of a line (R456). -/
def burstOf (pa : Nat) : Nat :=
  let o := setOffset pa
  let l := (field o 39 12 <<< 2) ||| field o 7 6
  17 * (l / 16) + l % 16

def bankOf (pa : Nat) : Nat := (burstOf pa >>> 5) % 16
def rowOf (pa : Nat) : Nat := burstOf pa >>> 9
def colOf (pa : Nat) : Nat := (burstOf pa % 32) * 32

/-- The physical stack of a logical stack before any sparing (Table 4-2). -/
def builtStack (l : Nat) : Nat := if l < 28 then l else l + 1

/-- The physical stack that serves a logical stack now (R22). -/
def physStack (s : State) (l : Nat) : Nat := (smFind? l s.dram.stackMap).getD (builtStack l)

/-- The physical channel of an address. -/
def pchanOf (s : State) (pa : Nat) : Nat := 4 * physStack s (lstackOf pa) + chanOf pa

/-- A row's key: its physical channel, bank and row (R108). -/
def rowKeyOf (s : State) (pa : Nat) : Nat := (pchanOf s pa * 16 + bankOf pa) * 2 ^ 18 + rowOf pa % 2 ^ 18

/-! ## The check-and-tag code (R97, R98) -/

/-- Multiplication by alpha in GF(2^8) with 0x11D. -/
def gfX (a : Byte) : Byte := if a.getLsbD 7 then (a <<< 1) ^^^ 0x1D#8 else a <<< 1

/-- Multiplication in GF(2^8), from the bits of `b` upward. -/
def gfMulFrom (b : Byte) : Nat → Byte → Byte
  | 0, _ => 0
  | n + 1, a => (if b.getLsbD (7 - n) then a else 0) ^^^ gfMulFrom b n (gfX a)

/-- Multiplication in GF(2^8). -/
def gfMul (a b : Byte) : Byte := gfMulFrom b 8 a

/-- alpha to the power `n`. -/
def gfPow : Nat → Byte
  | 0 => 1
  | n + 1 => gfX (gfPow n)

/-- The value of a polynomial at a point, the coefficient of the highest power first. -/
def gfEval (x : Byte) (cs : List Byte) : Byte := cs.foldl (fun acc c => gfMul acc x ^^^ c) 0

/-- The three parity symbols p2, p1, p0 of a message (R97): the remainder by g(x) = x^3 + 7x^2 + 14x + 8. -/
def rsParity (msg : List Byte) : List Byte :=
  let r := msg.foldl (fun (p : Byte × Byte × Byte) m =>
    let f := m ^^^ p.1
    (p.2.1 ^^^ gfMul f 7, p.2.2 ^^^ gfMul f 14, gfMul f 8)) (0, 0, 0)
  [r.1, r.2.1, r.2.2]

/-- What a decode finds (R98). -/
inductive Decoded where
  | clean | corrected (k : Nat) (word : List Byte) | uncorrectable
deriving DecidableEq, Repr

/-- The exponent k below 68 with alpha^k * b = a, searching upward. -/
def gfLogFrom (a b : Byte) : Nat → Nat → Option Nat
  | 0, _ => none
  | n + 1, k => if gfMul (gfPow k) b = a then some k else gfLogFrom a b n (k + 1)

/-- Decode a received codeword m0..m64, p2, p1, p0 (R98). -/
def rsDecode (w : List Byte) : Decoded :=
  let s0 := gfEval 1 w
  let s1 := gfEval 2 w
  let s2 := gfEval 4 w
  if s0 = 0 ∧ s1 = 0 ∧ s2 = 0 then .clean
  else if s0 ≠ 0 ∧ s1 ≠ 0 ∧ gfMul s1 s1 = gfMul s0 s2 then
    match gfLogFrom s1 s0 68 0 with
    | some k => .corrected k (w.modify (67 - k) (· ^^^ s0))
    | none => .uncorrectable
  else .uncorrectable

/-! ## Stored bytes -/

/-- The key of stored byte `i` of a line on a physical stack: 0-63 data, 64-66 CHECK, 67 TAG (log entry 7). -/
def cellKey (pstack line i : Nat) : Nat := pstack * 2 ^ 48 + line * 128 + i

/-- The stored bytes of data and a tag, with valid check symbols (R97). -/
def encodeLine (data : Bytes) (tag : Nat) : List Byte :=
  let msg := slice data 0 64 ++ [BitVec.ofNat 8 tag]
  let p := rsParity msg
  slice data 0 64 ++ [p.getD 2 0, p.getD 1 0, p.getD 0 0, BitVec.ofNat 8 tag]

/-- What a byte that nothing has written reads as: 0 (log entry 6), or the byte of a poisoned line of zeros where a
stack stopped answering before its copy had ended (R113, R459). -/
def cellDefault (lost : SMap Nat) (key : Nat) : Byte :=
  if lost.isEmpty then 0
  else
    let line := (key % 2 ^ 48) / 128
    match smFind? (lstackOf (line * 64) * 4096 + line >>> 22) lost with
    | some ptr => if ptr ≤ setOffset (line * 64) then (encodeLine [] 0xFF).getD (key % 128) 0 else 0
    | none => 0

/-- One stored byte. -/
def cell (s : State) (key : Nat) : Byte := smGet (cellDefault s.dram.lost key) key s.dram.cells

/-- The stored bytes of a line: data, then CHECK[7:0], CHECK[15:8], CHECK[23:16], TAG. -/
def storedLine (s : State) (pstack line : Nat) : List Byte :=
  (List.range 68).map (fun i => cell s (cellKey pstack line i))

/-- Write bytes to rising keys from `key` on. -/
def putCells (lost : SMap Nat) : Nat → List Byte → List Host.Cell → List Host.Cell
  | _, [], m => m
  | key, b :: bs, m => putCells lost (key + 1) bs (smSet (cellDefault lost key) key b m)

/-- Store the 68 bytes of a line on one physical stack. -/
def storeOn (pstack line : Nat) (bs : List Byte) (s : State) : State :=
  { s with dram := { s.dram with cells := putCells s.dram.lost (cellKey pstack line 0) (bs.take 68) s.dram.cells } }

/-- The codeword of stored bytes: m0..m63, TAG, p2, p1, p0 (R97). -/
def codewordOf (st : List Byte) : List Byte :=
  st.take 64 ++ [st.getD 67 0, st.getD 66 0, st.getD 65 0, st.getD 64 0]

/-- Is a line below the copy pointer of a running evacuation of its stack? -/
def evacCopied (s : State) (line : Nat) : Option Nat :=
  match s.dram.evac with
  | some e => if lstackOf (line * 64) = e.lstack ∧ setOffset (line * 64) < e.ptr then some e.spare else none
  | none => none

/-- Store a line's bytes where its stack is, and on the spare too below the pointer of an evacuation (R112). A stack
lost without a spare keeps nothing (R85). A line of the buddy's pool goes to the copy of it. -/
def storeLine (line : Nat) (bs : List Byte) (s : State) : State :=
  if buddyLine line then { s with buddy := { s.buddy with mirror := { s.buddy.mirror with
    copy := smPut (line - buddyBase) ((bs.getD 67 0).toNat, bs.take 64) s.buddy.mirror.copy } } }
  else
    let ps := physStack s (lstackOf (line * 64))
    let s1 := if s.mram.deadStacks.contains ps then s else storeOn ps line bs s
    match evacCopied s line with
    | some sp => storeOn sp line bs s1
    | none => s1

/-- Write a line whole: data and tag with valid check bits. -/
def writeLine (line : Nat) (data : Bytes) (tag : Nat) (s : State) : State := storeLine line (encodeLine data tag) s

/-- The received codeword of a line; on a stack lost without a spare, one that decodes as uncorrectable (R79, R85). -/
def receivedLine (s : State) (line : Nat) : List Byte :=
  if buddyLine line then
    let c := (smFind? (line - buddyBase) s.buddy.mirror.copy).getD (0, [])
    codewordOf (encodeLine c.2 c.1)
  else
    let ps := physStack s (lstackOf (line * 64))
    if s.mram.deadStacks.contains ps then [1, 1] ++ List.replicate 66 0 else codewordOf (storedLine s ps line)

/-! ## Tags (Table 3-5) -/

def tagPoison (tag : Nat) : Bool := bitOf tag 7
def tagHstate (tag : Nat) : Nat := field tag 6 5
def tagHint (tag : Nat) : Nat := field tag 4 0
/-- A tag of its three fields. -/
def mkTag (poison : Bool) (hstate hint : Nat) : Nat := b2n poison * 128 + (hstate % 4) * 32 + hint % 32

/-- The data and tag of a line as a decode gives them, without write-back, logging or counting. -/
def peekLine (s : State) (line : Nat) : Option (Bytes × Nat) :=
  let w := receivedLine s line
  match rsDecode w with
  | .clean => some (w.take 64, (w.getD 64 0).toNat)
  | .corrected _ v => some (v.take 64, (v.getD 64 0).toNat)
  | .uncorrectable => none

/-- The tag the home acts on; that of a line whose decode is uncorrectable cannot be trusted, and counts as poisoned
and held by any host (R459). -/
def lineTag (s : State) (line : Nat) : Nat :=
  match peekLine s line with
  | some (_, t) => t
  | none => 0xFF

/-- A 256 MiB block's INIT bit; the metadata area counts as initialised (R105). -/
def blockInit (s : State) (pa : Nat) : Bool := if pa < metaBase then s.dram.init.getLsbD (pa >>> 28) else true

/-! ## Error log, row repair, stack replacement (R102-R113) -/

/-- The REQUESTER field (Table 4-4). -/
def requesterCode : Source → Nat
  | .host h => h % 4096
  | .tile t => 0x1000 + t % 4096
  | .endpoint e => 0x2000 + e % 4096
  | .bassoon => 0x3000
  | .scrub => 0x4000
  | .walker => 0x5000

/-- A 32-byte error log entry (Table 4-4). -/
def errorEntry (s : State) (cls pa symbol : Nat) (src : Source) : Bytes :=
  leBytes 8 s.ptime ++ leBytes 5 pa ++ leBytes 1 cls ++ leBytes 1 (lstackOf pa) ++
  leBytes 1 (physStack s (lstackOf pa)) ++ leBytes 1 (chanOf pa) ++ leBytes 1 (bankOf pa) ++
  leBytes 3 (rowOf pa % 2 ^ 18) ++ leBytes 2 (colOf pa % 1024) ++ leBytes 1 symbol ++
  leBytes 2 (requesterCode src) ++ zeros 6

/-- Log an error: into MEM_ERROR_LOG at MEM_ERROR_LOG_NEXT, and to Lovage with the DRAM_ERROR event (R104). -/
def logDramError (cls pa symbol : Nat) (src : Source) (s : State) : State :=
  let e := errorEntry s cls pa symbol src
  let n := obj s 0x3351 0
  raiseEvent 0x0021 e (setObj 0x3351 0 (n % 64 + 1) (setObj 0x3350 n (ofLe e) s))

/-- The spare a physical stack may be replaced by: its covering spare if free, else the second (Table 4-3). A stack
that is a spare itself has none. -/
def spareFor (s : State) (pstack : Nat) : Option Nat :=
  let st := obj s 0x3300 0
  let free (sp : Nat) : Bool :=
    (if sp = 28 then field st 7 0 else field st 15 8) == 0xFF && !s.mram.deadStacks.contains sp
  let first := if pstack < 16 || (decide (24 ≤ pstack) && decide (pstack < 28)) then 28 else 33
  if pstack = 28 || pstack = 33 then none
  else if free first then some first else if free (61 - first) then some (61 - first) else none

/-- Start the first replacement of a list that finds a spare; the stacks behind it wait, and those before it stay in
service (R111, R113). -/
def evacFirst : List Nat → State → State
  | [], s => { s with dram := { s.dram with evacWait := [] } }
  | l :: ls, s =>
    match spareFor s (physStack s l) with
    | some sp => { s with dram := { s.dram with evac := some { lstack := l, spare := sp, ptr := 0 }, evacWait := ls } }
    | none => evacFirst ls s

/-- Start the replacement of a logical stack: the copy begins (R112), or waits for a running one of another stack (R111);
with no spare free it does not take place (R113). -/
def evacStart (l : Nat) (s : State) : State :=
  match s.dram.evac with
  | some e => if e.lstack = l ∨ s.dram.evacWait.contains l = true then s
              else { s with dram := { s.dram with evacWait := s.dram.evacWait ++ [l] } }
  | none => evacFirst [l] s

def remap0 : RemapTable := { rows := [], epoch := 0, crc := 0 }

/-- The CRC-32 of a remap table (R109), over its epoch and its rows. -/
def remapCrc (epoch : Nat) (rows : List Nat) : Nat := crc32 (leBytes 4 epoch ++ (rows.map (leBytes 4)).flatten)

/-- The rows that a channel's remap table holds. -/
def remapRows (s : State) (pc : Nat) : List Nat := (smGet remap0 pc s.mram.remaps).rows

/-- Write a channel's remap table to MRAM with the next epoch and its CRC-32 (R109). -/
def setRemaps (pc : Nat) (rows : List Nat) (s : State) : State :=
  let e := (smGet remap0 pc s.mram.remaps).epoch + 1
  { s with mram := { s.mram with remaps := smPut pc { rows := rows, epoch := e, crc := remapCrc e rows } s.mram.remaps } }

/-- The places of a channel's remap table that are entered or taken by a row whose copy runs (R109). -/
def remapsTaken (s : State) (pc : Nat) : Nat :=
  (remapRows s pc).length + (s.dram.heldRows.filter (fun k => k / 2 ^ 22 == pc)).length

/-- A row has become a repair candidate (R108): its copy starts and its requests are held (R109), or, with the
channel's table taken up, it stays in service and is counted once in the scrub period (R110). -/
def rowCandidate (pa : Nat) (s : State) : State :=
  let k := rowKeyOf s pa
  if s.dram.heldRows.contains k || s.dram.refusedRows.contains k then s
  else if 64 ≤ remapsTaken s (pchanOf s pa) then
    bump 0x3341 (lstackOf pa + 1) { s with dram := { s.dram with refusedRows := s.dram.refusedRows ++ [k] } }
  else { s with dram := { s.dram with heldRows := s.dram.heldRows ++ [k] } }

/-- Count a corrected event in its row, which may make the row a candidate (R108). -/
def noteCorrected (pa symbol : Nat) (s : State) : State :=
  let k := rowKeyOf s pa
  let l := smGet [] k s.dram.rowCe ++ [symbol]
  let s1 := { s with dram := { s.dram with rowCe := smSet [] k l s.dram.rowCe } }
  if obj s 0x4341 0 ≤ l.length ∨ l.any (fun x => x != symbol) then rowCandidate pa s1 else s1

/-- Count an uncorrectable event outside class UNINIT: the row becomes a candidate; the 64th of the channel in the
period, or one more in a channel whose remap table is full, replaces the stack (R108, R111). -/
def noteUncorrectable (pa : Nat) (s : State) : State :=
  let pc := pchanOf s pa
  let n := smGet 0 pc s.dram.chanUe + 1
  let full : Bool := decide (64 ≤ (remapRows s pc).length)
  let s1 := rowCandidate pa { s with dram := { s.dram with chanUe := smSet 0 pc n s.dram.chanUe } }
  if n = 64 ∨ full = true then evacStart (lstackOf pa) s1 else s1

/-! ## Reading and writing lines (R79, R96, R98, R101-R103, R459) -/

/-- What a read of a line gives its requester. -/
inductive LineRead where
  | data (bs : Bytes)
  | uncorrectable
  | poisoned
deriving DecidableEq, Repr

/-- The directory vector of a line is dropped. -/
def dropVector (line : Nat) (s : State) : State :=
  { s with hosts := { s.hosts with dirCache := smErase line s.hosts.dirCache, dirOver := smErase line s.hosts.dirOver } }

/-- Set POISON on a line whose decode is uncorrectable: the whole TAG is 0xFF, and the line is counted (R459). The
data bytes are kept as received (log entry 17). -/
def poisonUnknown (line : Nat) (s : State) : State :=
  bump 0x3221 0 (dropVector line (writeLine line ((receivedLine s line).take 64) 0xFF s))

/-- Log and count an uncorrectable read or scrub of a line (R101, R103, R105). -/
def logUncorrectable (cls : Nat) (pa : Nat) (src : Source) (s : State) : State :=
  if blockInit s pa then
    noteUncorrectable pa (bump 0x3321 (lstackOf pa + 1) (logDramError cls pa 0xFF src s))
  else bump 0x3322 0 (logDramError 0x03 pa 0xFF src s)

/-- Log, count and write back a correction (R102, R105). -/
def writeBack (cls : Nat) (line k : Nat) (w : List Byte) (src : Source) (s : State) : State :=
  let s1 := writeLine line (w.take 64) (w.getD 64 0).toNat s
  noteCorrected (line * 64) k (bump 0x3320 (lstackOf (line * 64) + 1) (logDramError cls (line * 64) k src s1))

/-- Read a line (R98, R101-R103): corrected data is written back, an uncorrectable line is poisoned. The classes are
those of a requester's read, or of the scrub's. -/
def readLineAs (clsC clsU : Nat) (src : Source) (line : Nat) (s : State) : State × LineRead :=
  let w := receivedLine s line
  let answer (v : List Byte) : LineRead := if tagPoison (v.getD 64 0).toNat then .poisoned else .data (v.take 64)
  match rsDecode w with
  | .clean => (s, answer w)
  | .corrected k v => (writeBack clsC line k v src s, answer v)
  | .uncorrectable => (logUncorrectable clsU (line * 64) src (poisonUnknown line s), .uncorrectable)

/-- A requester's read of a line. -/
def readLine (src : Source) (line : Nat) (s : State) : State × LineRead := readLineAs 0x01 0x02 src line s

/-- Bytes merged into a line's data; `none` keeps the old byte. -/
def mergeBytes : Bytes → List (Option Byte) → Bytes
  | _ :: bs, some v :: vs => v :: mergeBytes bs vs
  | b :: bs, none :: vs => b :: mergeBytes bs vs
  | bs, [] => bs
  | [], _ => []

/-- Does a line's write data cover the whole line? -/
def wholeLine (d : List (Option Byte)) : Bool := decide (64 ≤ d.length) && (d.take 64).all Option.isSome

/-- A write's granule becomes INVALID in the summary-valid map (R161). -/
def invalidateGranule (line : Nat) (s : State) : State :=
  { s with dram := { s.dram with summary := smErase (line / 4) s.dram.summary } }

/-- Write a line's bytes under a new HSTATE and HINT (R96): a whole line is written without reading the old one and
clears POISON; a partial write reads, corrects, merges, and keeps POISON or, on an uncorrectable line, sets it. -/
def writeMerged (src : Source) (line : Nat) (d : List (Option Byte)) (hstate hint : Nat) (s : State) : State :=
  if wholeLine d then writeLine line (d.map (·.getD 0)) (mkTag false hstate hint) s
  else
    let w := receivedLine s line
    let put (v : List Byte) : State → State :=
      writeLine line (mergeBytes (v.take 64) d) (mkTag (tagPoison (v.getD 64 0).toNat) hstate hint)
    match rsDecode w with
    | .clean => put w s
    | .corrected k v => put v (writeBack 0x01 line k v src s)
    | .uncorrectable =>
      let s1 := bump 0x3221 0 (dropVector line (writeLine line (mergeBytes (w.take 64) d) 0xFF s))
      logUncorrectable 0x06 (line * 64) src s1

/-- A correction that a read in passing finds is written back, counted and logged (R102). -/
def correctLine (src : Source) (line : Nat) (s : State) : State :=
  match rsDecode (receivedLine s line) with
  | .corrected k v => writeBack 0x01 line k v src s
  | _ => s

/-- Rewrite only a line's tag, in a read-modify-write whose correction counts as any read's. On a line whose decode is
uncorrectable nothing is written (its tag stays unknown). -/
def setTag (src : Source) (line : Nat) (f : Nat → Nat) (s : State) : State :=
  match peekLine s line with
  | some (d, t) => if f t = t then s else writeLine line d (f t) (correctLine src line s)
  | none => s

/-- Set POISON on a line whose decode is clean or corrected, keeping HSTATE and HINT; else by R459. -/
def poisonLine (src : Source) (line : Nat) (s : State) : State :=
  match peekLine s line with
  | some (d, t) => writeLine line d (putBit t 7 true) (correctLine src line s)
  | none => poisonUnknown line s

end Sys2Proof.Machine
end

