-- ==== Sys2Proof/Machine/Parts.lean ====
section
/-!
DEFINITION. Units that are kept sparsely: the value each has before anything has changed it, its reading and its
change; statuses of partitions, tiles, routes and links as objects and structures hold them.
-/
namespace Sys2Proof.Machine

def part0 : PartSt :=
  { diBase := 0, diLength := 0, acceptCount := 0, doneCount := 0, lastToken := 0, lastRefusal := 0, di := [],
    vectors := 0, errCause := 0, msix := [], pba := 0, qFirst := 0, qCount := 0, xcache := [], walks := [], fence := none,
    ctx := [], drains := [], crossLost := 0 }
def queue0 : QueueSt :=
  { descBase := 0, compBase := 0, vector := 0, en := false, compLog2 := 0, descLog2 := 0, budgetUs := 0, tiles := 0,
    head := 0, tail := 0, ctail := 0, chead := 0, held := [], retireHeld := false, fetching := false, fetched := none,
    copied := none }
def ctx0 : CtxSt := { isOpen := false, gen := 0, closing := none }
def send0 : SendStream := { next := 0, acked := 0xFFFF, wraps := 0 }
def recv0 : RecvStream := { exp := 0, wraps := 0, held := [], unacked := 0 }
def mcRecv0 : McRecv := { recent := [], toAck := [], highest := 0, wraps := 0 }
def svc0 : SvcSt := { sv := 0, credit := 0, leaf := [] }
def sub0 : SubSt := { st := 0, mc := 0, credit := 0, svt := 0, svcs := [] }
def port0 : SchedPort := { vt := 0, subs := [], active := [], pacedOut := [], panic := false, delayed := [] }
def slot0 : KeySlot := { state := 0, part := 0, epoch := 0, current := 0, previous := 0 }
def refresh0 : RefreshSt := { panic := false, owed := 0, doubled := false, issued := 0 }
def dqs0 : DqsSt := { rd0 := 0, wr0 := 0, rd1 := 0, wr1 := 0 }
def link0 : LinkSt :=
  { state := 0, cause := 0, rerouted := false, seq := 0xFFF, ackTaken := 0xFFF, replay := [], resend := [],
    replays := 0, txRest := [], txUnit := none, initSent := 0, initSeen := false, peerSeen := false, adv := [],
    cons := [], ret := [], freed := [], crTc := 0, laneOp := 0, laneArg := 0, laneLeft := 0,
    peerOp := 0, peerArg := 0, ack := 0xFFF,
    recover := false, nakDue := false, badRun := 0, rxSlots := [] }
def cfg0 : LaneCfg :=
  { rate := 0, rxMap := [], txMap := [], rxSpare := none, txSpare := none, txPrecode := false, rxPrecode := false,
    presets := [] }
def train0 : TrainSt :=
  { order := [], polarity := 0, got := [], sent := 0, ts1Run := [], ts2Run := [], ts2Sent := 0, step := 0, part := 0,
    count := 32, peerTarget := 0, peerCount := 0, eqRun := [], want := [], eqSeen := false, ackOwn := false,
    ackPeer := false, pass := none, peerPass := none }
def lane0 : LaneSt :=
  { state := 0, cause := 0, off := true, cfg := cfg0, prev := none, train := train0, kind := 0, maxRate := 0, unit := 0,
    activeUnit := none, begun := false, txDup := none, rxReq := none, faulty := 0, goodScans := [], loop := none,
    farPeer := false, nak := false, scramble := [], last := [], rxScramble := [], rxLast := [], agreed := [], compared := 0,
    ceStart := 0, ce := [] }
def pub0 : PubPage := { region := 0, expect := 0, lastToken := 0, lastStatus := 0, busy := false }
def region0 : Region := { state := .unused, flags := 0, first := 0, blocks := 0, gen := 0, drafts := [], ops := [] }

def tile0 : TileSt :=
  { s := [], v := [], p := [], a := [], scratch := [], prog := [], pc := 0, job := none, ending := none, streams := [],
    replace := false, newOwner := none }

def getTile (s : State) (t : Nat) : TileSt := smGet tile0 t s.tiles
def updTile (t : Nat) (f : TileSt → TileSt) (s : State) : State := { s with tiles := smUpd tile0 t f s.tiles }
def getPart (s : State) (p : Nat) : PartSt := smGet part0 p s.work.parts
def updPart (p : Nat) (f : PartSt → PartSt) (s : State) : State :=
  { s with work := { s.work with parts := smUpd part0 p f s.work.parts } }
def getQueue (s : State) (q : Nat) : QueueSt := smGet queue0 q s.work.queues
def updQueue (q : Nat) (f : QueueSt → QueueSt) (s : State) : State :=
  { s with work := { s.work with queues := smUpd queue0 q f s.work.queues } }
def getJob? (s : State) (j : Nat) : Option JobSt := smFind? j s.work.jobs
def updJob (j : Nat) (f : JobSt → JobSt) (s : State) : State :=
  { s with work := { s.work with jobs := smAlter j f s.work.jobs } }
def getCtx (s : State) (p k : Nat) : CtxSt := smGet ctx0 k (getPart s p).ctx
def updCtx (p k : Nat) (f : CtxSt → CtxSt) (s : State) : State :=
  updPart p (fun x => { x with ctx := smUpd ctx0 k f x.ctx }) s
def getLink (s : State) (p : Nat) : LinkSt := smGet link0 p s.links
def updLink (p : Nat) (f : LinkSt → LinkSt) (s : State) : State := { s with links := smUpd link0 p f s.links }
def getLane (s : State) (port : Nat) : LaneSt := smGet lane0 port s.lanes
def updLane (port : Nat) (f : LaneSt → LaneSt) (s : State) : State := { s with lanes := smUpd lane0 port f s.lanes }
def getRegion (s : State) (r : Nat) : Region := smGet region0 r s.hosts.regions
def updRegion (r : Nat) (f : Region → Region) (s : State) : State :=
  { s with hosts := { s.hosts with regions := smUpd region0 r f s.hosts.regions } }
def getPub (s : State) (ld : Nat) : PubPage := smGet pub0 ld s.hosts.pub
def updPub (ld : Nat) (f : PubPage → PubPage) (s : State) : State :=
  { s with hosts := { s.hosts with pub := smUpd pub0 ld f s.hosts.pub } }
def getSlot (s : State) (k : Nat) : KeySlot := smGet slot0 k s.sec.slots
def updSlot (k : Nat) (f : KeySlot → KeySlot) (s : State) : State :=
  { s with sec := { s.sec with slots := smUpd slot0 k f s.sec.slots } }
def getSched (s : State) (port : Nat) : SchedPort := smGet port0 port s.sched
def updSched (port : Nat) (f : SchedPort → SchedPort) (s : State) : State :=
  { s with sched := smUpd port0 port f s.sched }

/-! ## Geometry, partition state, grants -/

def geomTiles (s : State) : Nat := obj s 0x1101 0
def geomQueues (s : State) : Nat := obj s 0x1104 0
def geomParts (s : State) : Nat := obj s 0x1105 0
def geomStacks (s : State) : Nat := obj s 0x1107 0
/-- The number of assignable 256 MiB blocks (R34). -/
def geomBlocks (s : State) : Nat := obj s 0x1109 0 / 2 ^ 28
def geomHosts (s : State) : Nat := obj s 0x110C 0
def geomLds (s : State) : Nat := obj s 0x110B 0

/-- PART_STATE of a partition (Table 16-2): 0 FREE, 1 HELD, 2 ACTIVE, 3 FENCING, 4 SANITISING. -/
def partState (s : State) (p : Nat) : Nat := obj s 0x3110 (p + 1)

/-- A two-bit right of a grant table (R353, R355): 0 none, 1 read-only, 2 read-write. -/
def rightIn (table i : Nat) : Nat := field table (2 * i + 1) (2 * i)

/-- A partition's right on a pool block (R353). -/
def partRight (s : State) (p b : Nat) : Nat := rightIn (obj s 0x2110 (p + 1)) b

/-- The grant table of a source endpoint (R355). -/
def epGrant (s : State) (e : Nat) : Nat := if e < 128 then obj s 0x2120 (e + 1) else obj s 0x2121 (e - 127)

/-- The partition an endpoint is bound to, 0xFF for none (R356). -/
def epPartition (s : State) (e : Nat) : Nat := field (obj s 0x2122 0) (8 * e + 7) (8 * e)

/-- The module's endpoint ID (R313). -/
def ownEp (s : State) : Nat := obj s 0x2422 0

/-- The route table entry of an endpoint (R313). -/
def routeOf (s : State) (e : Nat) : Nat := if e < 128 then obj s 0x2420 (e + 1) else obj s 0x2421 (e - 127)

/-- The partition that owns a tile, 0xFF for none (R116). -/
def tileOwner (s : State) (t : Nat) : Nat := obj s 0x2600 (t + 1)

/-- The tiles a partition owns, rising. -/
def partTiles (s : State) (p : Nat) : List Nat := (List.range (geomTiles s)).filter (fun t => tileOwner s t == p)

/-- TILE_STATE (Table 5-11): 0 READY, 1 CLEARING, 2 FAILED, 3 RESET, 4 GATED. -/
def tileState (s : State) (t : Nat) : Nat := obj s 0x3601 (t + 1)
def tilePhys (s : State) (t : Nat) : Nat := obj s 0x3602 (t + 1)
def tileRing (s : State) (t : Nat) : Nat := obj s 0x3600 (t + 1)

/-- Is a tile in the coherence domain (R238): neither failed, in reset nor gated? -/
def inDomain (s : State) (t : Nat) : Bool := decide (tileState s t ≤ 1)

/-- Is a link UP? -/
def linkUp (s : State) (port : Nat) : Bool := (getLink s port).state == 2

/-- The FLAGS bits of a region (Table 3-3). -/
def regionMode (r : Region) : Nat := field r.flags 4 3
def regionWtr (r : Region) : Bool := bitOf r.flags 1
def regionDuplex (r : Region) : Bool := bitOf r.flags 0

/-- Does a region hold a block, in its read view or a draft (R62, R457)? -/
def regionHas (r : Region) (b : Nat) : Bool :=
  r.state != .unused &&
  ((decide (r.first ≤ b) && decide (b < r.first + r.blocks)) ||
   r.drafts.any (fun d => decide (d.first ≤ b) && decide (b < d.first + r.blocks)))

/-- The region that holds a block, if any. -/
def regionOfBlock? (s : State) (b : Nat) : Option (Nat × Region) := s.hosts.regions.find? (fun e => regionHas e.2 b)

/-- Does a line lie in a WTR region (R72), or in a DUPLEX region (R80)? -/
def lineWtr (s : State) (line : Nat) : Bool :=
  if buddyLine line then Config.buddyWtr (s.buddy.otherRecs.map (fun e => (e.1, e.2.data))) ((line - buddyBase) >>> 22)
  else
  match regionOfBlock? s (line >>> 22) with | some e => regionWtr e.2 | none => false
def lineDuplex (s : State) (line : Nat) : Bool :=
  if buddyLine line then true
  else
  match regionOfBlock? s (line >>> 22) with | some e => regionDuplex e.2 | none => false

/-- Is a block named by a partition grant or an endpoint grant (R62, R106)? -/
def blockGranted (s : State) (b : Nat) : Bool :=
  (List.range 64).any (fun p => partRight s p b != 0) || (List.range 256).any (fun e => rightIn (epGrant s e) b != 0)

/-- A free block (R62): in no region or draft, under no withdrawal drain or fill, granted to nobody. -/
def blockFree (s : State) (b : Nat) : Bool :=
  decide (b < geomBlocks s) && (regionOfBlock? s b).isNone && !(s.work.fills.any (fun f => f.1 == b)) &&
  !(s.work.parts.any (fun e => e.2.drains.any (fun d => d.block == b))) && !blockGranted s b

/-- The state of a host table entry (Table 3-1): 0 ABSENT, 1 LIVE, 2 DEAD. -/
def hostEntry (s : State) (h : Nat) : Nat := obj s 0x2210 (h + 1)
def hostState (s : State) (h : Nat) : Nat := field (hostEntry s h) 1 0
/-- Does entry `v` bind LD `ld` (16 * port + LD)? -/
def entryBinds (v ld : Nat) : Bool :=
  let p := ld / 16
  bitOf v (2 + 5 * p) && field v (6 + 5 * p) (3 + 5 * p) == ld % 16
/-- The host table entry that binds an LD. -/
def hostOfLd? (s : State) (ld : Nat) : Option Nat := (List.range 32).find? (fun h => entryBinds (hostEntry s h) ld)
/-- The LDs an entry binds. -/
def ldsOfEntry (v : Nat) : List Nat := (List.range 64).filter (entryBinds v)

/-- The view of the buddy's duplex regions at a DPA of an LD, once this module holds the buddy's role (R80): the block as
this module numbers the buddy's blocks, from 4,096 on. -/
def buddyTarget (s : State) (g dpaBlock : Nat) : Option (Nat × Bool) :=
  if s.buddy.other.code = 1 then
    (Config.buddyView (s.buddy.otherRecs.map (fun e => (e.1, e.2.data))) g dpaBlock).map (fun v => (4096 + v.1 % 3584, v.2))
  else none

/-- Does a host's block map name a pool block (R67)? -/
def hostMapsBlock (s : State) (h b : Nat) : Bool :=
  if 4096 ≤ b then
    (ldsOfEntry (hostEntry s h)).any (fun ld => (List.range 8192).any (fun d => (buddyTarget s ld d).map (·.1) == some b))
  else s.hosts.ldMap.any (fun e => e.2.block == b && entryBinds (hostEntry s h) (e.1 / 8192))

/-! ## Expert unlocks (R12, R429) -/

/-- The function group of an expert object. -/
def expertGroup (index : Nat) : Nat := if index < 0x7000 then index / 256 % 16 else if index < 0x8000 then 1 else 9

/-- The place of a role's unlock of a group. -/
def unlockKey (group : Nat) (mon : Bool) : Nat := group * 2 + b2n mon

/-- Does a role hold the unlock of a group now? -/
def unlocked (s : State) (group : Nat) (mon : Bool) : Bool :=
  match smFind? (unlockKey group mon) s.mgmt.unlocks with
  | some t => decide (s.ptime < t)
  | none => false

end Sys2Proof.Machine
end

