-- ==== Sys2Proof/Machine/Symbols.lean ====
section
/-!
DEFINITION. What lanes carry (spec/12 R260-R268, R274, R283): the order of a flit's bytes on lanes, scrambling, Gray
mapping, precoding and their undoing at the receiver, transmit taps, training blocks and their CRC-16.
-/
namespace Sys2Proof.Machine

/-- One step of the PRBS31 generator x^31 + x^28 + 1: its next bit and state (R262; log entry 23). -/
def prbsStep (x : BitVec 31) : Bool × BitVec 31 :=
  let b := x.getLsbD 30 != x.getLsbD 27
  (b, (x <<< 1) ||| (if b then 1#31 else 0#31))

/-- Bits scrambled by a generator, and its state after them. -/
def scrambleBits : BitVec 31 → List Bool → List Bool × BitVec 31
  | x, [] => ([], x)
  | x, b :: bs =>
    let r := prbsStep x
    let q := scrambleBits r.2 bs
    ((b != r.1) :: q.1, q.2)

/-- The generator's first state for a logical lane (R262). -/
def laneSeed (lane : Nat) : BitVec 31 := BitVec.ofNat 31 (0x7FFFFFF8 + lane % 8)

/-- The data bits of bytes in the order they are sent (R261). -/
def byteBits (bs : Bytes) : List Bool := (bs.map (fun b => (List.range 8).map (fun i => b.getLsbD i))).flatten

/-- The Gray value of a bit pair, low bit first (Table 12-2). -/
def grayOf (lo hi : Bool) : Nat :=
  match hi, lo with
  | false, false => 0
  | false, true => 1
  | true, true => 2
  | true, false => 3

/-- The bit pair of a Gray value, low bit first. -/
def ofGray (g : Nat) : Bool × Bool := (g % 4 == 1 || g % 4 == 2, decide (2 ≤ g % 4))

/-- The level of a Gray value, normalised (Table 12-2). -/
def levelOf (g : Nat) : Int := 2 * (g : Int) - 3

/-- The levels of symbols: NRZ uses the two outer ones (log entry 23). -/
def levels (nrz : Bool) (vs : List Nat) : List Int := vs.map (fun v => if nrz then levelOf (3 * v) else levelOf v)

/-- Scrambled bits as symbols: bits at N1, Gray values of pairs above (R261, R263). -/
def toSymbols (nrz : Bool) : List Bool → List Nat
  | a :: b :: r => if nrz then b2n a :: b2n b :: toSymbols nrz r else grayOf a b :: toSymbols nrz r
  | [a] => [b2n a]
  | [] => []

/-- Symbols as scrambled bits again. -/
def ofSymbols (nrz : Bool) (vs : List Nat) : List Bool :=
  if nrz then vs.map (fun v => v % 2 == 1) else (vs.map (fun v => [(ofGray v).1, (ofGray v).2])).flatten

/-- Bits as bytes, the first bit of each its lowest (R261). -/
def bitBytes : Nat → List Bool → Bytes
  | 0, _ => []
  | n + 1, bs =>
    BitVec.ofNat 8 ((List.range 8).foldl (fun v i => v + b2n (bs.getD i false) * 2 ^ i) 0) :: bitBytes n (bs.drop 8)

/-- Precoding: P(n) = (G(n) - P(n - 1)) mod 4 (R264); the values and the last of them. -/
def precode : Nat → List Nat → List Nat × Nat
  | p, [] => ([], p)
  | p, g :: gs =>
    let v := (g + 4 - p % 4) % 4
    let r := precode v gs
    (v :: r.1, r.2)

/-- The receiver's recovery: G(n) = (P(n) + P(n - 1)) mod 4 (R264). -/
def unprecode : Nat → List Nat → List Nat
  | _, [] => []
  | p, v :: vs => (v + p) % 4 :: unprecode v vs

/-- Logical lanes of a port: 8, of the mirror port 4 (R261, R283). -/
def laneWidth (port : Nat) : Nat := if port = 14 then 4 else 8
/-- Physical data lanes of a port and direction: 9, of the mirror port 4. -/
def lanePhys (port : Nat) : Nat := if port = 14 then 4 else 9

/-- The bytes of a flit or cell that a logical lane carries (R261, R283). -/
def laneBytes (width lane : Nat) (b : Bytes) : Bytes :=
  (List.range (b.length / width)).map (fun i => b.getD (i * width + lane) 0)

/-- What one lane sends: its symbols, generator state and last precoded value. -/
def laneSend (nrz pre : Bool) (x : BitVec 31) (last : Nat) (bs : Bytes) : List Nat × BitVec 31 × Nat :=
  let r := scrambleBits x (byteBits bs)
  let g := toSymbols nrz r.1
  if pre && !nrz then
    let q := precode last g
    (q.1, r.2, q.2)
  else (g, r.2, last)

/-- What one lane receives: the bytes of its symbols, generator state and last received value (R262, R264). -/
def laneRecv (nrz pre : Bool) (x : BitVec 31) (last n : Nat) (vs : List Nat) : Bytes × BitVec 31 × Nat :=
  let r := scrambleBits x (ofSymbols nrz (if pre && !nrz then unprecode last vs else vs))
  (bitBytes n r.1, r.2, vs.getLast?.getD last)

/-! ## Flits and cells on the lanes of a port -/

/-- What the physical lanes carry of a flit or cell, and the lanes' generators after it (R261-R264, R274, R276, R283). -/
def unitLevels (port : Nat) (l : LaneSt) (b : Bytes) : List (Nat × List Int) × LaneSt :=
  let w := laneWidth port
  let nrz := l.cfg.rate == 1
  let one (i : Nat) (bs : Bytes) : List Nat × BitVec 31 × Nat :=
    laneSend nrz l.cfg.txPrecode (l.scramble.getD i 0) (l.last.getD i 0) bs
  let data := (List.range w).map (fun i => one i (laneBytes w i b))
  let idle := one w (zeros (b.length / w))
  let phys := (List.range w).map (fun i => (l.cfg.txMap.getD i i, levels nrz (data.getD i ([], 0, 0)).1))
  let spare := match l.cfg.txSpare with
    | some x => [(x, levels nrz (match l.txDup with | some i => (data.getD i ([], 0, 0)).1 | none => idle.1))]
    | none => []
  (phys ++ spare, { l with
    scramble := data.map (·.2.1) ++ [idle.2.1], last := data.map (·.2.2) ++ [idle.2.2] })

/-- The trace on which a physical lane of the peer arrives (R265). -/
def traceOf (l : LaneSt) (p : Nat) : Nat := smGet p p l.train.order

/-- What is decided on a physical lane in the time of `n` bytes, an inverted lane inverted (R265). -/
def laneValues (l : LaneSt) (n : Nat) (rx : Decided) (p : Nat) : List Nat :=
  let nrz := l.cfg.rate == 1
  let k := if nrz then 8 * n else 4 * n
  let vs := (rx.getD (traceOf l p) [] ++ List.replicate k 0).take k
  if bitOf l.train.polarity (traceOf l p) then vs.map (fun v => (if nrz then 1 else 3) - v) else vs

/-- The `len` bytes that the port's receiver makes of what its lanes decide in a flit or cell time, and the lanes'
generators after it (R261-R265, R283). -/
def unitReceived (port len : Nat) (l : LaneSt) (rx : Decided) : Bytes × LaneSt :=
  let w := laneWidth port
  let n := len / w
  let data := (List.range w).map (fun i =>
    laneRecv (l.cfg.rate == 1) l.cfg.rxPrecode (l.rxScramble.getD i 0) (l.rxLast.getD i 0) n
      (laneValues l n rx (l.cfg.rxMap.getD i i)))
  ((List.range len).map (fun b => (data.getD (b % w) ([], 0, 0)).1.getD (b / w) 0),
   { l with rxScramble := data.map (·.2.1), rxLast := data.map (·.2.2) })

/-! ## Clocks and taps (Tables 12-1, 12-3) -/

/-- The forwarded clock of a rate in kHz (Table 12-1). -/
def clockKhz (rate : Nat) : Nat :=
  match rate with
  | 1 | 2 => 6640625
  | 3 => 13281250
  | 4 => 26562500
  | _ => 0

/-- c-1 and c+1 of a preset in hundredths (Table 12-3). -/
def presetTaps (preset : Nat) : Int × Int :=
  match preset with
  | 0 => (0, 0)
  | 1 => (0, -10)
  | 2 => (0, -20)
  | 3 => (-5, -10)
  | 4 => (-5, -15)
  | 5 => (-10, -15)
  | 6 => (-10, -25)
  | _ => (-15, -25)

/-- The main cursor in hundredths: 1 - |c-1| - |c+1| of the full swing (R267). -/
def mainCursor (t : Int × Int) : Int := 100 - (t.1.natAbs + t.2.natAbs : Nat)

/-! ## Training blocks (Table 12-4) -/

/-- The levels of a training block: bit by bit, -3 for 0 and +3 for 1 at every rate (R268; log entry 23). -/
def blockLevels (b : Bytes) : List Int := levels true ((byteBits b).map b2n)

/-- A received block of an inverted lane, inverted back. -/
def flipBlock (inverted : Bool) (b : Bytes) : Bytes := if inverted then b.map (~~~ ·) else b

/-- One bit of CRC-16 with polynomial 0x1021. -/
def crc16Bit (c : BitVec 16) : BitVec 16 := if c.getLsbD 15 then (c <<< 1) ^^^ 0x1021#16 else c <<< 1

/-- The CRC-16 of training blocks, initial value 0xFFFF (R268; log entry 23). -/
def crc16 (bs : Bytes) : Nat :=
  (bs.foldl (fun (c : BitVec 16) b =>
    crc16Bit (crc16Bit (crc16Bit (crc16Bit (crc16Bit (crc16Bit (crc16Bit (crc16Bit
      (c ^^^ BitVec.ofNat 16 (b.toNat * 256)))))))))) 0xFFFF#16).toNat

/-- A training block from its fields. -/
def trainBlock (type lane caps flags eqreq switchAt info : Nat) : Bytes :=
  let b := leBytes 2 0xC35A ++ leBytes 1 type ++ leBytes 1 lane ++ leBytes 1 caps ++ leBytes 1 flags ++
    leBytes 1 eqreq ++ leBytes 1 switchAt ++ leBytes 6 info
  b ++ leBytes 2 (crc16 b)

/-- A received block of a type: SYNC, TYPE and CRC are right, else it is discarded (R268). -/
def blockOk (type : Nat) (b : Bytes) : Bool :=
  b.length == 16 && leAt b 0 2 == 0xC35A && leAt b 2 1 == type && leAt b 14 2 == crc16 (b.take 14)

def tbLane (b : Bytes) : Nat := field (leAt b 3 1) 3 0
def tbKind (b : Bytes) : Nat := field (leAt b 4 1) 5 4
def tbMaxRate (b : Bytes) : Nat := field (leAt b 4 1) 2 0
def tbAck (b : Bytes) : Bool := bitOf (leAt b 5 1) 3
def tbLoopNak (b : Bytes) : Bool := bitOf (leAt b 5 1) 2
def tbLoopReq (b : Bytes) : Bool := bitOf (leAt b 5 1) 1
def tbPrecode (b : Bytes) : Bool := bitOf (leAt b 5 1) 0
def tbTarget (b : Bytes) : Nat := field (leAt b 6 1) 6 4
def tbPreset? (b : Bytes) : Option Nat := if bitOf (leAt b 6 1) 3 then some (field (leAt b 6 1) 2 0) else none
def tbSwitchAt (b : Bytes) : Nat := leAt b 7 1
def tbUnit (b : Bytes) : Nat := leAt b 8 6
def tbPass (b : Bytes) : Nat := field (leAt b 8 6) 8 0

end Sys2Proof.Machine
end

