-- ==== Sys2Proof/Machine/Net.lean ====
section
/-!
DEFINITION. Packets leaving the module (spec/14, spec/15, spec/16, spec/18): headers, the choice of a port, sequence
numbers and windows, payload encryption, multicast, leaves of the scheduler; interrupt messages; mirror cells.
-/
namespace Sys2Proof.Machine

/-! ## Packet headers (Tables 14-2, 14-3) -/

def pkOpc (p : Packet) : Nat := field p.hdr 7 0
def pkTc (p : Packet) : Nat := field p.hdr 9 8
def pkEsc (p : Packet) : Bool := bitOf p.hdr 10
def pkMc (p : Packet) : Bool := bitOf p.hdr 11
def pkEnc (p : Packet) : Bool := bitOf p.hdr 12
def pkDst (p : Packet) : Nat := field p.hdr 23 16
def pkSrc (p : Packet) : Nat := field p.hdr 31 24
def pkPsn (p : Packet) : Nat := field p.hdr 47 32
def pkTag (p : Packet) : Nat := field p.hdr 63 48
def pkAddr (p : Packet) : Nat := field p.hdr 107 64
def pkSmap (p : Packet) : Nat := field p.hdr 115 108
def pkSpan (p : Packet) : Nat := field p.hdr 118 116
def pkGv (p : Packet) : Bool := bitOf p.hdr 119
def pkGen (p : Packet) : Nat := field p.hdr 127 120
def pkStatus (p : Packet) : Nat := field p.hdr 71 64
def pkOrigDst (p : Packet) : Nat := field p.hdr 79 72
def pkProxy (p : Packet) : Bool := bitOf p.hdr 80

/-- Opcodes of the data form, which may be encrypted (Table 14-1, R310). -/
def opcIsData (opc : Nat) : Bool := [0x03, 0x04, 0x05, 0x06, 0x07, 0x20, 0x22].contains opc

/-- Opcodes of requests that have an answer (Table 14-1). -/
def opcIsRequest (opc : Nat) : Bool := [0x01, 0x02, 0x03, 0x04, 0x06, 0x07].contains opc

/-- Opcodes Table 14-1 lists for packets. -/
def opcIsPacket (opc : Nat) : Bool :=
  [0x01, 0x02, 0x03, 0x04, 0x05, 0x06, 0x07, 0x10, 0x11, 0x12, 0x20, 0x21, 0x22].contains opc

/-- A header from its fields; `mid` is bits 107-64, `gv` the generation a packet carries (R132). PSN, ESC and ENC are
filled in when the packet is launched. -/
def mkHdr (opc tc : Nat) (mc : Bool) (dst src tag mid smap span : Nat) (gv : Option Nat) : Nat :=
  opc % 256 + (tc % 4) * 2 ^ 8 + b2n mc * 2 ^ 11 + (dst % 256) * 2 ^ 16 + (src % 256) * 2 ^ 24 +
  (tag % 65536) * 2 ^ 48 + (mid % 2 ^ 44) * 2 ^ 64 + (smap % 256) * 2 ^ 108 + (span % 8) * 2 ^ 116 +
  (match gv with | some g => 2 ^ 119 + (g % 256) * 2 ^ 120 | none => 0)

def mkPkt (hdr : Nat) (sectors : List Bytes) : Packet := { hdr := hdr, ext := none, sectors := sectors, auth := [] }

/-- The traffic class, destination and source of a unit; cells are TC3 (Table 14-1, R311). -/
def unitTc : NlUnit → Nat
  | .pkt p => pkTc p
  | .cell _ => 3
def unitDst : NlUnit → Nat
  | .pkt p => pkDst p
  | .cell b => leAt b 1 1
def unitSrc : NlUnit → Nat
  | .pkt p => pkSrc p
  | .cell b => leAt b 2 1
/-- Does the unit take the escape route (R311, R315)? -/
def unitEsc : NlUnit → Bool
  | .pkt p => pkEsc p
  | .cell _ => true

/-- The data credits of a unit (R309). -/
def unitData : NlUnit → Nat
  | .pkt p => p.sectors.length + b2n (pkEnc p)
  | .cell _ => 0

/-- The extension slot (R323). -/
def extBytes (e : Nat × Nat) : Bytes := leBytes 8 e.1 ++ leBytes 1 (e.2 % 4) ++ zeros 7

/-- The bytes of a unit, slots of 16 bytes (R305). -/
def unitBytes : NlUnit → Bytes
  | .cell b => slice b 0 32
  | .pkt p =>
    leBytes 16 p.hdr ++ (match p.ext with | some e => extBytes e | none => []) ++ p.sectors.flatten ++
    (if pkEnc p then slice p.auth 0 16 else [])

/-! ## Jobs seen from the fabric -/

/-- End a running job with its outcome (R126); it retires by JOB_RETIRE. -/
def endJob (j : Nat) (st : Status) (detail result reason : Nat) (s : State) : State :=
  updJob j (fun x => if x.phase = .ended then x
    else { x with phase := .ended, status := st, detail := detail % 2 ^ 64, result := result % 2 ^ 32, reason := reason }) s

/-- Requests of a job not yet answered on a channel. -/
def jobOut (x : JobSt) (chan : Nat) : Nat := smGet 0 chan x.outstanding

/-- `n` more requests of a job on a channel. -/
def jobSent (j chan n : Nat) (s : State) : State :=
  updJob j (fun x => { x with outstanding := smUpd 0 chan (· + n) x.outstanding }) s

/-- A job's request has been answered. Of several errors the job keeps the one first in its procedure, which takes the bytes of
its operand in ascending offset (R129, R333). -/
def jobAnswered (j chan : Nat) (err : Option Status) (off : Nat) (s : State) : State :=
  updJob j (fun x => { x with
    outstanding := smUpd 0 chan (· - 1) x.outstanding
    remoteErr := match smFind? chan x.remoteErr, err with
      | none, some st => smPut chan (st, off) x.remoteErr
      | some (_, o), some st => if off < o then smPut chan (st, off) x.remoteErr else x.remoteErr
      | _, none => x.remoteErr }) s

/-- An originated request has ended without its answer, or with a failing one (R321, R326). -/
def failFor (w : ReqFor) (st : Status) (s : State) : State :=
  match w with
  | .jobRead j chan _ _ _ _ off => jobAnswered j chan (some st) off s
  | .jobWrite j chan off => jobAnswered j chan (some st) off s
  | .queueFetch q _ => updQueue q (fun x => { x with fetching := false, fetched := some (st, []) }) s
  | .record _ _ => s

def reqKey (dst tag : Nat) : Nat := dst * 65536 + tag

/-- End the outstanding request of a packet that the module could not send on. -/
def failReq (dst tag : Nat) (st : Status) (s : State) : State :=
  match smFind? (reqKey dst tag) s.fabric.reqs with
  | none => s
  | some r => failFor r.who st { s with fabric := { s.fabric with reqs := smErase (reqKey dst tag) s.fabric.reqs } }

/-- What has happened to packets that a job, or a coalescing group, multicasts: members skipped, members whose transfer failed,
which are skipped too (R188, R200), packets over, an error. -/
def mcNote (j : Nat) (skip failed : List Nat) (done : Nat) (err : Option Status) (s : State) : State :=
  let mark (b : Nat) (l : List Nat) : Nat := l.foldl (fun b e => putBit b e true) b
  match smFind? j s.work.groups with
  | some _ =>
    { s with work := { s.work with groups := smAlter j (fun g => { g with
        skipped := mark g.skipped (skip ++ failed)
        failed := mark g.failed failed
        outstanding := g.outstanding - done
        err := match g.err with | some e => some e | none => err }) s.work.groups } }
  | none =>
    updJob j (fun x => { x with
      skipped := mark x.skipped (skip ++ failed)
      outstanding := if done = 0 then x.outstanding else smUpd 0 2 (· - done) x.outstanding
      remoteErr := match smFind? 2 x.remoteErr, (if failed.isEmpty then err else some .errLink) with
        | none, some st => smPut 2 (st, 0) x.remoteErr
        | _, _ => x.remoteErr }) s

/-- Members of a multicast that will not acknowledge: out of the packet's set and into the job's SKIPPED (R325). -/
def mcRemove (tc mpsn : Nat) (eps : List Nat) (skip : Bool) (s : State) : State :=
  let k := tc * 65536 + mpsn
  match smFind? k s.fabric.mcOut with
  | none => s
  | some m =>
    let left := m.members.filter (fun e => !eps.contains e)
    let out := if left.isEmpty then smErase k s.fabric.mcOut else smPut k { m with members := left } s.fabric.mcOut
    let s1 := { s with fabric := { s.fabric with mcOut := out } }
    let hit := m.members.filter eps.contains
    mcNote m.job (if skip then hit else []) [] (b2n left.isEmpty) none s1

/-! ## Leaves of the scheduler (R336, R339) -/

/-- The modular comparison of 32-bit tags (R338): `a` earlier than `b`. -/
def tagEarlier (a b : Nat) : Bool := laterW 32 b a

/-- Put an item at the end of a leaf. -/
def enqueueLeaf (port sub svc : Nat) (it : SchedItem) (s : State) : State :=
  updSched port (fun p => { p with subs := smUpd sub0 sub (fun b =>
    { b with svcs := smUpd svc0 svc (fun v => { v with leaf := v.leaf ++ [it] }) b.svcs }) p.subs }) s

/-! ## Routes and ports (R313-R315, R326, R327) -/

def routeValid (r : Nat) : Bool := bitOf r 37
def routeFenced (r : Nat) : Bool := bitOf r 36
def routeLocal (r : Nat) : Bool := bitOf r 14
def routeEscPort (r : Nat) : Nat := field r 19 16
def routeRxwin (r : Nat) : Nat := field r 52 40

/-- Is an endpoint this module (R313)? -/
def isLocal (s : State) (e : Nat) : Bool := e == ownEp s || (routeValid (routeOf s e) && routeLocal (routeOf s e))

def portThrottled (s : State) (port tc : Nat) : Bool := s.fabric.throttled.contains (port * 4 + tc)

/-- Header credits a sender has left toward a port's peer (R299). -/
def hdrAvail (l : LinkSt) (tc : Nat) : Nat :=
  (smGet 0 (tc * 2) l.ret + smGet 0 (tc * 2) l.adv + 4096 - smGet 0 (tc * 2) l.cons % 4096) % 4096
/-- Data credits left (R299). -/
def dataAvail (l : LinkSt) (tc : Nat) : Nat :=
  (smGet 0 (tc * 2 + 1) l.ret + smGet 0 (tc * 2 + 1) l.adv + 65536 - smGet 0 (tc * 2 + 1) l.cons % 65536) % 65536

/-- The header credits of a port's escape reserve (R315). -/
def escReserve (s : State) (port : Nat) : Nat := if port = 12 ∨ port = 13 then obj s 0x4421 0 else 0

/-- Header credits beyond the escape reserve. -/
def freeCredits (s : State) (port tc : Nat) : Nat := hdrAvail (getLink s port) tc - escReserve s port

/-- The first of the ports with the most credits. -/
def bestPort (s : State) (tc : Nat) : List Nat → Option Nat
  | [] => none
  | p :: ps =>
    match bestPort s tc ps with
    | none => some p
    | some q => if freeCredits s p tc < freeCredits s q tc then some q else some p

/-- What the router decides for a packet. -/
inductive PortChoice where
  | go (port : Nat)
  | wait
  | unroutable
deriving DecidableEq, Repr

/-- The router's choice (R314, R315). A packet of TC0 or TC2 does not take a throttled port. -/
def choosePort (s : State) (dst tc : Nat) (esc transit : Bool) : PortChoice :=
  let r := routeOf s dst
  if !routeValid r then .unroutable
  else if esc then
    let p := routeEscPort r
    if !linkUp s p then .unroutable
    else if portThrottled s p tc && !transit then .wait else .go p
  else
    let up (mask : Nat) : List Nat := (onesBelow 14 mask).filter (linkUp s)
    let ps := if (up (field r 13 0)).isEmpty then up (field r 33 20) else up (field r 13 0)
    if ps.isEmpty then .unroutable
    else
      let last := smGet 14 dst s.fabric.lastPort
      let ok := ps.filter (fun p => !portThrottled s p tc)
      match bestPort s tc (ok.filter (fun p => decide (last < p)) ++ ok.filter (fun p => decide (p ≤ last))) with
      | some p => .go p
      | none => .wait

/-! ## Payload encryption (R361-R363) -/

/-- The slot number of a partition's payload slot, if it has one (R357). -/
def payloadSlot? (s : State) (p : Nat) : Option Nat :=
  let k := obj s 0x2112 (p + 1)
  if field k 23 16 = 0xFF ∨ field k 15 8 ≤ field k 23 16 then none else some (field k 7 0 + field k 23 16)

/-- The payload slot of a partition when it is LIVE or ROLLING. -/
def liveSlot? (s : State) (p : Nat) : Option KeySlot :=
  match payloadSlot? s p with
  | some i => if (getSlot s i).state = 0 then none else some (getSlot s i)
  | none => none

/-- The GCM nonce of a packet (R362). -/
def packetNonce (src dst tc : Nat) (mc : Bool) (count epoch : Nat) : Bytes :=
  leBytes 1 src ++ leBytes 1 (if mc then 0 else dst) ++ leBytes 1 (tc % 4 + 4 * b2n mc) ++ leBytes 7 count ++
  leBytes 2 epoch

/-- What is authenticated in clear: the header without its ESC mark, which a router may set, and the extension's
window without its mask, which routers split (R310, R315, R323; log entry 18). -/
def packetAad (p : Packet) : Bytes :=
  leBytes 16 (putBit (putBit p.hdr 10 false) 12 true) ++ (match p.ext with | some e => extBytes (0, e.2) | none => [])

/-- Split bytes into sectors of 32. -/
def toSectors : Nat → Bytes → List Bytes
  | 0, _ => []
  | n + 1, bs => slice bs 0 32 :: toSectors n (bs.drop 32)

/-- Encrypt a data packet with a slot's CURRENT key under a stream's COUNT. -/
def sealPacket (k : KeySlot) (count : Nat) (p : Packet) : Packet :=
  let q := { p with hdr := putBit p.hdr 12 true }
  let r := gcmSeal k.current (packetNonce (pkSrc p) (pkDst p) (pkTc p) (pkMc p) count k.epoch) (packetAad q)
    p.sectors.flatten
  { q with sectors := toSectors p.sectors.length r.1, auth := slice r.2 0 16 }

/-- Will a packet be encrypted when it is launched (R362)? -/
def willSeal (s : State) (o : Outgoing) : Option KeySlot :=
  match o.unit, o.keyPart with
  | .pkt p, some kp => if opcIsData (pkOpc p) then liveSlot? s kp else none
  | _, _ => none

/-- The key-roll-due event of a stream whose COUNT has reached 2^55 (R363). -/
def noteCount (dst tc count : Nat) (s : State) : State :=
  if count = 2 ^ 55 then raiseEvent 0x0033 (leBytes 1 dst ++ leBytes 1 tc) s else s

/-! ## Sending (R311, R317, R324-R326) -/

def streamKey (ep tc : Nat) : Nat := ep * 4 + tc

/-- May a unit of the module's own be numbered now (R311, R317)? -/
def windowOpen (s : State) (u : NlUnit) : Bool :=
  let d := unitDst u
  match u with
  | .cell _ =>
    let st := smGet send0 d s.fabric.sendCell
    decide ((st.next + 256 - st.acked % 256) % 256 ≤ 64)
  | .pkt p =>
    let st := smGet send0 (streamKey d (pkTc p)) s.fabric.send
    decide ((st.next + 65536 - st.acked) % 65536 ≤ routeRxwin (routeOf s d))

/-- The stream after one more number. -/
def advance (w : Nat) (st : SendStream) : SendStream :=
  { st with next := (st.next + 1) % w, wraps := if st.next + 1 = w then st.wraps + 1 else st.wraps }

/-- Number a unit of the module's own, and encrypt it. `none`: the stream may carry no further encrypted request
(R363). -/
def numberUnit (o : Outgoing) (s : State) : Option Outgoing × State :=
  match o.unit with
  | .cell b =>
    let d := unitDst o.unit
    let st := smGet send0 d s.fabric.sendCell
    (some { o with unit := .cell (splice b 3 (leBytes 1 (st.next % 256))) },
     { s with fabric := { s.fabric with sendCell := smSet send0 d (advance 256 st) s.fabric.sendCell } })
  | .pkt p =>
    let d := pkDst p
    let k := streamKey d (pkTc p)
    let st := smGet send0 k s.fabric.send
    let count := st.wraps * 65536 + st.next
    let q := { p with hdr := putField p.hdr 47 32 st.next }
    match willSeal s o with
    | some slot =>
      if 2 ^ 56 - 1 ≤ count ∧ opcIsRequest (pkOpc p) then (none, s)
      else (some { o with unit := .pkt (sealPacket slot count q) },
            noteCount d (pkTc p) count { s with fabric := { s.fabric with send := smSet send0 k (advance 65536 st) s.fabric.send } })
    | none => (some { o with unit := .pkt q },
               noteCount d (pkTc p) count { s with fabric := { s.fabric with send := smSet send0 k (advance 65536 st) s.fabric.send } })

/-- End the request that a unit of the module's own asks, if it asks one. -/
def failUnit (u : NlUnit) (st : Status) (s : State) : State :=
  match u with
  | .pkt p => if opcIsRequest (pkOpc p) then failReq (pkDst p) (pkTag p) st s else s
  | .cell _ => s

/-- A unit into the leaf of its subscriber and service at a port, and the port remembered for its destination. -/
def toPort (port : Nat) (o : Outgoing) (s : State) : State :=
  let s1 := { s with fabric := { s.fabric with
    lastPort := if unitEsc o.unit then s.fabric.lastPort else smPut (unitDst o.unit) port s.fabric.lastPort } }
  enqueueLeaf port o.sub o.svc (.nl o) s1

/-- Count a delay by injection throttling, once (R344). -/
def countThrottleDelay (o : Outgoing) (s : State) : State :=
  if o.counted then s else if o.sub < 64 then pbump o.sub 0x6510 5 1 s else bump 0x3502 2 s

/-- Try to send a unit of the module's own: what still waits, and the state. -/
def tryLaunch (o : Outgoing) (s : State) : Option Outgoing × State :=
  let d := unitDst o.unit
  let r := routeOf s d
  if routeFenced r then (none, failUnit o.unit .fenced (bump 0x3440 6 s))
  else
    match choosePort s d (unitTc o.unit) (unitEsc o.unit) false with
    | .unroutable => (none, failUnit o.unit .errLink (bump 0x3440 11 s))
    | .wait => (some { o with counted := true }, countThrottleDelay o s)
    | .go port =>
      if !windowOpen s o.unit then (some o, s)
      else
        match numberUnit o s with
        | (none, s1) => (none, failUnit o.unit .errKey s1)
        | (some o1, s1) => (none, toPort port o1 s1)

/-! ## Multicast (R323-R325) -/

/-- The members of a mask. -/
def mcMembers (mask win : Nat) : List Nat := (onesBelow 64 mask).map (fun i => 64 * win + i)

/-- The port a member's copy takes: its ESC_PORT, else the lowest UP port of its ALT (R323). -/
def mcPort (s : State) (e : Nat) : Option Nat :=
  let r := routeOf s e
  if !routeValid r then none
  else if linkUp s (routeEscPort r) then some (routeEscPort r)
  else ((onesBelow 14 (field r 33 20)).filter (linkUp s)).head?

/-- The mask of a list of members in a window. -/
def mcMask (win : Nat) (es : List Nat) : Nat := es.foldl (fun m e => putBit m (e - 64 * win) true) 0

/-- A copy of a multicast unit with its mask replaced. -/
def mcCopy (u : NlUnit) (win : Nat) (es : List Nat) : NlUnit :=
  match u with
  | .pkt p => .pkt { p with ext := some (mcMask win es, win) }
  | c => c

/-- Send the copies of a multicast unit, one for each port with members behind it. -/
def mcSend (o : Outgoing) (win : Nat) (members : List Nat) (s : State) : State :=
  (List.range 14).foldl (fun s port =>
    let es := members.filter (fun e => mcPort s e == some port)
    if es.isEmpty then s else enqueueLeaf port o.sub o.svc (.nl { o with unit := mcCopy o.unit win es }) s) s

/-- May a multicast packet be numbered: at most 4,096 of its class unacknowledged (R324). -/
def mcWindowOpen (s : State) (tc : Nat) : Bool :=
  decide ((s.fabric.mcOut.filter (fun e => e.1 / 65536 == tc)).length < 4096)

/-- Launch a multicast packet of the module's own: number it, encrypt it once, skip the members that are fenced or
unroutable, send the copies (R323-R326, R361). The module's own copy is performed by the caller. -/
def mcLaunch (o : Outgoing) (p : Packet) (mask win : Nat) (s : State) : State :=
  let tc := pkTc p
  let st := smGet send0 tc s.fabric.sendMc
  let count := st.wraps * 65536 + st.next
  let q := { p with hdr := putField p.hdr 47 32 st.next }
  match willSeal s o with
  | some _ =>
    if 2 ^ 56 - 1 ≤ count then
      match o.job with | some j => mcNote j [] [] 1 (some .errKey) s | none => s
    else go tc st count (match willSeal s o with | some k => sealPacket k count q | none => q)
  | none => go tc st count q
where
  go (tc : Nat) (st : SendStream) (count : Nat) (q : Packet) : State :=
    let s0 := noteCount 0xFF tc count { s with fabric := { s.fabric with sendMc := smSet send0 tc (advance 65536 st) s.fabric.sendMc } }
    let members := (mcMembers mask win).filter (fun e => !isLocal s e)
    let fenced := members.filter (fun e => routeFenced (routeOf s e))
    let live := members.filter (fun e => !routeFenced (routeOf s e))
    let lost := live.filter (fun e => (mcPort s e).isNone)
    let reach := live.filter (fun e => (mcPort s e).isSome)
    let s1 := pbump 0 0x3440 11 lost.length (pbump 0 0x3440 6 fenced.length s0)
    let j := o.job.getD 0
    let s2 := mcNote j (fenced ++ lost) lost (b2n reach.isEmpty) none s1
    if reach.isEmpty then s2
    else
      let s3 := { s2 with fabric := { s2.fabric with
        mcOut := smPut (tc * 65536 + st.next) { tc := tc, members := reach, job := j } s2.fabric.mcOut } }
      mcSend { o with unit := .pkt q } win reach s3

/-! ## Origination and waiting packets -/

/-- Do two units belong to one stream? -/
def sameStream (a b : NlUnit) : Bool :=
  match a, b with
  | .cell _, .cell _ => unitDst a == unitDst b
  | .pkt p, .pkt q => pkMc p == pkMc q && pkTc p == pkTc q && (pkMc p || pkDst p == pkDst q)
  | _, _ => false

/-- Try one unit: of the module's own, unicast or multicast, or in transit. -/
def tryUnit (o : Outgoing) (s : State) : Option Outgoing × State :=
  match o.unit with
  | .pkt p =>
    match p.ext with
    | some (mask, win) =>
      if o.transit then (none, s)
      else if mcWindowOpen s (pkTc p) then (none, mcLaunch o p mask win s) else (some o, s)
    | none =>
      if o.transit then
        match choosePort s (pkDst p) (pkTc p) (pkEsc p) true with
        | .go port => (none, toPort port o s)
        | _ => (some o, s)
      else tryLaunch o s
  | .cell _ => tryLaunch o s

/-- Try the waiting units in order; one behind a waiting unit of its own stream waits too. -/
def pumpWaiting (s : State) : State :=
  let r := s.fabric.waiting.foldl (fun (acc : State × List Outgoing) o =>
    if acc.2.any (fun w => !o.transit && sameStream w.unit o.unit) then (acc.1, acc.2 ++ [o])
    else
      match tryUnit o acc.1 with
      | (some o1, s1) => (s1, acc.2 ++ [o1])
      | (none, s1) => (s1, acc.2)) ({ s with fabric := { s.fabric with waiting := [] } }, [])
  { r.1 with fabric := { r.1.fabric with waiting := r.2 } }

/-- Send a unit of the module's own, behind those of its stream that wait. -/
def originate (o : Outgoing) (s : State) : State :=
  if s.fabric.waiting.any (fun w => sameStream w.unit o.unit) then
    { s with fabric := { s.fabric with waiting := s.fabric.waiting ++ [o] } }
  else
    match tryUnit o s with
    | (none, s1) => s1
    | (some o1, s1) => { s1 with fabric := { s1.fabric with waiting := s1.fabric.waiting ++ [o1] } }

/-- A unit of the module's own. -/
def outUnit (u : NlUnit) (sub svc : Nat) (keyPart : Option Nat) : Outgoing :=
  { unit := u, sub := sub, svc := svc, paced := false, transit := false, inPort := 0, keyPart := keyPart,
    job := none, counted := false, vec := none }

/-- The partition whose key serves a job's exchange with an endpoint: the endpoint's partition if it has one, else
the job's (Table 16-5; an endpoint bound to no partition is taken as another module: log entry 19). -/
def exchangePart (s : State) (e p : Nat) : Nat := if epPartition s e = 0xFF then p else epPartition s e

/-- The sectors of a span with zero sectors elided when NF_ZERO_ELIDE is 1: SMAP, the carried sectors (R307, R308). -/
def elide (on : Bool) (secs : List Bytes) : Nat × List Bytes :=
  let keep := secs.map (fun b => !on || b.any (fun x => x != 0))
  ((List.range secs.length).foldl (fun m i => putBit m i (keep.getD i false)) 0,
   (secs.zip keep).filterMap (fun x => if x.2 then some x.1 else none))

/-- Count sectors sent elided. -/
def countElided (n carried : Nat) (s : State) : State := if n ≤ carried then s else pbump 0 0x3440 9 (n - carried) s

/-- Is a TAG free for a destination: not outstanding, and not one kept from reuse (R321)? -/
def tagFree (s : State) (dst tag : Nat) : Bool :=
  (smFind? (reqKey dst tag) s.fabric.reqs).isNone &&
  (match smFind? (reqKey dst tag) s.fabric.retired with | some t => decide (t ≤ s.ptime) | none => true)

/-- The first free TAG from `t` on, among `n` candidates. -/
def findTag (s : State) (dst : Nat) : Nat → Nat → Nat
  | 0, t => t
  | n + 1, t => if tagFree s dst t then t else findTag s dst n ((t + 1) % 65536)

/-- Register a request and send its packet (R321). -/
def originateReq (who : ReqFor) (part sub svc : Nat) (gv : Option Nat) (opc tc dst mid smap span : Nat)
    (sectors : List Bytes) (s : State) : State :=
  let tag := findTag s dst (s.fabric.reqs.length + s.fabric.retired.length) s.fabric.nextTag
  let s1 := { s with fabric := { s.fabric with
    nextTag := (tag + 1) % 65536
    reqs := smPut (reqKey dst tag) { who := who, tc := tc, part := part } s.fabric.reqs } }
  let hdr := mkHdr opc tc false dst (ownEp s) tag mid smap span gv
  originate (outUnit (.pkt (mkPkt hdr sectors)) sub svc (some (exchangePart s dst part))) s1

/-! ## Interrupt messages (R135, R136) -/

def msix0 : MsixEntry := { addr := 0, data := 0, control := 0 }

/-- Does a vector's message wait in a leaf or for a port? -/
def vecQueued (s : State) (p v : Nat) : Bool :=
  let hit : SchedItem → Bool
    | .msix a b => a == p && b == v
    | .nl o => o.vec == some (p, v)
    | _ => false
  s.sched.any (fun e => e.2.subs.any (fun b => b.2.svcs.any (fun c => c.2.leaf.any hit))) ||
  s.fabric.waiting.any (fun o => o.vec == some (p, v))

/-- The LDs that expose a partition's window, in port order (R118). -/
def partLds (s : State) (p : Nat) : List Nat :=
  let v := obj s 0x2602 (p + 1)
  ((List.range 4).filter (fun n => bitOf v (n * 5 + 4))).map (fun n => 16 * n + field v (n * 5 + 3) (n * 5))

def setPba (p v : Nat) (b : Bool) (s : State) : State :=
  updPart p (fun x => { x with pba := BitVec.ofNat 256 (putBit x.pba.toNat (v % 256) b) }) s

/-- A message that cannot be sent: pending, and counted (R135). -/
def undelivered (p v : Nat) (s : State) : State := pbump p 0x6600 5 1 (setPba p v true s)

/-- Send a vector's message: into the access leaf of the partition's node at its port, pending until it leaves it. -/
def sendVector (p v : Nat) (s : State) : State :=
  let e := smGet msix0 v (getPart s p).msix
  if obj s 0x2603 (p + 1) ≤ v then undelivered p v s
  else if field e.control 17 16 = 0 then
    match (partLds s p).find? (fun ld => s.cxl.trained.getLsbD (ld / 16)) with
    | some ld => enqueueLeaf (16 + ld / 16) p 3 (.msix p v) (setPba p v true s)
    | none => undelivered p v s
  else if field e.control 17 16 = 1 then
    let dst := field e.addr 51 44
    let off := field e.addr 43 0
    let lane := off % 8
    let hdr := mkHdr 0x05 0 false dst (ownEp s) 0 (off - lane) (15 * 2 ^ lane) 0 none
    let sec := slice (zeros lane ++ leBytes 4 e.data) 0 32
    originate { outUnit (.pkt (mkPkt hdr [sec])) p 3 (some (exchangePart s dst p)) with vec := some (p, v) } (setPba p v true s)
  else undelivered p v s

/-- A cause of a vector (R136). -/
def signalVector (p v : Nat) (s : State) : State :=
  let e := smGet msix0 v (getPart s p).msix
  if bitOf e.control 0 then setPba p v true s
  else if vecQueued s p v then s
  else sendVector p v s

/-- Set a bit of PC_ERR_CAUSE and signal ERR_VECTOR (Table 5-3, Table 5-10). -/
def setErrCause (p bit : Nat) (s : State) : State :=
  let s1 := updPart p (fun x => { x with errCause := putBit x.errCause bit true }) s
  signalVector p (field (getPart s1 p).vectors 7 0) s1

/-! ## Mirror cells (R80, R394-R396) -/

/-- A mirror cell of a type, MSEQ, MACK and 22-byte body (R394). -/
def mirrorCellBytes (ctype mseq mack : Nat) (body : Bytes) : Bytes :=
  let b := leBytes 1 ctype ++ leBytes 1 0 ++ leBytes 2 mseq ++ leBytes 2 mack ++ slice body 0 22
  b ++ leBytes 4 (crc32 b)

/-- Send the bytes of a mirror cell on the mirror port's lanes (R283). -/
def sendMirror (b : Bytes) (s : State) : State :=
  let y := unitLevels 14 (getLane s 14) b
  send (.mirrorCell b y.1) (updLane 14 (fun _ => y.2) s)

/-- Send waiting cells while the port is UP, the peer sets no HOLD and the replay buffer has room (R394). -/
def mirrorPump (s : State) : State :=
  s.buddy.mirror.queue.foldl (fun s cell =>
    let m := s.buddy.mirror
    if m.up && !m.peerHold && decide (m.replay.length < 1024) then
      let n := (m.seq + 1) % 65536
      let s1 := { s with buddy := { s.buddy with mirror :=
        { m with seq := n, replay := m.replay ++ [(n, cell)], queue := m.queue.drop 1 } } }
      sendMirror (mirrorCellBytes (leAt cell 0 1) n m.mack (cell.drop 1)) s1
    else s) s

/-- Queue a mirror cell: its type, then its body. -/
def mirrorPush (ctype : Nat) (body : Bytes) (s : State) : State :=
  mirrorPump { s with buddy := { s.buddy with mirror := { s.buddy.mirror with
    queue := s.buddy.mirror.queue ++ [leBytes 1 ctype ++ slice body 0 22] } } }

/-- The MSEQ that the last queued or sent cell has or will get. -/
def mirrorLastSeq (s : State) : Nat := (s.buddy.mirror.seq + s.buddy.mirror.queue.length) % 65536

/-- The four cells of a line (Table 18-3). -/
def mirrorLine (ctype line : Nat) (tag : Nat) (data : Bytes) (s : State) : State :=
  let s1 := mirrorPush ctype (leBytes 5 (line * 64) ++ leBytes 1 tag ++ zeros 2 ++ slice data 0 14) s
  mirrorPush 2 (slice data 58 6) (mirrorPush 2 (slice data 36 22) (mirrorPush 2 (slice data 14 22) s1))

/-- Does a write of a line travel to the buddy: the module holds its own role, the line is duplex, the role is not
SIMPLEX (R80, R396)? -/
def mirrors (s : State) (line : Nat) : Bool := (if buddyLine line then s.buddy.other.code == 1 else s.buddy.own.code == 1) && lineDuplex s line && !s.buddy.mirror.simplex

end Sys2Proof.Machine
end

