-- ==== Sys2Proof/Machine/Home.lean ====
section
/-!
DEFINITION. The home of a line (spec/03 R67-R72, R78; spec/10 R229-R236; spec/04 R94-R96): the host directory, snoops to
hosts and tiles, the order of accesses to a line, and what each access does once it is its turn. A request takes its
turn as a whole (log entry 9).
-/
namespace Sys2Proof.Machine

/-! ## Directory (R67-R69, R78) -/

/-- The hosts in a 32-bit vector. -/
def vecHosts (v : BitVec 32) : List Nat := onesBelow 32 v.toNat

/-- The holder vector of a line in HSTATE 0b11 with HINT 0 (R68). -/
def dirVector (s : State) (line : Nat) : BitVec 32 :=
  match smFind? line s.hosts.dirCache with
  | some v => v
  | none => smGet 0 line s.hosts.dirOver

/-- The tag the directory acts on: once every possible holder has given up an undecodable line, nobody holds it. -/
def dirTag (s : State) (line : Nat) : Nat :=
  if s.hosts.answered.contains line then mkTag true 0 0 else lineTag s line

/-- The hosts that count as holders of a line (R69). -/
def holders (s : State) (line : Nat) : List Nat :=
  let t := dirTag s line
  match tagHstate t with
  | 0 => []
  | 3 =>
    if tagHint t = 31 then
      (List.range 32).filter (fun h => hostState s h == 1 && hostMapsBlock s h (line >>> 22))
    else vecHosts (dirVector s line)
  | _ => [tagHint t]

/-- Keep a vector: in the directory cache, else in the overflow area; false when both are full (R68). -/
def putVector (line : Nat) (v : BitVec 32) (s : State) : Bool × State :=
  if (smFind? line s.hosts.dirCache).isSome || decide (s.hosts.dirCache.length < 262144) then
    (true, { s with hosts := { s.hosts with dirCache := smPut line v s.hosts.dirCache } })
  else if (smFind? line s.hosts.dirOver).isSome || decide (s.hosts.dirOver.length < 16777216) then
    (true, bump 0x3220 0 { s with hosts := { s.hosts with dirOver := smPut line v s.hosts.dirOver } })
  else (false, bump 0x3221 0 s)

/-- Prepare to record a set of holders: the HSTATE and HINT to write, and the vector kept or dropped. -/
def dirAlloc (line : Nat) (hs : List Nat) (excl : Bool) (s : State) : Nat × Nat × State :=
  match hs with
  | [] => (0, 0, dropVector line s)
  | [h] => (if excl then 2 else 1, h, dropVector line s)
  | _ =>
    let r := putVector line (BitVec.ofNat 32 (hs.foldl (fun v h => putBit v h true) 0)) s
    (3, if r.1 then 0 else 31, if r.1 then r.2 else dropVector line r.2)

/-- Mirror a change of a duplex line's tag (R80). -/
def mirrorTag (line : Nat) (s : State) : State :=
  if mirrors s line then mirrorPush 3 (leBytes 5 (line * 64) ++ leBytes 1 (lineTag s line)) s else s

/-- Mirror a duplex line as it now stands (R80). -/
def mirrorStored (line : Nat) (s : State) : State :=
  if mirrors s line then
    match peekLine s line with
    | some (d, t) => mirrorLine 1 line t d s
    | none => s
  else s

/-- Record a set of holders in a line's tag. -/
def dirSet (src : Source) (line : Nat) (hs : List Nat) (excl : Bool) (s : State) : State :=
  let t0 := lineTag s line
  let r := dirAlloc line hs excl s
  let s1 := setTag src line (fun t => mkTag (tagPoison t) r.1 r.2.1) r.2.2
  if lineTag s1 line = t0 then s1 else mirrorTag line s1

/-- Nobody holds the line any more. -/
def dirDrop (src : Source) (line : Nat) (s : State) : State :=
  match peekLine s line with
  | some _ => dirSet src line [] false s
  | none => { s with hosts := { s.hosts with answered := line :: s.hosts.answered.filter (· != line) } }

/-- Resolve what a dead host tracked of a line (Table 3-8). -/
def resolveDead (line : Nat) (s : State) : State :=
  match peekLine s line with
  | none => s
  | some (_, t) =>
    let dead (h : Nat) : Bool := hostState s h == 2
    match tagHstate t with
    | 0 => s
    | 1 => if dead (tagHint t) then dirSet (.host (tagHint t)) line [] false s else s
    | 2 =>
      if dead (tagHint t) then
        bump 0x3212 (tagHint t + 1) (dirSet (.host (tagHint t)) line [] false (poisonLine (.host (tagHint t)) line s))
      else s
    | _ =>
      if tagHint t = 31 then s
      else
        let hs := vecHosts (dirVector s line)
        match hs.find? dead with
        | some h => dirSet (.host h) line (hs.filter (fun h => !dead h)) false s
        | none => s

/-! ## Snoops to hosts (R69-R70) -/

/-- How an access counts in Table 3-6. -/
inductive DirUse where
  | hostShared (h : Nat)
  | hostExcl (h : Nat)
  | modRead
  | modWrite
deriving DecidableEq, Repr

/-- A snoop to hosts, if there is anyone to ask. -/
def snoopOf (hs : List Nat) (data drop : Bool) : Option Snoop :=
  if hs.isEmpty then none else some { hosts := hs, data := data, drop := drop }

/-- The back-invalidate an access has to send first (Table 3-6). -/
def dirNeed (s : State) (u : DirUse) (line : Nat) : Option Snoop :=
  let hs := (holders s line).filter (fun h => hostState s h == 1)
  match tagHstate (dirTag s line), u with
  | 0, _ => none
  | 2, .hostShared h => snoopOf (hs.filter (· != h)) true false
  | 2, .hostExcl h => snoopOf (hs.filter (· != h)) true true
  | 2, .modRead => snoopOf hs true false
  | 2, .modWrite => snoopOf hs true true
  | _, .hostShared _ => none
  | _, .modRead => none
  | _, .hostExcl h => snoopOf (hs.filter (· != h)) false true
  | _, .modWrite => snoopOf hs false true

/-- Send back-invalidate snoops, counted per host. -/
def sendBisnp (line : Nat) (sn : Snoop) (s : State) : State :=
  sn.hosts.foldl (fun s h => send (.bisnp h line sn.data) (bump 0x3210 (h + 1) s))
    { s with hosts := { s.hosts with snoops := smPut line sn s.hosts.snoops } }

/-! ## Snoops to tiles (R230, R231, R235) -/

/-- A home's transaction that starts with a snoop. -/
def txn0 (who : TxnFor) : HomeTxn :=
  { who := who, bridges := 0, hitM := 0, hitS := false, ownS := false, data := none, from? := none, granted := false, drop := false }

/-- What a bridge sends the home of its combination of answers (R231). -/
def bridgeDone (line bridge : Nat) (b : BridgeSt) : Msg := .snpDone line bridge (b.hitM % 16) b.hitS b.ownS b.data

/-- A bridge takes a snoop round its ring: it waits for the tiles in the domain, and answers MISS for the others (R231). -/
def bridgeSnoop (line bridge : Nat) (s : State) : State :=
  let left := (List.range (geomTiles s)).filter (fun t => tileRing s t == bridge && inDomain s t)
  let b : BridgeSt := { left := left, hitM := 0, hitS := false, ownS := false, data := none }
  if left.isEmpty then send (bridgeDone line bridge b) s
  else { s with coh := { s.coh with bridges := smPut (line * 8 + bridge) b s.coh.bridges } }

/-- Broadcast a snoop for a line to the eight bridges (R231). -/
def startTxn (line : Nat) (who : TxnFor) (inv : Bool) (requester : Option Nat) (s : State) : State :=
  let s1 := bump 0x3620 1 { s with coh := { s.coh with txns := smPut line (txn0 who) s.coh.txns } }
  (List.range 8).foldl (fun s b => bridgeSnoop line b s) (send (.snoop line inv requester) s1)

/-! ## Presence filter entries (R230, Table 10-2) -/

/-- The 41 bits that CHECK covers: LINE, OWNED, OWNER. -/
def entryBits (line : Nat) (owned : Bool) (owner : Nat) : Nat := line % 2 ^ 34 * 128 + b2n owned * 64 + owner % 64

/-- The column of each data bit in the SEC-DED code of CHECK: the numbers from 3 on that are no power of two (log entry 103). -/
def checkColumns : List Nat := (List.range 48).filter (fun n => decide (3 ≤ n) && !([4, 8, 16, 32] : List Nat).contains n)

/-- The six check bits over the data bits that are 1. -/
def checkSum (w : Nat) : Nat :=
  ((List.range 41).filter (bitOf w)).foldl (fun a k => a ^^^ checkColumns.getD k 0) 0

/-- The parity of a number of up to 48 bits. -/
def parity48 (w : Nat) : Nat := (onesBelow 48 w).length % 2

/-- CHECK: six check bits, and the parity of all of them and the data (SEC-DED). -/
def filterCheck (line : Nat) (owned : Bool) (owner : Nat) : Nat :=
  let w := entryBits line owned owner
  checkSum w + 64 * ((parity48 w + parity48 (checkSum w)) % 2)

/-- An entry with its CHECK. -/
def entryFor (line : Nat) (owned : Bool) (owner : Nat) : FilterEntry :=
  { owned := owned, owner := owner, check := filterCheck line owned owner }

/-- The entry of a line as its CHECK shows it: whole, one wrong bit corrected, or uncorrectable. -/
def checkEntry (line : Nat) (f : FilterEntry) : Option FilterEntry :=
  let w := entryBits line f.owned f.owner
  let syn := checkSum w ^^^ (f.check % 64)
  let odd : Bool := (parity48 w + parity48 (f.check % 128)) % 2 == 1
  if syn = 0 ∧ f.check < 128 then some (entryFor line f.owned f.owner)
  else if !odd then none
  else if ([1, 2, 4, 8, 16, 32] : List Nat).contains syn then some (entryFor line f.owned f.owner)
  else
    match checkColumns.findIdx? (· == syn) with
    | some k =>
      if k < 6 then some (entryFor line f.owned (putBit f.owner k (!bitOf f.owner k)))
      else if k = 6 then some (entryFor line (!f.owned) f.owner)
      else none
    | none => none

/-- What a home finds of a line in its filter: no entry, an entry, or one that cannot be read (none). -/
def filterAt (s : State) (line : Nat) : Option (Option FilterEntry) :=
  match smFind? line s.coh.filter with
  | none => some none
  | some f => (checkEntry line f).map some

/-- A row of an SRAM array that has shown an uncorrectable error is entered in the repair record (R389). -/
def noteSramRow (r : SramRow) (s : State) : State :=
  if s.mram.sramRows.contains r then s else { s with mram := { s.mram with sramRows := s.mram.sramRows ++ [r] } }

/-- The row of a home's filter that holds a line's entry. -/
def noteFilterRow (line : Nat) (s : State) : State :=
  noteSramRow { array := .filter, unit := physStack s (lstackOf (line * 64)), row := line % 4096 } s

/-- A home meets an entry that cannot be read (Table 10-5, cause 0x06). -/
def filterAlarm (line : Nat) (s : State) : State :=
  let s := noteFilterRow line s
  if s.coh.failure.isSome then s else { s with coh := { s.coh with alarm := some (6, line) } }

/-- What an access that is no tile request must do about the tiles first: whether it may go on now (R235, R241). -/
def prepTiles (inv whole : Bool) (line : Nat) (s : State) : Bool × State :=
  match filterAt s line with
  | none => (false, filterAlarm line s)
  | some none => (true, s)
  | some (some f) =>
    if s.coh.failure.isSome then (!f.owned, s)
    else (false, startTxn line (.access inv whole) inv none s)

/-- What an access must do about the hosts first (R69, R78). -/
def prepHosts (u : DirUse) (line : Nat) (s : State) : Bool × State :=
  let s1 := resolveDead line s
  match dirNeed s1 u line with
  | none => (true, s1)
  | some sn => (false, sendBisnp line sn s1)

/-- Is a line taken: by a home's transaction, by a snoop to hosts, or by a row copy (R70, R109, R229)? -/
def lineBusy (s : State) (line : Nat) : Bool :=
  (smFind? line s.coh.txns).isSome || (smFind? line s.hosts.snoops).isSome ||
  (!buddyLine line && s.dram.heldRows.contains (rowKeyOf s (line * 64)))

/-! ## What an access does in its turn -/

/-- The lines of `len` bytes from an address. -/
def linesOf (pa len : Nat) : List Nat :=
  if len = 0 then [] else (List.range ((pa + len - 1) / 64 - pa / 64 + 1)).map (fun i => pa / 64 + i)

/-- The lines an access touches. -/
def opLines : MemOp → List Nat
  | .read pa len => linesOf pa len
  | .readSpan pa smap => ((onesBelow 8 smap).map (fun i => (pa + 32 * i) / 64)).eraseDups
  | .write pa d => linesOf pa d.length
  | .reduce pa _ _ _ => [pa / 64]
  | .reduceSpan pa a mask => ((onesBelow a.length mask).map (fun i => (pa + 4 * i) / 64)).eraseDups
  | .atomic _ pa _ _ _ => [pa / 64]
  | .hostRead _ _ pa => [pa / 64]
  | .hostWrite _ _ pa _ => [pa / 64]
  | .recall pa _ => [pa / 64]
  | .tileGet _ _ pa => [pa / 64]
  | .tilePut _ pa _ => [pa / 64]

/-- The part of write data that falls into a line, as 64 optional bytes. -/
def linePart (pa : Nat) (d : List (Option Byte)) (line : Nat) : List (Option Byte) :=
  (List.range 64).map (fun i => if line * 64 + i < pa then none else (d[line * 64 + i - pa]?).join)

/-- The answer of an access. -/
structure Answer where
  status : Status
  data : Bytes
deriving DecidableEq, Repr

/-- The use of Table 3-6 and the tile snoop (invalidating, whole line) of an access at one of its lines. -/
def opUse (s : State) (op : MemOp) (line : Nat) : DirUse × Bool × Bool :=
  match op with
  | .read _ _ => (.modRead, false, false)
  | .readSpan _ _ => (.modRead, false, false)
  | .write pa d => (.modWrite, true, wholeLine (linePart pa d line))
  | .reduce _ _ m st => (.modWrite, true, st && m == 0xFFFF#16)
  | .reduceSpan _ _ _ => (.modWrite, true, false)
  | .atomic _ _ _ _ _ => (.modWrite, true, false)
  | .hostRead h excl _ => if excl then (if lineWtr s line then .hostShared h else .hostExcl h, true, false)
                          else (.hostShared h, false, false)
  | .hostWrite h _ pa d => (.hostExcl h, true, wholeLine (linePart (pa - pa % 64) d line))
  | .recall _ _ => (.modRead, false, false)
  | .tileGet _ _ _ => (.modRead, false, false)
  | .tilePut _ _ _ => (.modWrite, false, false)

/-- The directory forgets the mark of an undecodable line once an access has been made. -/
def clearAnswered (line : Nat) (s : State) : State :=
  { s with hosts := { s.hosts with answered := s.hosts.answered.filter (· != line) } }

/-- After an uncorrectable read of a line that tiles hold, their clean copies are dropped (R239). -/
def dropTileCopies (line : Nat) (s : State) : State :=
  match smFind? line s.coh.filter with
  | some _ => if (smFind? line s.coh.txns).isNone && s.coh.failure.isNone then startTxn line (.access true false) true none s else s
  | none => s

/-- A module read of one line. -/
def lineReadNow (src : Source) (line : Nat) (s : State) : State × LineRead :=
  let r := readLine src line s
  match r.2 with
  | .uncorrectable => (dropTileCopies line (mirrorTag line r.1), .uncorrectable)
  | x => (r.1, x)

/-- A write of one line by a module unit or a host: the bytes, the new tag, the granule, the mirror. -/
def lineWriteNow (src : Source) (line : Nat) (d : List (Option Byte)) (hs : List Nat) (excl : Bool) (s : State) : State :=
  let r := dirAlloc line hs excl s
  mirrorStored line (clearAnswered line (invalidateGranule line (writeMerged src line d r.1 r.2.1 r.2.2)))

/-- Read lines in order up to the first error. -/
def readLines (src : Source) : List Nat → State → State × Except Status Bytes
  | [], s => (s, .ok [])
  | l :: ls, s =>
    let r := lineReadNow src l s
    match r.2 with
    | .data d =>
      let q := readLines src ls r.1
      match q.2 with
      | .ok ds => (q.1, .ok (d ++ ds))
      | .error e => (q.1, .error e)
    | .poisoned => (r.1, .error .errPoison)
    | .uncorrectable => (r.1, .error .errUncorrectable)

/-- The new value of an atomic (R330). -/
def atomicValue (op : AtomicOp) (size : Nat) (old a b : BitVec 64) : BitVec 64 :=
  let w := 8 * size
  let sg (x : BitVec 64) : Int := signed w x.toNat
  match op with
  | .add => old + a
  | .fadd => (f32Add (old.setWidth 32) (a.setWidth 32)).setWidth 64
  | .swap => a
  | .cas => if old = b then a else old
  | .umin => if old.toNat ≤ a.toNat then old else a
  | .umax => if old.toNat ≤ a.toNat then a else old
  | .smin => if sg old ≤ sg a then old else a
  | .smax => if sg old ≤ sg a then a else old
  | .and => old &&& a
  | .or => old ||| a
  | .xor => old ^^^ a

/-- A reduction packet's new line (R190). -/
def reduceLine (d : Bytes) (addends : List (BitVec 32)) (mask : BitVec 16) : Bytes :=
  ((List.range 16).map (fun i =>
    let x := BitVec.ofNat 32 (leAt d (4 * i) 4)
    leBytes 4 (if mask.getLsbD i then f32Add x (addends.getD i 0) else x).toNat)).flatten

/-- The write data of a storing reduction packet. -/
def reduceStore (addends : List (BitVec 32)) (mask : BitVec 16) : List (Option Byte) :=
  ((List.range 16).map (fun i =>
    if mask.getLsbD i then (leBytes 4 (addends.getD i 0).toNat).map some else List.replicate 4 none)).flatten

/-- The holders after a host's read (Table 3-6). -/
def holdersAfterRead (s : State) (h line : Nat) (excl : Bool) : Option (List Nat × Bool) :=
  let t := dirTag s line
  if excl then some ([h], true)
  else
    match tagHstate t with
    | 0 => some ([h], false)
    | 1 => some (if tagHint t = h then [h] else [min (tagHint t) h, max (tagHint t) h], false)
    | 2 => none
    | _ => if tagHint t = 31 then none
           else some ((List.range 32).filter (fun g => g == h || (dirVector s line).getLsbD g), false)

/-- The holders after a host's write (Table 3-6): the host, but for the write-back of a line it holds exclusively, whose meta
field may give the copy up (R71). -/
def holdersAfterWrite (s : State) (h line : Nat) (keep : Bool) : List Nat :=
  let t := dirTag s line
  if tagHstate t = 2 ∧ tagHint t = h ∧ keep = false then [] else [h]

/-- One line of a reduction: each enabled lane's addend is added to it (R190, R191). -/
def reduceNow (src : Source) (line : Nat) (addends : List (BitVec 32)) (mask : BitVec 16) (s : State) : State × Answer :=
  let r := lineReadNow src line s
  match r.2 with
  | .data d => (lineWriteNow src line ((reduceLine d addends mask).map some) [] false r.1, ⟨.ok, []⟩)
  | .poisoned => (clearAnswered line r.1, ⟨.errPoison, []⟩)
  | .uncorrectable => (clearAnswered line r.1, ⟨.errUncorrectable, []⟩)

/-- The addends of a span that fall into a line, and their mask. -/
def spanLanes (pa line : Nat) (a : List (BitVec 32)) (mask : Nat) : List (BitVec 32) × BitVec 16 :=
  let idx (i : Nat) : Option Nat := if line * 64 + 4 * i < pa then none else some ((line * 64 + 4 * i - pa) / 4)
  ((List.range 16).map (fun i => match idx i with | some k => a.getD k 0 | none => 0),
   BitVec.ofNat 16 ((List.range 16).foldl (fun m i =>
     putBit m i (match idx i with | some k => decide (k < a.length) && bitOf mask k | none => false)) 0))

/-- Perform an access whose turn it is. -/
def perform (src : Source) (op : MemOp) (s : State) : State × Answer :=
  match op with
  | .read pa len =>
    let r := readLines src (linesOf pa len) s
    match r.2 with
    | .ok d => (r.1, ⟨.ok, slice d (pa % 64) len⟩)
    | .error e => (r.1, ⟨e, []⟩)
  | .readSpan pa smap =>
    let ls := opLines op
    let r := readLines src ls s
    match r.2 with
    | .ok d =>
      let sector (i : Nat) : Bytes :=
        if bitOf smap i then slice (d.drop (64 * (ls.idxOf ((pa + 32 * i) / 64)))) ((pa + 32 * i) % 64) 32 else zeros 32
      (r.1, ⟨.ok, ((List.range 8).map sector).flatten⟩)
    | .error e => (r.1, ⟨e, []⟩)
  | .reduceSpan pa a mask =>
    (opLines op).foldl (fun (x : State × Answer) l =>
      let m := spanLanes pa l a mask
      let r := reduceNow src l m.1 m.2 x.1
      (r.1, if x.2.status = .ok then r.2 else x.2)) (s, ⟨.ok, []⟩)
  | .write pa d =>
    ((linesOf pa d.length).foldl (fun s l => lineWriteNow src l (linePart pa d l) [] false s) s, ⟨.ok, []⟩)
  | .reduce pa addends mask st =>
    let line := pa / 64
    if st then (lineWriteNow src line (reduceStore addends mask) [] false s, ⟨.ok, []⟩)
    else reduceNow src line addends mask s
  | .atomic aop pa size a b =>
    let line := pa / 64
    let r := lineReadNow src line s
    match r.2 with
    | .data d =>
      let old : BitVec 64 := BitVec.ofNat 64 (leAt d (pa % 64) size)
      let new := (leBytes size (atomicValue aop size old a b).toNat).map some
      (lineWriteNow src line (linePart pa new line) [] false r.1, ⟨.ok, leBytes 8 old.toNat⟩)
    | .poisoned => (clearAnswered line r.1, ⟨.errPoison, []⟩)
    | .uncorrectable => (clearAnswered line r.1, ⟨.errUncorrectable, []⟩)
  | .hostRead h excl pa =>
    let line := pa / 64
    let n := holdersAfterRead s h line (excl && !lineWtr s line)
    let r := lineReadNow src line s
    let grant (s : State) : State :=
      clearAnswered line (match n with | some (hs, e) => dirSet src line hs e s | none => s)
    match r.2 with
    | .data d => (grant r.1, ⟨.ok, d⟩)
    | .poisoned => (grant r.1, ⟨.errPoison, zeros 64⟩)
    | .uncorrectable => (clearAnswered line r.1, ⟨.errUncorrectable, zeros 64⟩)
  | .hostWrite h keep pa d =>
    let line := pa / 64
    (lineWriteNow src line (linePart (line * 64) d line) (holdersAfterWrite s h line keep) (!lineWtr s line) s, ⟨.ok, []⟩)
  | .recall pa _ => (clearAnswered (pa / 64) s, ⟨if tagPoison (lineTag s (pa / 64)) then .errPoison else .ok, []⟩)
  | .tileGet _ _ _ => (s, ⟨.ok, []⟩)
  | .tilePut _ _ _ => (s, ⟨.ok, []⟩)

/-! ## Grants to tiles (R234) -/

/-- The entries of a line's filter set: its home and the low bits of its line number (R230; log entry 20). -/
def filterSet (s : State) (line : Nat) : List (Nat × FilterEntry) :=
  s.coh.filter.filter (fun e => lstackOf (e.1 * 64) == lstackOf (line * 64) && e.1 % 4096 == line % 4096)

/-- Put a filter entry. -/
def putFilter (line : Nat) (f : FilterEntry) (s : State) : State :=
  { s with coh := { s.coh with filter := smPut line f s.coh.filter } }
def dropFilter (line : Nat) (s : State) : State :=
  { s with coh := { s.coh with filter := smErase line s.coh.filter } }

/-- The grant or ERR_DATA has been sent: the home waits for GACK, after which SNP_I goes out if `drop` (R239). -/
def awaitGack (line t : Nat) (req : TileReq) (drop : Bool) (s : State) : State :=
  { s with coh := { s.coh with txns := smPut line { txn0 (.tile t req) with granted := true, drop := drop } s.coh.txns } }

/-- The end of a tile request at its home, with the combined snoop answer (R234, R239). -/
def completeTile (line t : Nat) (req : TileReq) (x : HomeTxn) (s : State) : State :=
  let s0 := clearAnswered line s
  let give (st : CacheState) (d : Bytes) (s : State) : State :=
    awaitGack line t req false (send (.grant t line st (some d)) (putFilter line (entryFor line (st != .s) (if st = .s then 0 else t)) s))
  let err (drop : Bool) (st : Status) (s : State) : State := awaitGack line t req drop (send (.errData t line st) s)
  if req = .upg ∧ x.ownS = true then
    awaitGack line t req false (send (.grant t line .m none) (putFilter line (entryFor line true t) s0))
  else
    let finish (d : Bytes) (s : State) : State :=
      if req = .gets then
        give (if x.hitM = 0 ∧ x.hitS = false ∧ x.ownS = false ∧ tagHstate (lineTag s line) = 0 ∧ lineDuplex s line = false
              then .e else .s) d s
      else give .m d s
    match (if x.hitM = 1 then x.data else none) with
    | some (d, poison) =>
      if poison then
        let s1 := invalidateGranule line (poisonLine (.tile t) line s0)
        err false .errPoison (if req = .gets then putFilter line (entryFor line false 0) s1 else dropFilter line s1)
      else if req = .gets then finish d (lineWriteNow (.tile t) line (d.map some) [] false s0)
      else finish d s0
    | none =>
      let r := readLine (.tile t) line s0
      let keepInclusive (s : State) : State :=
        if req = .gets ∧ (smFind? line s.coh.filter).isSome = true then putFilter line (entryFor line false 0) s else s
      match r.2 with
      | .data d => finish d r.1
      | .poisoned => err false .errPoison (keepInclusive r.1)
      | .uncorrectable => err (smFind? line s0.coh.filter).isSome .errUncorrectable (keepInclusive (mirrorTag line r.1))

/-! ## Turns (R70, R229) -/

/-- Add one to what is left of a recall, or take one line off it, noting poison. -/
def recallLine (id : Nat) (poison : Bool) (s : State) : State :=
  { s with hosts := { s.hosts with recalls := smAlter id (fun r => { r with left := r.left - 1, poison := r.poison || poison }) s.hosts.recalls } }

/-- The subscriber of a host's traffic (Table 15-1). -/
def hostSub (s : State) (h : Nat) : Nat := obj s 0x2502 (h + 1)

/-- The subscriber of a Narlin endpoint's requests (Table 15-1). -/
def epSub (s : State) (e : Nat) : Nat := field (obj s 0x2503 0) (8 * e + 7) (8 * e)

/-- Is a READ_RESP toward an endpoint paced (R346)? -/
def epPaced (s : State) (e : Nat) : Bool := bitOf (obj s 0x2504 0) e

/-- The RATE (thousands of packets per second) and CAP of a node at a port kind: 0 Narlin, 1 CXL, 2 memory group
(Table 15-5). Service 4 stands for the subscriber node itself. Node 64 is never shaped (R340). -/
def shapeOf (s : State) (sub svc kind : Nat) : Nat × Nat :=
  if 64 ≤ sub then (0, 0)
  else
    let v := if svc = 4 then obj s 0x4500 (sub + 1) else (obj s 0x4501 (sub + 1)) >>> (192 * svc)
    let r := field v (64 * kind + 63) (64 * kind)
    (field r 31 0, field r 47 32)

/-- Is a shaped node's credit at a port below 1 (R337, R344)? Credits are in 1/256 packet. -/
def creditLow (s : State) (sub svc kind : Nat) (credit : Int) : Bool :=
  (shapeOf s sub svc kind).1 != 0 && decide (credit < 256)

/-- The port number of a line's memory-channel group. -/
def memPort (line : Nat) : Nat := 32 + lstackOf (line % buddyBase * 64)

/-- The DevLoad value of a response (Table 15-4). -/
def devLoad (s : State) (line sub : Nat) : Nat :=
  let b := smGet sub0 sub (getSched s (memPort line)).subs
  let v := smGet svc0 3 b.svcs
  let n := v.leaf.length
  let lim := obj s 0x4502 0
  let held := (b.svcs.map (fun e => e.2.leaf.length)).foldl (· + ·) 0
  if lim ≤ n ∨ obj s 0x4503 0 ≤ held ∨ creditLow s sub 4 2 b.credit = true ∨ creditLow s sub 3 2 v.credit = true then 3
  else if lim ≤ 2 * n then 2 else if lim ≤ 4 * n then 1 else 0

/-- Send an answer packet to a Narlin request (R328): its status, and the carried sectors with their SMAP. -/
def answerPacket (p : Packet) (kp : Option Nat) (opc : Nat) (st : Status) (smap : Nat) (sectors : List Bytes)
    (s : State) : State :=
  let hdr := mkHdr opc 1 false (pkSrc p) (ownEp s) (pkTag p) (statusCode st) smap (if opc = 0x20 then pkSpan p else 0)
    (if pkGv p then some (pkGen p) else none)
  originate { outUnit (.pkt (mkPkt hdr sectors)) (epSub s (pkSrc p)) 3 kp with
    paced := opc == 0x20 && epPaced s (pkSrc p) } s

/-- Answer a Narlin request from the answer of its access (Table 14-5). -/
def answerNarlin (p : Packet) (kp : Option Nat) (a : Answer) (s : State) : State :=
  match pkOpc p with
  | 0x01 =>
    if a.status ≠ .ok then answerPacket p kp 0x20 a.status 0 [] s
    else
      let n := pkSpan p + 1
      let secs := (List.range n).map (fun i => slice a.data (32 * i) 32)
      let e := elide (obj s 0x2423 0 == 1) secs
      let want := (List.range n).filter (fun i => bitOf (pkSmap p) i)
      let smap := want.foldl (fun m i => putBit m i (bitOf e.1 i)) 0
      let carried := (want.filter (fun i => bitOf e.1 i)).map (fun i => secs.getD i [])
      answerPacket p kp 0x20 .ok smap carried (countElided want.length carried.length s)
  | 0x02 =>
    if a.status ≠ .ok then answerPacket p kp 0x20 a.status 0 [] s
    else
      let e := elide (obj s 0x2423 0 == 1) [slice a.data 0 32]
      answerPacket p kp 0x20 .ok e.1 e.2 (countElided 1 e.2.length s)
  | 0x05 => if a.status = .ok then s else bump 0x3440 10 s
  | 0x06 =>
    if a.status ≠ .ok then answerPacket p kp 0x22 a.status 0 [zeros 32] s
    else answerPacket p kp 0x22 .ok 1 [slice a.data 0 32] s
  | _ => answerPacket p kp 0x21 a.status 0 [] s

/-- The state a host's read is granted: the one asked for, and never exclusive in a WTR region (R72); none where the line's
tag cannot be trusted. -/
def readGrant (s : State) (excl : Bool) (line : Nat) (st : Status) : HostGrant :=
  if st = .errUncorrectable then .none else if excl && !lineWtr s line then .exclusive else .shared

/-- Deliver an answer to whoever waits for it. -/
def deliverReply (rep : Reply) (op : MemOp) (a : Answer) (s : State) : State :=
  match rep with
  | .none => s
  | .host port ld tag =>
    let h := match op with | .hostRead h _ _ => h | .hostWrite h _ _ _ => h | _ => 0
    let m : Msg := match op with
      | .hostRead _ excl pa => .hostData port ld tag a.data (a.status != .ok) (readGrant s excl (pa / 64) a.status)
          (devLoad s (pa / 64) (hostSub s h))
      | .hostWrite _ _ pa _ => .hostDone port ld tag (devLoad s (pa / 64) (hostSub s h))
      | _ => .hostDone port ld tag 0
    enqueueLeaf (16 + port) (hostSub s h) 3 (.cxl m) s
  | .mem tag => send (.memAnswer tag a.status a.data) s
  | .recall id => recallLine id (a.status != .ok) s
  | .tile => s
  | .narlin p kp => answerNarlin p kp a s
  | .place _ => s
  | .left _ => s

/-- Is an access a write to a duplex line that a host or a Narlin request waits for? Its completion is held until the
buddy has acknowledged the mirror cells (R80, R329). -/
def holdsReply (s : State) (op : MemOp) : Bool :=
  (match op with
   | .write _ _ => true | .reduce _ _ _ _ => true | .reduceSpan _ _ _ => true | .atomic _ _ _ _ _ => true | .hostWrite _ _ _ _ => true
   | _ => false) && (opLines op).any (mirrors s)

/-- Perform an access and deliver or hold its answer. -/
def performFor (r : Req) (s : State) : State :=
  let x := perform r.src r.op s
  if holdsReply x.1 r.op && r.reply != .none then
    { x.1 with buddy := { x.1.buddy with mirror := { x.1.buddy.mirror with
      held := x.1.buddy.mirror.held ++ [{ mseq := mirrorLastSeq x.1, reply := r.reply, op := r.op, status := x.2.status, data := x.2.data }] } } }
  else deliverReply r.reply r.op x.2 x.1

/-- Prepare every line of an access; whether all are ready. -/
def prepLines (op : MemOp) : List Nat → State → Bool × State
  | [], s => (true, s)
  | l :: ls, s =>
    if lineBusy s l then (false, (prepLines op ls s).2)
    else
      let u := opUse s op l
      let a := prepTiles u.2.1 u.2.2 l s
      let b := if a.1 then prepHosts u.1 l a.2 else a
      let c := prepLines op ls b.2
      (b.1 && c.1, c.2)

/-- Store what an M copy's data leaves behind when it goes to DRAM: the bytes, or poison, logged with the tile as its
requester (R234, R239, R241). -/
def storeModified (t line : Nat) (d : Bytes) (poison : Bool) (s : State) : State :=
  if poison then logDramError 0x02 (line * 64) 0xFF (.tile t) (invalidateGranule line (poisonLine (.tile t) line s))
  else invalidateGranule line (writeLine line (slice d 0 64) (mkTag false (tagHstate (lineTag s line)) (tagHint (lineTag s line))) s)

/-- A PUTM or PUTE at its home (R234): taken from the entry's OWNER, else dropped as stale. -/
def takePut (t line : Nat) (data : Option (Bytes × Bool)) (s : State) : State :=
  if ((filterAt s line).join.map (fun f => (f.owned, f.owner))) = some (true, t) then
    let s1 := match data with
      | some (d, poison) => storeModified t line d poison s
      | none => s
    send (.ackPut t line false) (dropFilter line s1)
  else send (.ackPut t line true) (bump 0x3620 3 s)

/-- Give an access its turn: whether it is over, and the state (R69, R229, R230, R234, R235). -/
def runReq (r : Req) (s : State) : Bool × State :=
  match r.op with
  | .recall pa hosts =>
    let line := pa / 64
    if lineBusy s line then (false, s)
    else
      let s1 := resolveDead line s
      let all := (holders s1 line).filter (fun h => hostState s1 h == 1)
      let hs := all.filter (fun h => hosts.contains h)
      if r.snooped || hs.isEmpty then (true, performFor r s1)
      else (false, sendBisnp line { hosts := hs, data := false, drop := hs.length == all.length } s1)
  | .tileGet t req pa =>
    let line := pa / 64
    if s.coh.failure.isSome then (true, s)
    else if lineBusy s line then (false, s)
    else
      let a := prepHosts (if req = .gets then .modRead else .modWrite) line s
      if !a.1 then a
      else
        -- the "module writes" column leaves no holder, whether or not there was a host to ask (R234, R236)
        let b := if req != .gets && tagHstate (dirTag a.2 line) != 0 then dirDrop (.tile t) line a.2 else a.2
        match filterAt b line with
        | none => (false, filterAlarm line b)
        | some (some _) => (true, startTxn line (.tile t req) (req != .gets) (some t) b)
        | some none =>
          let set := filterSet b line
          let free := set.filter (fun e => (smFind? e.1 b.coh.txns).isNone)
          if set.length < 16 then (true, completeTile line t req (txn0 (.tile t req)) b)
          else if set.any (fun e => (smFind? e.1 b.coh.txns).map (·.who) == some .victim) then (false, b)
          else
            let f := takeFree b
            match free[f.1.toNat % free.length]? with
            | some (v, _) => (false, startTxn v .victim true none f.2)
            | none => (false, b)
  | .tilePut t pa data =>
    if lineBusy s (pa / 64) then (false, s) else (true, takePut t (pa / 64) data s)
  | op =>
    let a := prepLines op (opLines op) s
    if a.1 then (true, performFor r a.2) else a

/-- The accesses that wait for jobs satisfying a test are left to complete by themselves: their jobs issue nothing further
(R372), and an access that its home has accepted is performed (R374, R378). -/
def leaveAccesses (f : Nat → JobSt → Bool) (s : State) : State :=
  { s with hosts := { s.hosts with waiting := s.hosts.waiting.map (fun r =>
      match r.reply with
      | .place (.job j) =>
        (match getJob? s j with
         | some x => if x.phase = .running ∧ f j x = true then
             { r with reply := .left x.part, src := if x.tile = 0xFF then .bassoon else .tile x.tile } else r
         | none => r)
      | _ => r) } }

/-- Is the issuer of a place still there to take it? -/
def placeLive (s : State) : Placer → Bool
  | .job j =>
    match getJob? s j with
    | some x => x.phase == .running && (getPart s x.part).fence.isNone && (x.tile == 0xFF || s.coh.failure.isNone)
    | none => false
  | .front p => partState s p != 0 && (getPart s p).fence.isNone &&
      s.work.queues.any (fun e => e.2.en || !e.2.held.isEmpty)
  | .blob => s.sec.blob.isSome
  | .copy r => ((getRegion s r).ops.head?.map (·.copying)).getD false
  | .fill b => s.work.fills.any (fun f => f.1 == b) ||
      s.hosts.regions.any (fun e => (e.2.state == .filling || e.2.state == .sanitising) && regionHas e.2 b)

/-- Is a waiting access a place whose issuer is gone? -/
def placeVoid (s : State) (r : Req) : Bool :=
  match r.reply with
  | .place p => !placeLive s p
  | _ => false

/-- Does a waiting access only keep a place? -/
def isPlace (r : Req) : Bool := match r.reply with | .place _ => true | _ => false

/-- Give every waiting access its turn in arrival order; one behind a waiting access to its line goes on waiting, and a place
is kept until its issuer takes it. -/
def pump (s : State) : State :=
  ((s.hosts.waiting.filter (fun r => !placeVoid s r)).foldl (fun (acc : State × List Nat) r =>
    let ls := opLines r.op
    if isPlace r || ls.any acc.2.contains then (acc.1, acc.2 ++ ls)
    else
      let x := runReq r acc.1
      if x.1 then ({ x.2 with hosts := { x.2.hosts with waiting := x.2.hosts.waiting.filter (fun q => q.id != r.id) } }, acc.2)
      else (x.2, acc.2 ++ ls))
    ({ s with hosts := { s.hosts with waiting := s.hosts.waiting.filter (fun r => !placeVoid s r) } }, [])).1

/-- Does a waiting access touch one of the lines? -/
def waitsOn (s : State) (ls : List Nat) : Bool :=
  s.hosts.waiting.any (fun q => !placeVoid s q && (opLines q.op).any ls.contains)

/-- Does an access of another party that touches one of the lines wait before an issuer's place for an access? -/
def waitsBefore (s : State) (p : Placer) (op : MemOp) : Bool :=
  let ahead := s.hosts.waiting.takeWhile (fun r => !(r.reply == .place p && r.op == op))
  ahead.any (fun q => q.reply != .place p && !placeVoid s q && (opLines q.op).any (opLines op).contains)

/-- Keep an issuer's places for accesses that wait: those it has, if they are for just these accesses, or new ones at the
end of the order, in place of all it had. -/
def keepPlaces (p : Placer) (ops : List MemOp) (s : State) : State :=
  let mine := s.hosts.waiting.filter (fun r => r.reply == .place p)
  if mine.map (·.op) = ops then s
  else
    let new := (List.range ops.length).map (fun i =>
      { id := s.hosts.nextReq + i, src := .bassoon, op := ops.getD i (.read 0 0), reply := .place p, snooped := false : Req })
    { s with hosts := { s.hosts with
      nextReq := s.hosts.nextReq + ops.length
      waiting := s.hosts.waiting.filter (fun r => r.reply != .place p) ++ new } }

/-- Give up an issuer's places for accesses whose turn has come. -/
def takePlaces (p : Placer) (ops : List MemOp) (s : State) : State :=
  { s with hosts := { s.hosts with
    waiting := s.hosts.waiting.filter (fun r => !(r.reply == .place p && ops.contains r.op)) } }

/-- Prepare several accesses of an issuer; whether all are ready. -/
def prepEach (p : Placer) : List MemOp → State → Bool × State
  | [], s => (true, s)
  | o :: os, s =>
    if waitsBefore s p o then (false, (prepEach p os s).2)
    else
      let a := prepLines o (opLines o) s
      let b := prepEach p os a.2
      (a.1 && b.1, b.2)

/-- Prepare the accesses that an issuer makes together: whether their turn is now; if not, their places are kept (R70, R229). -/
def prepAll (p : Placer) (ops : List MemOp) (s : State) : Bool × State :=
  let a := prepEach p ops s
  (a.1, if a.1 then takePlaces p ops a.2 else keepPlaces p ops a.2)

/-- An access arrives at its home: it takes its turn at once if it can, and otherwise waits. -/
def submit (src : Source) (op : MemOp) (reply : Reply) (s : State) : State :=
  let r : Req := { id := s.hosts.nextReq, src := src, op := op, reply := reply, snooped := false }
  let s0 := { s with hosts := { s.hosts with nextReq := s.hosts.nextReq + 1 } }
  let enq (s : State) : State := { s with hosts := { s.hosts with waiting := s.hosts.waiting ++ [r] } }
  if waitsOn s0 (opLines op) then enq s0
  else
    let x := runReq r s0
    if x.1 then x.2 else enq x.2

/-- What an access by a job or a tile gives at once. -/
inductive MemResult where
  | ok (d : Bytes)
  | err (st : Status)
  /-- it has to wait for a snoop or for accesses before it: the job is issued again later (log entry 9) -/
  | blocked
deriving DecidableEq, Repr

/-- An access that a job, a front end or Bassoon makes in passing: performed if its turn is now; if not, its place is kept. -/
def tryMem (p : Placer) (src : Source) (op : MemOp) (s : State) : MemResult × State :=
  let a := prepAll p [op] s
  if a.1 then
    let x := perform src op a.2
    (if x.2.status = .ok then .ok x.2.data else .err x.2.status, x.1)
  else (.blocked, a.2)

/-! ## Host answers (R70, R77) -/

/-- A host's answer to a back-invalidate: its modified data, if any, and whether it gave the line up. -/
def answerSnoop (h line : Nat) (gaveUp : Bool) (data : Option Bytes) (s : State) : State :=
  match smFind? line s.hosts.snoops with
  | none => s
  | some sn =>
    if !sn.hosts.contains h then s
    else
      let t := lineTag s line
      let s1 := match data with
        | some d => mirrorStored line (invalidateGranule line (writeLine line (slice d 0 64) (mkTag false (tagHstate t) (tagHint t)) s))
        | none => s
      let gone : Bool := gaveUp || sn.drop || !sn.data
      let t1 := lineTag s1 line
      let s2 :=
        match tagHstate t1 with
        | 0 => s1
        | 3 => if tagHint t1 = 31 then s1
               else if gone then dirSet (.host h) line ((vecHosts (dirVector s1 line)).filter (· != h)) false s1 else s1
        | _ => if tagHint t1 = h then (if gone then dirSet (.host h) line [] false s1 else dirSet (.host h) line [h] false s1) else s1
      let left := sn.hosts.filter (· != h)
      if !left.isEmpty then { s2 with hosts := { s2.hosts with snoops := smPut line { sn with hosts := left } s2.hosts.snoops } }
      else
        let s3 := { s2 with hosts := { s2.hosts with snoops := smErase line s2.hosts.snoops } }
        let s4 := if sn.drop then dirDrop (.host h) line s3 else s3
        { s4 with hosts := { s4.hosts with waiting := markFirst line s4.hosts.waiting } }
where
  /-- the recall at the head of the line's queue has had its answers -/
  markFirst (line : Nat) : List Req → List Req
    | [] => []
    | r :: rs =>
      match r.op with
      | .recall pa _ => if pa / 64 = line then { r with snooped := true } :: rs else r :: markFirst line rs
      | _ => if (opLines r.op).contains line then r :: rs else r :: markFirst line rs

/-- Was a line left behind, poisoned, by a stack that stopped answering (R113)? -/
def lineLost (s : State) (line : Nat) : Bool :=
  match smFind? (lstackOf (line * 64) * 4096 + line >>> 22) s.dram.lost with
  | some ptr => decide (ptr ≤ setOffset (line * 64))
  | none => false

/-- The lines that have anything stored, rising, that satisfy a test. -/
def storedLines (s : State) (f : Nat → Bool) : List Nat :=
  (s.dram.cells.foldr (fun c acc =>
    let line := (c.1 % 2 ^ 48) / 128
    if f line && !acc.contains line && decide (c.1 / 2 ^ 48 = physStack s (lstackOf (line * 64))) then line :: acc else acc) [])

/-- The lines of some blocks that do not read as clean zeros: those with anything stored, and those a lost stack left
poisoned. -/
def keptLines (s : State) (bs : List Nat) : List Nat :=
  let st := storedLines s (fun l => bs.contains (l >>> 22)) ++
    (s.buddy.mirror.copy.map (fun e => buddyBase + e.1)).filter (fun l => bs.contains (l >>> 22))
  if s.dram.lost.isEmpty then st
  else (bs.flatMap (fun b => (List.range (2 ^ 22)).map (b * 2 ^ 22 + ·))).filter (fun l => st.contains l || lineLost s l)

end Sys2Proof.Machine
end

