-- ==== Sys2Proof/Machine/Xlate.lean ====
section
/-!
DEFINITION. Translation at submission (spec/02 R41-R52): page-table walks, the translation cache, sealing an operand.
-/
namespace Sys2Proof.Machine

/-- Where a VA leads: a fabric address and how many bytes of the same leaf follow from there. -/
structure XlOut where
  ep : Nat
  addr : Nat
  room : Nat
deriving DecidableEq, Repr

/-- How a walk ends. -/
inductive XlRes where
  | ok (o : XlOut)
  | err (st : Status)
  | blocked
deriving DecidableEq, Repr

/-- The lowest VA bit that a level's index covers (Table 2-3). -/
def xlShift (lvl : Nat) : Nat := if lvl = 1 then 34 else if lvl = 2 then 25 else 16

/-- The place of an entry in the translation cache. -/
def xlKey (lvl va : Nat) : Nat := lvl * 2 ^ 48 + va >>> xlShift lvl

/-- Does the front end use a cached entry? It may keep entries and may use either (R47): a free choice. -/
def xlCached (p lvl va : Nat) (s : State) : Option Nat × State :=
  match smFind? (xlKey lvl va) (getPart s p).xcache with
  | none => (none, s)
  | some e =>
    let f := takeFree s
    (if f.1.getLsbD 0 then some e else none, f.2)

/-- Is an address in a block assigned to the partition (R43, R44)? -/
def partHolds (s : State) (p addr : Nat) : Bool := decide (addr < metaBase) && partRight s p (addr >>> 28) != 0

/-- Do a leaf's bits and a block's right permit an access (R45, Table 2-5)? -/
def leafAllows (e : Nat) (k : AccKind) : Bool :=
  match k with
  | .read => bitOf e 2
  | .write => bitOf e 3
  | .atomic => bitOf e 2 && bitOf e 3 && bitOf e 4

/-- The end of a walk at a leaf of a level: R43's last check, R44, R45, the output of R42. -/
def xlLeaf (s : State) (p : Nat) (k : AccKind) (lvl va e : Nat) : XlRes :=
  let size := 2 ^ xlShift lvl
  let ep := field e 51 44
  let base := field e 43 16 * 2 ^ 16
  if lvl = 2 ∧ field e 24 16 ≠ 0 then .err .errTranslate
  else if ep = ownEp s ∧ (field e 43 40 ≠ 0 ∨ partHolds s p (base + va % size) = false) then .err .errPermission
  else if ep ≠ ownEp s ∧ bitOf (obj s 0x2111 (p + 1)) ep = false then .err .errPermission
  else if leafAllows e k = false then .err .errPermission
  else if ep = ownEp s ∧ k ≠ .read ∧ partRight s p ((base + va % size) >>> 28) ≠ 2 then .err .errPermission
  else .ok { ep := ep, addr := base + va % size, room := size - va % size }

/-- Read one entry: from the cache or from table memory (R46). -/
def xlEntry (p lvl va base : Nat) (s : State) : Except Status (Option Nat) × State :=
  match xlCached p lvl va s with
  | (some e, s1) => (.ok (some e), s1)
  | (none, s1) =>
    let idx := (va >>> xlShift lvl) % (if lvl = 1 then 16384 else 512)
    match tryMem (.front p) .walker (.read (base + 8 * idx) 8) s1 with
    | (.ok d, s2) =>
      let e := leAt d 0 8
      (.ok (some e), updPart p (fun x => { x with xcache := smPut (xlKey lvl va) e x.xcache }) s2)
    | (.err st, s2) => (.error st, s2)
    | (.blocked, s2) => (.ok none, s2)

/-- The levels of a walk from `lvl` on (R43). -/
def xlLevels (p : Nat) (k : AccKind) (va : Nat) : Nat → Nat → Nat → State → XlRes × State
  | 0, _, _, s => (.err .errTranslate, s)
  | n + 1, lvl, base, s =>
    if partHolds s p base = false then (.err .errPermission, s)
    else
      match xlEntry p lvl va base s with
      | (.error st, s1) => (.err st, s1)
      | (.ok none, s1) => (.blocked, s1)
      | (.ok (some e), s1) =>
        if bitOf e 0 = false then (.err .errTranslate, s1)
        else if bitOf e 1 then (if lvl = 1 then .err .errTranslate else xlLeaf s1 p k lvl va e, s1)
        else if lvl = 3 then (.err .errTranslate, s1)
        else xlLevels p k va n (lvl + 1) (field e 39 12 * 2 ^ 12) s1

/-- A cached leaf the front end uses for a VA. DESIGN CHOICE (log entry 100): no walk begins then (XL_WALKS), and the root's
block is not checked again; the checks of R44 and R45 are made on the leaf as R47 asks. -/
def xlHit (p va : Nat) (s : State) : Option (Nat × Nat) × State :=
  match xlCached p 3 va s with
  | (some e, s1) => (if bitOf e 0 && bitOf e 1 then some (3, e) else none, s1)
  | (none, s1) =>
    match xlCached p 2 va s1 with
    | (some e, s2) => (if bitOf e 0 && bitOf e 1 then some (2, e) else none, s2)
    | (none, s2) => (none, s2)

/-- A walk begins, and is counted; one that an entry read holds up goes on (XL_WALKS, R55). -/
def walkBegins (p va : Nat) (s : State) : State :=
  if (getPart s p).walks.contains va then s
  else pbump p 0x6110 1 1 (updPart p (fun x => { x with walks := va :: x.walks }) s)

/-- A walk ends. -/
def walkEnds (p va : Nat) (s : State) : State :=
  updPart p (fun x => { x with walks := x.walks.filter (· != va) }) s

/-- Walk for one VA (R43). -/
def xlWalk (p : Nat) (k : AccKind) (va : Nat) (s : State) : XlRes × State :=
  let root := pobj s p 0x6100 0
  let s1 := walkBegins p va s
  let r := if bitOf root 0 = false then (.err .errPermission, s1) else xlLevels p k va 3 1 (field root 39 17 * 2 ^ 17) s1
  match r.1 with
  | .blocked => r
  | x => (x, walkEnds p va r.2)

/-- Translate one VA (R41-R47). -/
def xlate (p : Nat) (k : AccKind) (va : Nat) (s : State) : XlRes × State :=
  match xlHit p va s with
  | (some (lvl, e), s1) => (xlLeaf s1 p k lvl va e, s1)
  | (none, s1) => xlWalk p k va s1

/-- The most recent translation failure (Table 2-7). -/
def xlFault (p va : Nat) (st : Status) (s : State) : State :=
  setPobj p 0x6103 0 (va % 2 ^ 48 + statusCode st * 2 ^ 56) s

/-- How the translation of a range ends. -/
inductive SealRes where
  | ok (exts : List Ext)
  | err (st : Status) (va : Nat)
  | blocked
deriving DecidableEq, Repr

/-- An extent after those before it: merged with the last one where the outputs are adjacent (R48). -/
def extPush (e : Ext) : List Ext → List Ext
  | [] => [e]
  | [l] => if l.ep = e.ep ∧ l.addr + l.len = e.addr then [{ l with len := l.len + e.len }] else [l, e]
  | x :: xs => x :: extPush e xs

/-- Translate the bytes of a range in ascending order. -/
def xlRange (p : Nat) (k : AccKind) : Nat → Nat → Nat → List Ext → State → SealRes × State
  | 0, _, _, acc, s => (.ok acc, s)
  | n + 1, va, len, acc, s =>
    if len = 0 then (.ok acc, s)
    else
      match xlate p k va s with
      | (.err st, s1) => (.err st va, s1)
      | (.blocked, s1) => (.blocked, s1)
      | (.ok o, s1) =>
        let l := min len o.room
        xlRange p k n (va + l) (len - l) (extPush { ep := o.ep, addr := o.addr, len := l } acc) s1

/-- Translate an operand (R50). DESIGN CHOICE (log entry 100): one of too many extents fails once all of it is translated, so
that a byte of it that fails is reported first, and DETAIL and PT_FAULT_LAST hold its VA. -/
def sealOperand (p va len : Nat) (k : AccKind) (s : State) : SealRes × State :=
  if 2 ^ 48 < va + len then (.err .errTranslate va, s)
  else
    match xlRange p k (len / 65536 + 2) va len [] s with
    | (.ok exts, s1) => (if obj s1 0x4110 0 < exts.length then .err .errFormat va else .ok exts, s1)
    | r => r

/-- Forget the cached entries of a range of VAs (R47, R55). -/
def xlClear (p lo len : Nat) (s : State) : State :=
  updPart p (fun x => { x with xcache := x.xcache.filter (fun e =>
    let sh := xlShift (e.1 / 2 ^ 48)
    let a := (e.1 % 2 ^ 48) * 2 ^ sh
    !(decide (a < lo + len) && decide (lo < a + 2 ^ sh))) }) s

/-- Forget every cached entry of a partition. -/
def xlClearAll (p : Nat) (s : State) : State := updPart p (fun x => { x with xcache := [] }) s

end Sys2Proof.Machine
end

