-- ==== Sys2Proof/Machine/JobMem.lean ====
section
/-!
DEFINITION. What jobs share: their descriptor fields, admission by the scheduler (spec/15 R343, R344), their reads and
writes of operands (R48, R51, R333, R458), the start of a partition fence (spec/17 R372).
-/
namespace Sys2Proof.Machine

/-! ## Descriptor fields (Table 5-5, Table 5-9) -/

def dOpc (d : Bytes) : Nat := leAt d 0 1
def dIrq (d : Bytes) : Bool := bitOf (leAt d 1 1) 0
def dNoWait (d : Bytes) : Bool := bitOf (leAt d 1 1) 1
def dFenceBefore (d : Bytes) : Bool := bitOf (leAt d 1 1) 2
def dCtx? (d : Bytes) : Option Nat := if bitOf (leAt d 2 2) 15 then some (leAt d 2 2 % 1024) else none
def dGen (d : Bytes) : Nat := leAt d 4 1
def dTile (d : Bytes) : Nat := leAt d 5 1
def dBudget (d : Bytes) : Nat := leAt d 8 4

/-- The service a job is charged to: 0 attention, 1 update, 2 move, 3 access (Table 5-9; SERVICE for PROG_RUN). -/
def dSvc (d : Bytes) : Nat :=
  match dOpc d with
  | 0x01 => 2 | 0x02 => 2 | 0x03 => 2 | 0x40 => 2
  | 0x10 => 0 | 0x11 => 0
  | 0x20 => 1 | 0x21 => 1 | 0x22 => 1
  | 0x51 => leAt d 100 1 % 4
  | _ => 3

/-- Does an operation need a context: `none` for an opcode Table 5-9 does not list. -/
def opcNeedsCtx (opc : Nat) : Option Bool :=
  if [0x08, 0x09, 0x10].contains opc then some true
  else if [0x00, 0x01, 0x02, 0x03, 0x11, 0x20, 0x21, 0x22, 0x30, 0x40, 0x50, 0x51, 0x60].contains opc then some false
  else none

/-- Does Bassoon or the front end run a job of this opcode (its record's TILE is 0xFF)? -/
def opcNoTile (opc : Nat) : Bool := [0x00, 0x01, 0x02, 0x03, 0x60].contains opc

/-- DETAIL of a failure in its class, bits 63:62 (R181, R208, R333). -/
def detail (cls v : Nat) : Nat := cls * 2 ^ 62 + v

/-! ## Partition state and fences (R352, R372, R385) -/

/-- Set a partition's state and send the partition-state event: PART, the state, the cause of a fence (R377). -/
def setPartState (p st cause : Nat) (s : State) : State :=
  raiseEvent 0x0050 (leBytes 1 p ++ leBytes 1 st ++ leBytes 1 cause ++ zeros 5 ++ leBytes 8 s.ptime) (setObj 0x3110 (p + 1) st s)

/-- Is a partition under a fence? -/
def fencing (s : State) (p : Nat) : Bool := (getPart s p).fence.isSome

/-! ## Admission (Table 15-3) -/

/-- What the scheduler decides. -/
inductive Admission where
  | served
  | refused (code : Nat)
  | delayed (code : Nat)
deriving DecidableEq, Repr

/-- Packets in the leaves of a subscriber at a port. -/
def subHeld (s : State) (port sub : Nat) : Nat :=
  (((smGet sub0 sub (getSched s port).subs).svcs.map (fun e => e.2.leaf.length)).foldl (· + ·) 0)

/-- Packets in the port's shared buffer. -/
def portHeld (s : State) (port : Nat) : Nat :=
  ((getSched s port).subs.map (fun e => (e.2.svcs.map (fun v => v.2.leaf.length)).foldl (· + ·) 0)).foldl (· + ·) 0 +
  (getSched s port).delayed.length

/-- The credit rule at a port of a kind (R337). -/
def creditAdmission (s : State) (port kind sub svc : Nat) : Admission :=
  let b := smGet sub0 sub (getSched s port).subs
  let v := smGet svc0 svc b.svcs
  if creditLow s sub 4 kind b.credit then .delayed 0x01
  else if creditLow s sub svc kind v.credit then .delayed 0x02
  else .served

/-- The outcome at a line's memory-channel group. -/
def admitMem (s : State) (line sub svc : Nat) : Admission :=
  let port := memPort line
  if 1024 ≤ portHeld s port then .refused 0x10
  else if obj s 0x4503 0 ≤ subHeld s port sub then .refused 0x11
  else if obj s 0x4502 0 ≤ (smGet svc0 svc (smGet sub0 sub (getSched s port).subs).svcs).leaf.length then .refused 0x12
  else creditAdmission s port 2 sub svc

/-- The outcome at the Narlin egress port an extent's endpoint is reached by (R314, R327). -/
def admitNarlin (s : State) (dst sub svc : Nat) : Admission :=
  match choosePort s dst 2 false false with
  | .go port =>
    match creditAdmission s port 0 sub svc with
    | .served => .served
    | r => r
  | .wait => .delayed 0x03
  | .unroutable => .served

/-- Count a refusal under its reason, with SCH_LAST_REFUSAL (R344). -/
def countRefused (sub svc code port kind : Nat) (s : State) : State :=
  if 64 ≤ sub then bump 0x3502 3 s
  else
    setPobj sub 0x6511 0 (s.ptime % 2 ^ 64 / 2 ^ 24 * 2 ^ 24 + (port % 64) * 2 ^ 14 + kind * 2 ^ 12 + svc * 2 ^ 10 + code)
      (pbump sub 0x6510 (code - 0x10 + 6) 1 s)

/-- Count a first delay under its reason (R344). -/
def countDelayed (sub code : Nat) (s : State) : State :=
  if 64 ≤ sub then bump 0x3502 2 s else pbump sub 0x6510 (code + 2) 1 s

/-! ## A job's packets -/

/-- The requester a job's local accesses are logged as. -/
def jobSrc (x : JobSt) : Source := if x.tile = 0xFF then .bassoon else .tile x.tile

/-- A piece of an operand range in one extent: where it is, and its offset from the start of the range. -/
structure Piece where
  ep : Nat
  addr : Nat
  off : Nat
  len : Nat
deriving DecidableEq, Repr

/-- The pieces of bytes `off` to `off + n` of a list of extents; `base` is where the range's first piece goes. -/
def pieces : List Ext → Nat → Nat → Nat → List Piece
  | [], _, _, _ => []
  | e :: es, off, n, base =>
    if n = 0 then []
    else if e.len ≤ off then pieces es (off - e.len) n base
    else
      let l := min n (e.len - off)
      { ep := e.ep, addr := e.addr + off, off := base, len := l } :: pieces es 0 (n - l) (base + l)

/-- A piece cut at the line boundaries, so that a failing line is known by its place (R181, R201, R333). -/
def linePieces (p : Piece) : List Piece :=
  (linesOf p.addr p.len).map (fun l =>
    let a := max p.addr (64 * l)
    { p with addr := a, off := p.off + (a - p.addr), len := min (p.addr + p.len) (64 * l + 64) - a })

/-- An operand of a job. -/
def opd (x : JobSt) (k : Nat) : Operand := x.operands.getD k { va := 0, len := 0, kind := .read, exts := [] }

/-- The requests a job makes at memory-channel groups, of at most 256 bytes each, charged to its subscriber (R335,
R336). -/
def memTokens (x : JobSt) (addr len : Nat) (s : State) : State :=
  if len = 0 then s
  else
    (List.range ((addr + len - 1) / 256 - addr / 256 + 1)).foldl (fun s i =>
      let line := max addr ((addr / 256 + i) * 256) / 64
      enqueueLeaf (memPort line) x.part (dSvc x.desc) (.mem line false 0) s) s

/-- Perform accesses that are ready, in order, up to the first error: the bytes read, or the error and the number of
accesses before it. -/
def performAll (src : Source) : List MemOp → State → Except (Status × Nat) (List Bytes) × State
  | [], s => (.ok [], s)
  | o :: os, s =>
    let x := perform src o s
    if x.2.status ≠ .ok then (.error (x.2.status, 0), x.1)
    else
      match performAll src os x.1 with
      | (.ok ds, s2) => (.ok (x.2.data :: ds), s2)
      | (.error (st, n), s2) => (.error (st, n + 1), s2)

/-- The request of a job's tile at a line's memory-channel group, charged likewise (R209). -/
def chargeLine (j line : Nat) (s : State) : State :=
  match getJob? s j with
  | some x => memTokens x (line * 64) 64 s
  | none => s

/-- The generation a job's packets carry (R132). -/
def jobGv (x : JobSt) : Option Nat := match dCtx? x.desc with | some _ => some (dGen x.desc) | none => none

/-- Send a request of a job to another endpoint, counted on a channel. -/
def jobReq (j : Nat) (x : JobSt) (chan : Nat) (who : ReqFor) (opc tc dst addr smap span : Nat) (sectors : List Bytes)
    (s : State) : State :=
  originateReq who x.part x.part (dSvc x.desc) (jobGv x) opc tc dst addr smap span sectors (jobSent j chan 1 s)

/-- The READ packets of a remote piece: spans of at most eight sectors (R307). -/
def readRemote (j : Nat) (x : JobSt) (chan slot off at_ : Nat) (pc : Piece) (s : State) : State :=
  let a0 := pc.addr - pc.addr % 32
  let stop := pc.addr + pc.len
  (List.range ((stop - a0 + 255) / 256)).foldl (fun s i =>
    let a := a0 + 256 * i
    let lead := pc.addr - a
    let last := min stop (a + 256)
    let span := (last - a + 31) / 32 - 1
    jobReq j x chan (.jobRead j chan slot (off + pc.off + (a + lead - pc.addr)) lead (last - (a + lead)) (at_ + pc.off + (a + lead - pc.addr)))
      0x01 2 pc.ep a (2 ^ (span + 1) - 1) span [] s) s

/-- Are the bytes of a remote piece here? -/
def remoteHere (x : JobSt) (slot off : Nat) (pc : Piece) : Bool :=
  (List.range pc.len).all (fun i => (smFind? (slot * 2 ^ 40 + off + pc.off + i) x.remote).isSome)

/-- Ask for remote pieces that are not here, once what the channel has asked for has come. -/
def askRemote (j : Nat) (x : JobSt) (chan slot off at_ : Nat) (miss : List Piece) (s : State) : State :=
  if jobOut x chan = 0 then miss.foldl (fun s p => readRemote j x chan slot off at_ p s) s else s

/-- The bytes of remote pieces put into a range's bytes. -/
def fillRemote (x : JobSt) (slot off : Nat) (rem : List Piece) (got : Bytes) : Bytes :=
  rem.foldl (fun acc p => splice acc p.off
    ((List.range p.len).map (fun i => (smFind? (slot * 2 ^ 40 + off + p.off + i) x.remote).getD 0))) got

/-- What an operand access of a job gives. -/
inductive OpRes where
  | ok (d : Bytes)
  /-- the status, and the offset in the first operand that DETAIL reports (R333) -/
  | err (st : Status) (at_ : Nat)
  | blocked
deriving DecidableEq, Repr

/-- The remote pieces of a range whose bytes are not here. -/
def remoteMiss (s : State) (x : JobSt) (slot : Nat) (o : Operand) (off n : Nat) : List Piece :=
  (pieces o.exts off n 0).filter (fun p => p.ep != ownEp s && !remoteHere x slot off p)

/-- Bytes `off` to `off + n` of an operand, whatever error the channel has met elsewhere (R48, R328): local bytes at their homes,
remote bytes with READ. `at_` is the offset in the first operand that the first byte of the range counts as. -/
def opFetch (j chan slot : Nat) (o : Operand) (off n at_ : Nat) (s : State) : OpRes × State :=
  match getJob? s j with
  | none => (.blocked, s)
  | some x =>
    let ps := pieces o.exts off n 0
    let miss := remoteMiss s x slot o off n
    if !miss.isEmpty then
      (.blocked, askRemote j x chan slot off at_ miss s)
    else
      let loc := ((ps.filter (fun p => p.ep == ownEp s)).map linePieces).flatten
      let a := prepAll (.job j) (loc.map (fun p => .read p.addr p.len)) s
      if !a.1 then (.blocked, a.2)
      else
        match performAll (jobSrc x) (loc.map (fun p => .read p.addr p.len)) a.2 with
        | (.error (st, k), s2) => (.err st (at_ + (loc.getD k ⟨0, 0, 0, 0⟩).off), s2)
        | (.ok ds, s2) =>
          let s3 := (ps.filter (fun p => p.ep == ownEp s)).foldl (fun s p => memTokens x p.addr p.len s) s2
          let fill (acc : Bytes) (q : Piece × Bytes) : Bytes := splice acc q.1.off q.2
          (.ok (fillRemote x slot off (ps.filter (fun p => p.ep != ownEp s)) ((loc.zip ds).foldl fill (zeros n))), s3)

/-- Read bytes of an operand, or meet the error of its channel. -/
def opRead (j chan slot : Nat) (o : Operand) (off n at_ : Nat) (s : State) : OpRes × State :=
  match getJob? s j with
  | none => (.blocked, s)
  | some x =>
    match smFind? chan x.remoteErr with
    | some (st, a) => (.err st a, s)
    | none => opFetch j chan slot o off n at_ s

/-- The packets that write a run of bytes at another endpoint (R458): opcode, address, SMAP or BE, SPAN, sectors. -/
def writePackets (on : Bool) : Nat → Nat → Bytes → List (Nat × Nat × Nat × Nat × List Bytes)
  | 0, _, _ => []
  | n + 1, a, bs =>
    if bs.isEmpty then []
    else if a % 32 = 0 ∧ 32 ≤ bs.length then
      let k := min 8 (bs.length / 32)
      let e := elide on (toSectors k bs)
      (0x03, a, e.1, k - 1, e.2) :: writePackets on n (a + 32 * k) (bs.drop (32 * k))
    else
      let w := min bs.length (8 - a % 8)
      (0x04, a - a % 8, (2 ^ w - 1) * 2 ^ (a % 8), 0, [slice (zeros (a % 8) ++ bs.take w) 0 32]) ::
        writePackets on n (a + w) (bs.drop w)

/-- A run that covers only part of a sector ends at the sector's end: bytes up to there, then whole sectors. -/
def writeRuns (on : Bool) (a : Nat) (bs : Bytes) : List (Nat × Nat × Nat × Nat × List Bytes) :=
  writePackets on (bs.length + 1) a bs

/-- Write a remote piece. -/
def writeRemote (j : Nat) (x : JobSt) (chan tc at_ : Nat) (pc : Piece) (data : Bytes) (s : State) : State :=
  (writeRuns (obj s 0x2423 0 == 1) pc.addr (slice data pc.off pc.len)).foldl (fun s w =>
    let k := if w.1 = 0x03 then w.2.2.2.1 + 1 else 0
    jobReq j x chan (.jobWrite j chan (at_ + pc.off + (w.2.1 - pc.addr))) w.1 (if w.1 = 0x04 then 0 else tc) pc.ep w.2.1
      w.2.2.1 w.2.2.2.1 w.2.2.2.2 (countElided k (if w.1 = 0x03 then w.2.2.2.2.length else 0) s)) s

/-- The local writes of a range. -/
def localWrites (s : State) (ps : List Piece) (data : Bytes) : List MemOp :=
  (ps.filter (fun p => p.ep == ownEp s)).map (fun p => .write p.addr ((slice data p.off p.len).map some))

/-- Write bytes at an offset of an operand: `blocked` before anything is written while a line has to wait. -/
def opWrite (j chan : Nat) (o : Operand) (off tc : Nat) (data : Bytes) (at_ : Nat) (s : State) : OpRes × State :=
  match getJob? s j with
  | none => (.blocked, s)
  | some x =>
    let ps := pieces o.exts off data.length 0
    let ws := localWrites s ps data
    let a := prepAll (.job j) ws s
    if !a.1 then (.blocked, a.2)
    else
      match performAll (jobSrc x) ws a.2 with
      | (.error (st, _), s2) => (.err st at_, s2)
      | (.ok _, s2) =>
        let s3 := (ps.filter (fun p => p.ep == ownEp s)).foldl (fun s p => memTokens x p.addr p.len s) s2
        let s4 := (ps.filter (fun p => p.ep != ownEp s)).foldl (fun s p => writeRemote j x chan tc at_ p data s) s3
        (.ok [], s4)

/-- A job that runs the named operation now: dispatched, its partition not under a fence (R372), the tile domain not
failed where it runs on a tile (R241). -/
def runningJob? (s : State) (j opc : Nat) : Option JobSt :=
  match getJob? s j with
  | none => none
  | some x =>
    if x.phase = .running ∧ dOpc x.desc = opc ∧ fencing s x.part = false ∧ (x.tile = 0xFF ∨ s.coh.failure.isNone = true)
    then some x else none

/-- End a job whose DETAIL the spec gives and whose RESULT no rule does: a free value (log entry 11). -/
def endJobDetail (j : Nat) (st : Status) (det : Nat) (s : State) : State :=
  let f := takeFree s
  endJob j st det (f.1.toNat % 2 ^ 32) 0 f.2

/-- Does DETAIL of an outcome hold the SKIPPED mask of a multicasting job (R181)? -/
def skippedStatus (st : Status) : Bool := [.ok, .partly, .fenced, .errLink].contains st

/-- DETAIL of an outcome for which no rule gives its value, from a free value: the reserved bits that R169 and R181 give the
operation's record are 0 (R8), and SKIPPED of an EXPERT_STREAM job that has sent nothing is its whole MASK (R181). -/
def openDetail (x : JobSt) (st : Status) (v : Nat) : Nat :=
  let opc := dOpc x.desc
  if opc = 0x40 ∧ skippedStatus st = true then leAt x.desc 64 8
  else if opc = 0x20 ∧ bitOf (leAt x.desc 121 1) 2 = true ∧ skippedStatus st = true then v
  else if [0x20, 0x21, 0x22, 0x30, 0x40].contains opc then field v 63 62 * 2 ^ 62 + field v 31 0
  else if opc = 0x10 ∨ opc = 0x11 then (if st = .ok then v % 2 ^ 62 else field v 63 62 * 2 ^ 62 + field v 31 0)
  else v

/-- `openDetail` of a job by its number. -/
def detailOf (s : State) (j : Nat) (st : Status) (v : Nat) : Nat :=
  match getJob? s j with
  | some x => openDetail x st v
  | none => v

/-- End a job whose RESULT the spec gives and whose DETAIL no rule does. -/
def endJobResult (j : Nat) (st : Status) (res : Nat) (s : State) : State :=
  let f := takeFree s
  endJob j st (detailOf s j st f.1.toNat) res 0 f.2

/-- End a job of whose DETAIL and RESULT no rule speaks. -/
def endJobFree (j : Nat) (st : Status) (reason : Nat) (s : State) : State :=
  let f := takeFree s
  let g := takeFree f.2
  endJob j st (detailOf s j st f.1.toNat) (g.1.toNat % 2 ^ 32) reason g.2

/-- A job has passed the checks made at its dispatch, which have read these bytes. -/
def setChecked (j : Nat) (b : Bytes) (s : State) : State := updJob j (fun x => { x with checked := some b }) s

/-- The checks made at a job's dispatch, once (R168, R180): `go` where they have been passed or pass now, else the job ends with
the status and the offset of a descriptor field. -/
def checkOnce (j : Nat) (x : JobSt) (chk : Option (Status × Nat)) (go : State → State) (s : State) : State :=
  if x.checked.isSome then go s
  else
    match chk with
    | some (st, off) => endJobDetail j st (detail 0 off) s
    | none => go (setChecked j [] s)

/-- Does a job share its tile with another running one? Then it gives way at its next block boundary, and goes on when its
command is sent again (R114, R177; log entry 9). -/
def tileShared (s : State) (j : Nat) : Bool :=
  match getJob? s j with
  | some x => x.tile != 0xFF && s.work.jobs.any (fun e => e.1 != j && e.2.tile == x.tile && e.2.phase == .running)
  | none => false

/-- Record how far a job has come (log entry 9). -/
def setStage (j n : Nat) (s : State) : State := updJob j (fun x => { x with stage := n }) s

/-- A job's own part is done: it ends when its requests have been answered, with `done`, or with the first error if one
came, its offset in class `cls` (R333). -/
def finishJob (j cls : Nat) (done : State → State) (s : State) : State :=
  match getJob? s j with
  | none => s
  | some x =>
    if jobOut x 0 ≠ 0 then s
    else
      match smFind? 0 x.remoteErr with
      | some (e, off) => endJobDetail j e (detail cls off) s
      | none => done s

end Sys2Proof.Machine
end

