-- ==== Sys2Proof/Machine/Rings.lean ====
section
/-!
DEFINITION. The rings and the units at their stops (spec/01 R23, Table 1-2).
-/
namespace Sys2Proof.Machine

/-- A unit that attaches to a ring: physical tiles and stacks (their memory-channel groups), Narlin ports, the bridge of a
local ring, and the units of the global ring. -/
inductive RingUnit where
  | tile (p : Nat)
  | stack (p : Nat)
  | narlin (port : Nat)
  | bridge (ring : Nat)
  | cxl (port : Nat)
  | mirror | piccolo | bassoon | shawm | security | management
deriving DecidableEq, Repr

/-- The numbers from `lo` to `hi`. -/
def upTo (lo hi : Nat) : List Nat := (List.range (hi + 1 - lo)).map (lo + ·)

/-- A local ring's stops. -/
def localRing (ring tLo tHi sLo sHi : Nat) (ports : List Nat) : List RingUnit :=
  (upTo tLo tHi).map .tile ++ (upTo sLo sHi).map .stack ++ ports.map .narlin ++ [.bridge ring]

/-- The units of a ring in the order of Table 1-2; 8 is the global ring. The table gives the stops no numbers and no order on
the ring: a stop's number is its unit's place in this list (log entry 14). -/
def ringStops (ring : Nat) : List RingUnit :=
  match ring with
  | 0 => localRing 0 0 8 0 3 [0]
  | 1 => localRing 1 9 17 4 7 [1]
  | 2 => localRing 2 18 26 8 11 [2]
  | 3 => localRing 3 27 35 12 15 [3]
  | 4 => localRing 4 36 43 16 19 [4, 5]
  | 5 => localRing 5 44 51 20 23 [6, 7]
  | 6 => localRing 6 52 59 24 28 [8, 9]
  | 7 => localRing 7 60 67 29 33 [10, 11]
  | 8 => [.narlin 12, .narlin 13] ++ (upTo 0 7).map .bridge ++ (upTo 0 3).map .cxl ++
      [.mirror, .piccolo, .bassoon, .shawm, .security, .management]
  | _ => []

/-- The unit at a stop, if the ring has that stop. -/
def stopUnit? (ring stop : Nat) : Option RingUnit := (ringStops ring)[stop]?

/-- The local ring of a physical tile. -/
def ringOfPhys (p : Nat) : Nat := if p < 36 then p / 9 else 4 + (p - 36) / 8

end Sys2Proof.Machine
end

