-- ==== Sys2Proof/Machine/TileDomain.lean ====
section
/-!
DEFINITION. The tile domain (spec/10): tiles and their spares (spec/18 R387), the lines of a cache and their replacement,
the failure of the domain (R240-R242).
-/
namespace Sys2Proof.Machine

/-! ## Tiles -/

/-- The jobs that run on a tile. -/
def tileJobs (s : State) (t : Nat) : List Nat :=
  (s.work.jobs.filter (fun e => e.2.tile == t && e.2.phase == .running)).map (·.1)

/-- Zero a tile's scratch, registers, program memory and PM_LOAD_ID (R116). -/
def zeroTile (t : Nat) (s : State) : State :=
  setObj 0x3610 (t + 1) 0 (updTile t (fun _ => tile0) s)

/-- Zero a tile's registers and end its program, its scratch and program memory kept or not (R242, R374). -/
def clearRegs (keepScratch : Bool) (t : Nat) (s : State) : State :=
  updTile t (fun x => { tile0 with prog := x.prog, scratch := if keepScratch then x.scratch else [], replace := x.replace, newOwner := x.newOwner }) s

/-- The free spare tiles: powered, not failed, no logical tile's (R387). -/
def freeTiles (s : State) : List Nat :=
  s.coh.tilesUp.filter (fun p => !s.mram.failedTiles.contains p &&
    !(List.range (geomTiles s)).any (fun t => tilePhys s t == p && tileState s t != 2))

/-- The lowest number of a list. -/
def lowest : List Nat → Option Nat
  | [] => none
  | x :: xs => match lowest xs with | none => some x | some y => some (min x y)

/-- The spare that replaces a tile of a ring: its own ring first, then rings 0 to 3, the lowest number on each. -/
def spareTileFor (s : State) (ring : Nat) : Option Nat :=
  ([ring, 0, 1, 2, 3].findSome? (fun r => lowest ((freeTiles s).filter (fun p => ringOfPhys p == r))))

/-- Put a logical tile on a spare, or leave it FAILED when none is free (R387), reported in Lovage and an event (R32; log entry
106). The spare comes up cleared, keeping the owner. -/
def spareTile (t : Nat) (s : State) : State :=
  let s0 := { s with coh := { s.coh with tilesUp := s.coh.tilesUp.filter (· != tilePhys s t) } }
  match spareTileFor s0 (tileRing s t) with
  | none => raiseEvent 0x0002 (leBytes 2 (geomTiles s0) ++ leBytes 1 t) (setObj 0x3601 (t + 1) 2 s0)
  | some p =>
    let s1 := zeroTile t (setObj 0x3600 (t + 1) (ringOfPhys p) (setObj 0x3602 (t + 1) p (setObj 0x3601 (t + 1) 0 s0)))
    setObj 0x3804 0 (freeTiles s1).length s1

/-! ## Lines in a cache (R227, Table 10-4) -/

def lineKey (t line : Nat) : Nat := t * 2 ^ 34 + line
def cacheLine? (s : State) (t line : Nat) : Option CacheLine := smFind? (lineKey t line) s.coh.lines
def cacheState (s : State) (t line : Nat) : CacheState :=
  match cacheLine? s t line with | some c => c.st | none => .i

/-- Put a line in a state; state I needs no entry. -/
def putLine (t line : Nat) (c : CacheLine) (s : State) : State :=
  { s with coh := { s.coh with
      lines := if c.st = .i then smErase (lineKey t line) s.coh.lines else smPut (lineKey t line) c s.coh.lines } }
def dropLine (t line : Nat) (s : State) : State :=
  { s with coh := { s.coh with lines := smErase (lineKey t line) s.coh.lines } }

/-- The lines of a tile, by line number. -/
def tileLines (s : State) (t : Nat) : List (Nat × CacheLine) :=
  (s.coh.lines.filter (fun e => e.1 / 2 ^ 34 == t)).map (fun e => (e.1 % 2 ^ 34, e.2))

/-- Is a line in no transit? -/
def stableLine (c : CacheLine) : Bool := c.st == .s || c.st == .e || c.st == .m

/-- Corrected and uncorrectable errors of cache data (R239); the row of an uncorrectable one is entered in the repair record
(R389). -/
def countFault (t line : Nat) (f : ArrayFault) (s : State) : State :=
  match f with
  | .none => s
  | .corrected => bump 0x3620 4 s
  | .uncorrectable => noteSramRow { array := .cacheData, unit := tilePhys s t, row := line % 2048 } (bump 0x3620 5 s)

/-- Evict a line (Table 10-4, column Evict); the data of an M line are read, and go out with POISON when they cannot be
corrected (R239). -/
def evictLine (t line : Nat) (s : State) : State :=
  match cacheLine? s t line with
  | none => s
  | some c =>
    match c.st with
    | .s => dropLine t line s
    | .e => send (.tilePut t line none) (putLine t line { c with st := .eiA } s)
    | .m => send (.tilePut t line (some (c.data, c.fault == .uncorrectable))) 
        (putLine t line { c with st := .miA, fault := if c.fault = .corrected then .none else c.fault } (countFault t line c.fault s))
    | _ => s

/-- A tile leaves the domain: PUTM for every M line, PUTE for every E line, S lines dropped (R238). -/
def leaveDomain (t : Nat) (s : State) : State :=
  (tileLines s t).foldl (fun s e => if stableLine e.2 then evictLine t e.1 s else s) s

/-! ## Replacement (R227) -/

/-- Does a line take a way of its set? One being written back stands in the write-back buffer. -/
def takesWay (c : CacheLine) : Bool := !(c.st == .miA || c.st == .eiA || c.st == .iiA)

/-- A use of a way: every bit of the tree on the path to it points away from it. -/
def plruTouch (way bits : Nat) : Nat :=
  ([3, 2, 1, 0].foldl (fun (acc : Nat × Nat) i =>
    (2 * acc.1 + b2n (bitOf way i), putBit acc.2 (acc.1 - 1) (!bitOf way i))) (1, bits)).2

/-- The way that the tree's bits point to. -/
def plruVictim (bits : Nat) : Nat :=
  ([3, 2, 1, 0].foldl (fun (n : Nat) _ => 2 * n + b2n (bitOf bits (n - 1))) 1) - 16

/-- A line of a tile has been used: its way is the most recent of its set. -/
def touchLine (t line way : Nat) (s : State) : State :=
  { s with coh := { s.coh with plru := smUpd 0 (t * 2048 + line % 2048) (plruTouch way) s.coh.plru } }

/-- The lines of a tile in a set that take a way. -/
def cacheSet (s : State) (t line : Nat) : List (Nat × CacheLine) :=
  (tileLines s t).filter (fun e => e.1 % 2048 == line % 2048 && takesWay e.2)

/-- Make room for a line in its set of 16 ways: a free way, or that of the pseudo-LRU victim, evicted; where the victim is in
transit, another stable line goes, a free choice (R227, R233; log entry 104). -/
def makeRoom (t line : Nat) (s : State) : Option Nat × State :=
  let set := cacheSet s t line
  match (List.range 16).find? (fun w => !set.any (fun e => e.2.way == w)) with
  | some w => (some w, s)
  | none =>
    let vs := set.filter (fun e => stableLine e.2)
    match vs.find? (fun e => e.2.way == plruVictim (smGet 0 (t * 2048 + line % 2048) s.coh.plru)) with
    | some v => (some v.2.way, evictLine t v.1 s)
    | none =>
      let f := takeFree s
      match vs[f.1.toNat % vs.length]? with
      | some v => (some v.2.way, evictLine t v.1 f.2)
      | none => (none, s)

/-! ## Failure of the tile domain (R240-R242) -/

/-- Close every decode context of a partition, each GEN incremented; the jobs that wait to close one are left to their
own end (R242, R374). -/
def closeContexts (p : Nat) (s : State) : State :=
  (List.range (16 * (partTiles s p).length)).foldl (fun s k =>
    updCtx p k (fun c => { isOpen := false, gen := (c.gen + 1) % 256, closing := none }) s) s

/-- The partitions that own a tile. -/
def tileOwners (s : State) : List Nat := (List.range (geomParts s)).filter (fun p => !(partTiles s p).isEmpty)

/-- Step 4 and step 5 of R241: lines whose entry is still OWNED, or cannot be read, are poisoned and counted, filters and caches
emptied, failed tiles replaced. -/
def endSalvage (s : State) : State :=
  let lost (e : Nat × FilterEntry) : Option Nat :=
    match checkEntry e.1 e.2 with
    | some f => if f.owned then some f.owner else none
    | none => some e.2.owner
  let s1 := s.coh.filter.foldl (fun s e =>
    let s := if (checkEntry e.1 e.2).isNone then noteFilterRow e.1 s else s
    match lost e with
    | some o => bump 0x3620 7 (poisonLine (.tile o) e.1 s)
    | none => s) s
  let s2 := { s1 with coh := { s1.coh with
    filter := [], lines := [], bridges := [], plru := [], tagFaults := []
    failure := s1.coh.failure.map (fun f => { f with salvage := false }) } }
  (List.range (geomTiles s2)).foldl (fun s t => if tileState s t = 2 then spareTile t s else s) s2

/-- A tile-domain failure: steps 1 to 3 of R241, and R242. Every running tile whose tag and state arrays can be read sends its
M lines. -/
def failDomain (cause ptile line : Nat) (s : State) : State :=
  let d := leBytes 8 s.ptime ++ leBytes 1 cause ++ leBytes 1 ptile ++ leBytes 5 (line * 64) ++ zeros 1
  let s1 := bump 0x3620 6 (raiseEvent 0x0040 d (setObj 0x3621 0 (ofLe d) s))
  let s2 := s1.work.jobs.foldl (fun s e =>
    if e.2.phase = .running ∧ e.2.tile ≠ 0xFF then endJob e.1 .errInternal 0 0 0 s else s) s1
  let s3 := (List.range (geomTiles s)).foldl (fun s t => clearRegs false t s) s2
  let s4 := (List.range (geomParts s)).foldl (fun s p => closeContexts p s) s3
  let s5 := (tileOwners s).foldl (fun s p => setErrCause p 3 s) s4
  let keep (r : Req) : Bool := match r.op with | .tileGet _ _ _ => false | _ => true
  let since := match s.coh.failure with | some f => f.since | none => s.ptime
  let s6 := { s5 with
    work := { s5.work with groups := [] }
    coh := { s5.coh with txns := [], bridges := [], failure := some { cause := cause, salvage := true, since := since } }
    hosts := { s5.hosts with waiting := s5.hosts.waiting.filter keep } }
  s6.coh.lines.foldl (fun s e =>
    let t := e.1 / 2 ^ 34
    if inDomain s t = true ∧ s.coh.tagFaults.contains t = false ∧ e.2.st = .m then evictLine t (e.1 % 2 ^ 34) s else s) s6

/-- A cause of Table 10-5 arises: during salvage it only ends salvage; else the domain fails, anew where a recovery has come
past step 4 (R240, R241). -/
def domainAlarm (cause ptile line : Nat) (s : State) : State :=
  let s := if cause = 5 then noteSramRow { array := .cacheTag, unit := ptile, row := line % 2048 } s else s
  match s.coh.failure with
  | some f => if f.salvage then endSalvage s else failDomain cause ptile line s
  | none => failDomain cause ptile line s

/-- Act on the cause that a home has met. -/
def takeAlarm (s : State) : State :=
  match s.coh.alarm with
  | some a => domainAlarm a.1 0xFF a.2 { s with coh := { s.coh with alarm := none } }
  | none => s

end Sys2Proof.Machine
end

