-- ==== Sys2Proof/Machine/Regions.lean ====
section
/-!
DEFINITION. Regions, their views and drafts, publishing, dynamic capacity (spec/03 R61-R66, R73-R76, R457).
-/
namespace Sys2Proof.Machine

/-- What every meaning answers. -/
abbrev Out := Host.Outcome State Fault Refusal

/-- Answer the write of a command object with a status (R61, R351). -/
def answerCmd (r : Status × State) : State := send (.cmdAnswer (statusCode r.1)) r.2

/-- The Lovage record of a write by FM or MON (Table 20-7): about the index, sub-index, WINDOW_PART and the role, 0 FM,
1 MON (log entry 16). -/
def writeRecorded (role index sub part : Nat) (s : State) : State :=
  lovageNote 0x0102 (leBytes 2 index ++ leBytes 1 sub ++ leBytes 1 part ++ leBytes 1 role) s

/-- Answer the fabric manager's write of an object: recorded in Lovage when it is performed. -/
def answerFm (index sub : Nat) (r : Status × State) : State :=
  answerCmd (if r.1 = .ok then (r.1, writeRecorded 0 index sub 0xFF r.2) else r)

/-- Answer the fabric manager's write of an expert object: refused without the unlock of its group (R12, R423). -/
def answerExpert (index : Nat) (f : State → Status × State) (s : State) : State :=
  if unlocked s (expertGroup index) false then answerFm index 0 (f s) else answerCmd (.errPermission, s)

/-- Answer a write that the fabric manager (none) or another party makes. -/
def answerBy (by_ : Option Nat) (index : Nat) (r : Status × State) : State :=
  match by_ with
  | none => answerFm index 0 r
  | some _ => answerCmd r

/-! ## Blocks -/

/-- The blocks of a run. -/
def blockRun (first n : Nat) : List Nat := (List.range n).map (first + ·)

/-- All blocks of a region, its drafts included (R62). -/
def regionBlocks (r : Region) : List Nat :=
  blockRun r.first r.blocks ++ (r.drafts.map (fun d => blockRun d.first r.blocks)).flatten

/-- Fill a block with zeros through Bassoon: data, check bits and tag together, no copy of a line left in a tile, the
granules INVALID, INIT set (R62, R100, R161, R235). -/
def zeroBlock (b : Nat) (s : State) : State :=
  let inB (line : Nat) : Bool := line >>> 22 == b
  { s with
    dram := { s.dram with
      cells := s.dram.cells.filter (fun c => !inB ((c.1 % 2 ^ 48) / 128))
      lost := s.dram.lost.filter (fun e => e.1 % 4096 != b)
      summary := s.dram.summary.filter (fun e => !inB (e.1 * 4))
      init := s.dram.init ||| (1#3584 <<< b) }
    coh := { s.coh with
      lines := s.coh.lines.filter (fun e => !inB (e.1 % 2 ^ 34))
      filter := s.coh.filter.filter (fun e => !inB e.1) }
    hosts := { s.hosts with
      dirCache := s.hosts.dirCache.filter (fun e => !inB e.1)
      dirOver := s.hosts.dirOver.filter (fun e => !inB e.1) } }

/-- The fill of a block by Bassoon (R62, R64, R353): the copies that hosts and tiles hold of its lines are called back first
(R69, R235), and only then is it filled; false while one is awaited. The lines it changes go to the mirror (R80). -/
def fillBlock (b : Nat) (s : State) : Bool × State :=
  let kept := keptLines s [b]
  let held := kept.filter (fun l => tagHstate (dirTag s l) != 0) ++
    (s.coh.filter.filter (fun e => e.1 >>> 22 == b)).map (·.1)
  let a := prepAll (.fill b) (held.eraseDups.map (fun l => .write (l * 64) ((zeros 64).map some))) s
  if a.1 then (true, kept.foldl (fun s l => mirrorStored l s) (zeroBlock b a.2)) else a

/-- The fill of several blocks. -/
def fillBlocks : List Nat → State → Bool × State
  | [], s => (true, s)
  | b :: bs, s =>
    let x := fillBlock b s
    let r := fillBlocks bs x.2
    (x.1 && r.1, r.2)

/-- Copy a line: its data, and its poison with it (log entry 21). -/
def copyLine (src dst : Nat) (s : State) : State :=
  let r := readLine .bassoon src s
  match r.2 with
  | .data d => lineWriteNow .bassoon dst (d.map some) [] false r.1
  | _ => poisonLine .bassoon dst (lineWriteNow .bassoon dst ((zeros 64).map some) [] false r.1)

/-- Copy runs of blocks through Bassoon, the lines that hold anything in either; false while a line has to wait. -/
def copyBlocks (region src dst n : Nat) (s : State) : Bool × State :=
  let off (line : Nat) : Nat := line - (src <<< 22)
  let from_ := keptLines s (blockRun src n)
  let to_ := keptLines s (blockRun dst n)
  let want := (from_.map off ++ to_.map (fun l => l - (dst <<< 22))).eraseDups
  let pre := prepAll (.copy region) (want.flatMap (fun o =>
    [.read (((src <<< 22) + o) * 64) 64, .write (((dst <<< 22) + o) * 64) ((zeros 64).map some)])) s
  if pre.1 then (true, want.foldl (fun s o => copyLine ((src <<< 22) + o) ((dst <<< 22) + o) s) pre.2)
  else pre

/-! ## Recalls (R63, R64, R66, R74) -/

/-- The tracked lines of a set of blocks. -/
def trackedLines (s : State) (bs : List Nat) : List Nat :=
  (keptLines s bs).filter (fun l => tagHstate (lineTag s l) != 0)

/-- Start to recall lines from hosts; how many are left at once, and the recall's number. -/
def startRecall (why : RecallFor) (lines hosts : List Nat) (s : State) : Nat × State :=
  let id := s.hosts.nextRecall
  let s1 := { s with hosts := { s.hosts with
    nextRecall := id + 1
    recalls := smPut id { left := lines.length, poison := false, why := why } s.hosts.recalls } }
  (id, lines.foldl (fun s l => submit .bassoon (.recall (l * 64) hosts) (.recall id) s) s1)

/-- Every host table index. -/
def allHosts : List Nat := List.range 32

/-! ## REGION_CMD (R61-R64, R457) -/

/-- A region command completes: STATUS, and SEQ rises (R61). -/
def regionDone (st : Status) (s : State) : State :=
  let v := obj s 0x2201 0
  setObj 0x2201 0 ((field v 31 16 + 1) % 65536 * 65536 + statusCode st) s

/-- The views of a region that an LD holds, of a kind. -/
def ldHasView (s : State) (ld r kind : Nat) : Bool :=
  s.hosts.ldMap.any (fun e => e.1 / 8192 == ld && e.2.region == r && e.2.kind == kind)

/-- The draft an LD has of a region. -/
def draftOf? (r : Region) (ld : Nat) : Option Draft := r.drafts.find? (fun d => d.ld == ld)

/-- The fields of a REGION_CMD (Table 3-3). -/
def rcRegion (b : Bytes) : Nat := leAt b 2 2 % 1024
def rcBlocks (b : Bytes) : Nat := leAt b 4 4
def rcFirst (b : Bytes) : Nat := leAt b 8 4
def rcLd (b : Bytes) : Nat := leAt b 12 1 % 4 * 16 + leAt b 13 1 % 16
def rcView (b : Bytes) : Nat := leAt b 14 1
def rcRight (b : Bytes) : Nat := leAt b 15 1
def rcDpa (b : Bytes) : Nat := leAt b 16 4

/-- The format checks of a region command (R61 check 1). -/
def rcFormatBad (b : Bytes) : Bool :=
  let op := leAt b 0 1
  op == 0 || decide (6 < op) || leAt b 1 1 / 32 != 0 || leAt b 2 2 / 1024 != 0 || leAt b 12 1 / 4 != 0 ||
  leAt b 13 1 / 16 != 0 || (slice b 20 12).any (· != 0) ||
  (op == 1 && (field (leAt b 1 1) 4 3 == 3 || rcBlocks b == 0)) ||
  ((op == 2 || op == 3) && decide (1 < rcView b)) || (op == 2 && decide (1 < rcRight b))

/-- Is a run of blocks free for a region or a draft (R62)? -/
def runFree (s : State) (first n : Nat) : Bool :=
  decide (first + n ≤ geomBlocks s) && (blockRun first n).all (blockFree s)

/-- The permission checks of a region command (R61 check 2, R62-R64, R457). -/
def rcStatus (b : Bytes) (s : State) : Status :=
  let r := getRegion s (rcRegion b)
  let ld := rcLd b
  let beyond : Bool := decide (2 ≤ leAt b 0 1 ∧ leAt b 0 1 ≤ 4) &&
    (decide (obj s 0x110A 0 ≤ leAt b 12 1) || decide (obj s 0x110B 0 ≤ leAt b 13 1))
  let usable : Bool := r.state == .ready || r.state == .mapped
  let bad : Bool :=
    match leAt b 0 1 with
    | 1 => s.power.closing || r.state != .unused || !runFree s (rcFirst b) (rcBlocks b)
    | 2 =>
      !usable || decide (geomBlocks s < rcDpa b + r.blocks) ||
      (blockRun (rcDpa b) r.blocks).any (fun d => (smFind? (ld * 8192 + d) s.hosts.ldMap).isSome) ||
      ldHasView s ld (rcRegion b) (rcView b) ||
      (regionMode r == 0 &&
        (match hostOfLd? s ld with
         | none => true
         | some h => s.hosts.ldMap.any (fun e => e.2.region == rcRegion b && e.2.kind != 2 && hostOfLd? s (e.1 / 8192) != some h))) ||
      (regionMode r == 2 && rcView b == 0 && rcRight b != 0) ||
      (rcView b == 1 && (regionMode r != 2 || (draftOf? r ld).isNone))
    | 3 => r.state != .mapped || !ldHasView s ld (rcRegion b) (rcView b)
    | 4 =>
      regionMode r != 2 || !usable || decide (4 ≤ r.drafts.length) || (draftOf? r ld).isSome ||
      !runFree s (rcFirst b) r.blocks
    | 5 => r.state != .ready || (regionBlocks r).any (blockGranted s) || !r.ops.isEmpty
    | _ => false
  if rcFormatBad b then .errFormat
  else if leAt b 0 1 = 4 ∧ r.state ≠ .unused ∧ rcBlocks b ≠ r.blocks then .errFormat
  else if beyond || bad then .errPermission else .ok

/-- REGION_QUERY_RESULT of a region (Table 3-9). -/
def queryBytes (id : Nat) (r : Region) : Bytes :=
  let st := match r.state with
    | .unused => 0 | .filling => 1 | .ready => 2 | .mapped => 3 | .releasing => 4 | .sanitising => 5
  leBytes 1 st ++ leBytes 1 r.flags ++ leBytes 2 id ++ leBytes 4 r.blocks ++ leBytes 4 r.first ++ zeros 4 ++
  leBytes 8 r.gen ++ zeros 8

/-- Write the block map entries of a view or an extent. -/
def mapBlocks (ld dpa region kind : Nat) (rw : Bool) (bs : List Nat) (s : State) : State :=
  let m := (List.range bs.length).foldl (fun m i =>
    smPut (ld * 8192 + dpa + i) { block := bs.getD i 0, rw := rw, region := region, kind := kind } m) s.hosts.ldMap
  { s with hosts := { s.hosts with ldMap := m } }

/-- Clear the entries that satisfy a test. -/
def unmapWhere (f : Nat → MapEntry → Bool) (s : State) : State :=
  { s with hosts := { s.hosts with ldMap := s.hosts.ldMap.filter (fun e => !f e.1 e.2) } }

/-- The end of an UNMAP: the entries are cleared, and the last view's end makes the region READY (R63, Table 3-4). -/
def finishUnmap (ld region kind : Nat) (s : State) : State :=
  let s1 := unmapWhere (fun k e => k / 8192 == ld && e.region == region && e.kind == kind) s
  let more : Bool := s1.hosts.ldMap.any (fun e => e.2.region == region && e.2.kind != 2)
  let s2 := if more then s1
            else updRegion region (fun r => if r.state = .mapped then { r with state := .ready } else r) s1
  regionDone .ok { s2 with hosts := { s2.hosts with cmdRunning := false } }

/-! ## Publishing (R73-R76, R457) -/

/-- The outcome of a PUB_CTRL write. -/
def pubOutcome (ld token : Nat) (st : Status) (s : State) : State :=
  updPub ld (fun p => { p with lastToken := token, lastStatus := statusCode st }) s

def setBusy (ld : Nat) (b : Bool) (s : State) : State := updPub ld (fun p => { p with busy := b }) s

/-- The first operation of a region, changed. -/
def updHeadOp (r : Nat) (f : RegOp → RegOp) (s : State) : State :=
  updRegion r (fun x => match x.ops with | o :: os => { x with ops := f o :: os } | [] => x) s

/-- The first operation of a region ends. -/
def popOp (r : Nat) (s : State) : State := updRegion r (fun x => { x with ops := x.ops.drop 1 }) s

/-- The blocks that an LD's extent names now: its block map entries once the host has accepted it (R65, R66). -/
def extentBlocks (s : State) (x : Extent) : List Nat :=
  (s.hosts.ldMap.filter (fun e => e.2.kind == 2 && e.1 / 8192 == x.ld && decide (x.dpa ≤ e.1 % 8192) &&
    decide (e.1 % 8192 < x.dpa + x.blocks))).map (·.2.block)

/-- Step 5 and step 6 of R74: the swap, and the copy begins. DESIGN CHOICE (log entry 99): an extent's entries over blocks of
the read view or of the draft that is swapped follow the swap too. -/
def publishSwap (r : Nat) (s : State) : State :=
  let g := getRegion s r
  match g.ops.head? with
  | none => s
  | some o =>
    match draftOf? g o.ld with
    | none => s
    | some d =>
      let swap (b : Nat) : Nat :=
        if g.first ≤ b ∧ b < g.first + g.blocks then b - g.first + d.first
        else if d.first ≤ b ∧ b < d.first + g.blocks then b - d.first + g.first
        else b
      let s1 := { s with hosts := { s.hosts with
        ldMap := s.hosts.ldMap.map (fun e => (e.1, if e.2.region != r then e.2 else { e.2 with block := swap e.2.block }))
        extents := s.hosts.extents.map (fun x => if x.region != r then x else { x with first := swap x.first }) } }
      let s2 := updRegion r (fun x => { x with
        first := d.first, gen := (x.gen + 1) % 2 ^ 64
        drafts := x.drafts.map (fun y => if y.ld = o.ld then { y with first := g.first } else y) }) s1
      setBusy o.ld true (pubOutcome o.ld o.token .ok (updHeadOp r (fun x => { x with copying := true }) s2))

/-- After the draft's recall: abandoned for poison, or on to the readers (R74 step 4, R76). -/
def publishReaders (r : Nat) (poison : Bool) (s : State) : State :=
  let g := getRegion s r
  match g.ops.head? with
  | none => s
  | some o =>
    if poison then popOp r (pubOutcome o.ld o.token .errPoison s)
    else (startRecall (.publishRead r) (trackedLines s (blockRun g.first g.blocks)) allHosts s).2

/-- Start a region's first operation, if it has not started (R74, R75, R457). -/
def startOp (r : Nat) (s : State) : State :=
  let g := getRegion s r
  match g.ops.head? with
  | none => s
  | some o =>
    if o.copying || s.hosts.recalls.any (fun e => e.2.why == .publishDraft r || e.2.why == .publishRead r) then s
    else
      match o.kind with
      | .publish =>
        if o.expect ≠ g.gen then
          let s1 := match hostOfLd? s o.ld with | some h => bump 0x3213 (h + 1) s | none => s
          popOp r (pubOutcome o.ld o.token .publishConflict s1)
        else
          match draftOf? g o.ld with
          | some d => (startRecall (.publishDraft r) (trackedLines s (blockRun d.first g.blocks)) allHosts s).2
          | none => popOp r s
      | .rebase => updHeadOp r (fun x => { x with copying := true }) (setBusy o.ld true s)
      | .addDraft =>
        regionDone .ok (setBusy o.ld true (updHeadOp r (fun x => { x with copying := true })
          { s with hosts := { s.hosts with cmdRunning := false } }))

/-- An extent's end: the range stops decoding (R66). -/
def finishExtent (ld dpa : Nat) (s : State) : State :=
  match s.hosts.extents.find? (fun e => e.ld == ld && e.dpa == dpa) with
  | none => s
  | some x =>
    let s1 := unmapWhere (fun k e => e.kind == 2 && k / 8192 == ld && decide (dpa ≤ k % 8192) && decide (k % 8192 < dpa + x.blocks)) s
    send (.dynCap (ld / 16) (ld % 16) x.region x.first x.blocks 4)
      { s1 with hosts := { s1.hosts with extents := s1.hosts.extents.filter (fun e => !(e.ld == ld && e.dpa == dpa)) } }

/-- Go on with what a finished recall was for; a RELEASE goes on by REGION_RECALL_DONE. -/
def recallOver (s : State) (e : Nat × Recall) : State :=
  if e.2.left ≠ 0 then s
  else
    let s1 := { s with hosts := { s.hosts with recalls := smErase e.1 s.hosts.recalls } }
    match e.2.why with
    | .unmap ld r k => finishUnmap ld r k s1
    | .release _ => s
    | .publishDraft r => publishReaders r e.2.poison s1
    | .publishRead r => publishSwap r s1
    | .extent ld dpa => finishExtent ld dpa s1

/-- One round: finished recalls, then operations that may start. -/
def settleOnce (s : State) : State :=
  let s1 := s.hosts.recalls.foldl recallOver s
  s1.hosts.regions.foldl (fun s e => startOp e.1 s) s1

/-- Let regions go on as far as they can: an operation takes at most three rounds, and an ended one lets the next start. -/
def settle (s : State) : State := settleOnce (settleOnce (settleOnce (settleOnce s)))

/-- After an event that may let waiting accesses and packets go on; a cause of a tile-domain failure that a home meets among them
is acted on (R240). -/
def wake (s : State) : State :=
  let s1 := pump s
  settle (if s1.coh.alarm.isNone then s1 else pump (takeAlarm s1))

/-- Perform a region command that has passed its checks; true when it completes at once (R61). DESIGN CHOICE (log entry 99):
RELEASE of a READY region that still has dynamic capacity extents ends them with its entries, with no release message. -/
def rcPerform (b : Bytes) (s : State) : Bool × State :=
  let id := rcRegion b
  let r := getRegion s id
  let ld := rcLd b
  match leAt b 0 1 with
  | 1 =>
    let flags := leAt b 1 1
    (true, updRegion id (fun _ =>
      { state := if bitOf flags 2 then .ready else .filling, flags := flags, first := rcFirst b, blocks := rcBlocks b,
        gen := 0, drafts := [], ops := [] }) s)
  | 2 =>
    let first := if rcView b = 1 then ((draftOf? r ld).map (·.first)).getD 0 else r.first
    (true, updRegion id (fun x => { x with state := .mapped })
      (mapBlocks ld (rcDpa b) id (rcView b) (rcRight b == 1) (blockRun first r.blocks) s))
  | 3 =>
    let first := if rcView b = 1 then ((draftOf? r ld).map (·.first)).getD 0 else r.first
    let lines := match hostOfLd? s ld with | some _ => trackedLines s (blockRun first r.blocks) | none => []
    (false, settle (startRecall (.unmap ld id (rcView b)) lines (match hostOfLd? s ld with | some h => [h] | none => [])
      { s with hosts := { s.hosts with cmdRunning := true } }).2)
  | 4 =>
    (false, settle (updRegion id (fun x => { x with
        drafts := x.drafts ++ [{ ld := ld, first := rcFirst b }]
        ops := x.ops ++ [{ kind := .addDraft, ld := ld, token := 0, expect := 0, copying := false }] })
      { s with hosts := { s.hosts with cmdRunning := true } }))
  | 5 =>
    let s1 := unmapWhere (fun _ e => e.region == id) (updRegion id (fun x => { x with state := .releasing }) s)
    let s2 := { s1 with hosts := { s1.hosts with extents := s1.hosts.extents.filter (fun e => e.region != id) } }
    (true, (startRecall (.release id) (trackedLines s2 (regionBlocks r)) allHosts s2).2)
  | _ => (true, setObj 0x2203 0 (ofLe (queryBytes id r)) s)

/-- A write of REGION_CMD: the status it is answered with (R61). -/
def regionCmd (b : Bytes) (s : State) : Status × State :=
  if s.hosts.cmdRunning || !s.ready then (.retryQueueFull, s)
  else
    let st := rcStatus b s
    if st ≠ .ok then (st, regionDone st s)
    else
      let r := rcPerform b s
      (.ok, if r.1 then regionDone .ok r.2 else r.2)

/-- The command bytes with an OP. -/
def withOp (op : Nat) (b : Bytes) : Bytes := splice (slice b 0 32) 0 (leBytes 1 op)

/-- CREATE (R62). -/
def execCreate (cmd : Bytes) (s : State) : Out := .next (answerFm 0x2200 0 (regionCmd (withOp 1 cmd) s))
/-- MAP (R63). -/
def execMapRegion (cmd : Bytes) (s : State) : Out := .next (answerFm 0x2200 0 (regionCmd (withOp 2 cmd) s))
/-- UNMAP (R63). -/
def execUnmap (cmd : Bytes) (s : State) : Out := .next (answerFm 0x2200 0 (regionCmd (withOp 3 cmd) s))
/-- ADD_DRAFT (R457). -/
def execAddDraft (cmd : Bytes) (s : State) : Out := .next (answerFm 0x2200 0 (regionCmd (withOp 4 cmd) s))
/-- RELEASE (R64). -/
def execReleaseRegion (cmd : Bytes) (s : State) : Out := .next (answerFm 0x2200 0 (regionCmd (withOp 5 cmd) s))
/-- QUERY (R61). -/
def execQuery (cmd : Bytes) (s : State) : Out := .next (answerFm 0x2200 0 (regionCmd (withOp 6 cmd) s))

/-- REGION_ZERO_FILL_DONE (R62): the fill of a FILLING region ends, and the region is READY. While a copy of a
line is awaited, the fill has not ended. -/
def execRegionZeroFillDone (region : Nat) (s : State) : Out :=
  let r := getRegion s region
  .next (if r.state = .filling then
      let f := fillBlocks (regionBlocks r) s
      if f.1 then updRegion region (fun x => { x with state := .ready }) f.2 else f.2
    else s)

/-- REGION_RECALL_DONE (R64): every tracked line of a RELEASING region has been recalled. -/
def execRegionRecallDone (region : Nat) (s : State) : Out :=
  .next (if (getRegion s region).state = .releasing ∧
            s.hosts.recalls.all (fun e => e.2.why != .release region || e.2.left == 0) then
      updRegion region (fun x => { x with state := .sanitising })
        { s with hosts := { s.hosts with recalls := s.hosts.recalls.filter (fun e => e.2.why != .release region) } }
    else s)

/-- REGION_SANITISE_DONE (R64): the sanitising fill ends; blocks and REGION_ID are free. -/
def execRegionSanitiseDone (region : Nat) (s : State) : Out :=
  let r := getRegion s region
  .next (if r.state = .sanitising then
      let f := fillBlocks (regionBlocks r) s
      if f.1 then updRegion region (fun _ => region0) f.2 else f.2
    else s)

/-! ## Dynamic capacity (R65, R66) -/

/-- The first DPA block of DC region 0, and its number of blocks (R65). -/
def dcFirst : Nat := 3584

/-- Is an extent one the module accepts (R65)? The request names byte addresses and lengths. The blocks of a region include
its drafts' (R62). DESIGN CHOICE (log entry 99): a DPA range that overlaps another extent's of the LD is invalid. -/
def extentOk (s : State) (ld : Nat) (tag : Bytes) (dpa pa len : Nat) : Bool :=
  let r := getRegion s (leAt tag 0 2)
  let b := 2 ^ 28
  decide (leAt tag 0 2 < 1024) && (slice tag 2 14).all (· == 0) && (r.state == .ready || r.state == .mapped) &&
  dpa % b == 0 && pa % b == 0 && len % b == 0 && decide (0 < len) && decide (ld < 64) &&
  decide (dcFirst * b ≤ dpa) && decide (dpa + len ≤ 2 * dcFirst * b) &&
  (blockRun (pa / b) (len / b)).all (regionBlocks r).contains &&
  !s.hosts.extents.any (fun e => e.ld == ld && decide (e.dpa < (dpa + len) / b) && decide (dpa / b < e.dpa + e.blocks))

/-- DC_ADD_CAPACITY (R65). -/
def execDcAddCapacity (port ld : Nat) (tag : Bytes) (dpa pa len : Nat) (s : State) : Out :=
  let g := port * 16 + ld
  let rg := leAt tag 0 2
  .next (if extentOk s g tag dpa pa len && decide (ld < 16) then
      send (.dynCap port ld rg (pa / 2 ^ 28) (len / 2 ^ 28) 0) { s with hosts := { s.hosts with
        extents := s.hosts.extents ++ [{ ld := g, region := rg, first := pa / 2 ^ 28, blocks := len / 2 ^ 28,
                                         dpa := dpa / 2 ^ 28, live := false, releasing := false }] } }
    else send (.dynCap port ld rg (pa / 2 ^ 28) (len / 2 ^ 28) 1) s)

/-- The extent of an LD that begins at a DPA. -/
def extentAt? (s : State) (ld dpa : Nat) : Option Extent :=
  s.hosts.extents.find? (fun e => e.ld == ld && e.dpa == dpa / 2 ^ 28)

/-- DC_EXTENT_ACCEPT (R65): the extent becomes visible, read-only in a Published region. -/
def execDcExtentAccept (port ld dpa : Nat) (s : State) : Out :=
  let g := port * 16 + ld
  .next (match extentAt? s g dpa with
    | none => s
    | some x =>
      if x.live then s
      else
        let s1 := { s with hosts := { s.hosts with
          extents := s.hosts.extents.map (fun e => if e.ld == g && e.dpa == x.dpa then { e with live := true } else e) } }
        send (.dynCap port ld x.region x.first x.blocks 2)
          (mapBlocks g x.dpa x.region 2 (regionMode (getRegion s x.region) != 2) (blockRun x.first x.blocks) s1))

/-- DC_EXTENT_RELEASE (R66): the host's release response, or a forced release: the lines of the extent that the host
holds are recalled, and then the range stops decoding. -/
def execDcExtentRelease (port ld dpa : Nat) (s : State) : Out :=
  let g := port * 16 + ld
  .next (match extentAt? s g dpa with
    | none => s
    | some x =>
      if x.releasing then s
      else
        let s1 := { s with hosts := { s.hosts with
          extents := s.hosts.extents.map (fun e => if e.ld == g && e.dpa == x.dpa then { e with releasing := true } else e) } }
        match hostOfLd? s g with
        | some h => settle (startRecall (.extent g x.dpa) (trackedLines s1 (extentBlocks s1 x)) [h]
            (send (.dynCap port ld x.region x.first x.blocks 3) s1)).2
        | none => finishExtent g x.dpa s1)

/-! ## Publish pages (R73-R76) -/

/-- A PUB_CTRL write of PUBLISH or REBASE, with the PUB_REGION and PUB_EXPECT that the page then holds. -/
def pubCtrl (kind : RegOpKind) (ld token : Nat) (s : State) : State :=
  let p := getPub s ld
  let g := getRegion s p.region
  if g.state = .unused ∨ (draftOf? g ld).isNone then pubOutcome ld token .errPermission s
  else if p.busy then pubOutcome ld token .retryQueueFull s
  else
    let s1 := updRegion p.region (fun x => { x with
      ops := x.ops ++ [{ kind := kind, ld := ld, token := token, expect := p.expect, copying := false }] }) s
    settle (if kind = .rebase then setBusy ld true s1 else s1)

/-- What a read of an LD's publish page at an offset answers (Table 3-7): PUB_CTRL is write-only and reads 0. -/
def pubRead (s : State) (ld off : Nat) : Nat :=
  let p := getPub s ld
  match off with
  | 0x000 => p.region
  | 0x008 => p.expect
  | 0x018 => p.lastToken * 2 ^ 16 + p.lastStatus * 2 ^ 8 + b2n p.busy
  | 0x020 => (getRegion s p.region).gen
  | _ => 0

/-- A write of a register of an LD's publish page (R73, Table 3-7); the other registers are read-only. -/
def pubWrite (ld off v : Nat) (s : State) : State :=
  match off with
  | 0x000 => updPub ld (fun p => { p with region := v % 1024 }) s
  | 0x008 => updPub ld (fun p => { p with expect := v % 2 ^ 64 }) s
  | 0x010 =>
    match field v 17 16 with
    | 1 => pubCtrl .publish ld (field v 15 0) s
    | 2 => pubCtrl .rebase ld (field v 15 0) s
    | _ => pubOutcome ld (field v 15 0) .errFormat s
  | _ => s

/-- The host's writes of PUB_REGION and PUB_EXPECT (Table 3-7). -/
def pubRegs (ld region expect : Nat) (s : State) : State := pubWrite ld 0x008 expect (pubWrite ld 0x000 region s)

/-- PUBLISH (R74): PUB_REGION and PUB_EXPECT written, then PUB_CTRL. -/
def execPublish (port ld region expect token : Nat) (s : State) : Out :=
  let g := port % 4 * 16 + ld % 16
  .next (pubCtrl .publish g (token % 65536) (pubRegs g region expect s))

/-- REBASE (R75). -/
def execRebase (port ld region token : Nat) (s : State) : Out :=
  let g := port % 4 * 16 + ld % 16
  .next (pubCtrl .rebase g (token % 65536) (pubRegs g region (getPub s g).expect s))

/-- PUB_CTRL_RSVD_OP (R73): OP 0b00 or 0b11. -/
def execPubCtrlRsvdOp (port ld token : Nat) (s : State) : Out :=
  .next (pubOutcome (port % 4 * 16 + ld % 16) (token % 65536) .errFormat s)

/-- DRAFT_COPY_DONE (R74, R75, R457): Bassoon has copied the read view into the draft; BUSY returns to 0 and the
region's next operation may start. While a line of the copy waits for a snoop, the copy has not ended. -/
def execDraftCopyDone (region : Nat) (s : State) : Out :=
  let g := getRegion s region
  .next (match g.ops.head? with
    | none => s
    | some o =>
      if !o.copying then s
      else
        match draftOf? g o.ld with
        | none => settle (popOp region s)
        | some d =>
          let r := copyBlocks region g.first d.first g.blocks s
          if !r.1 then r.2
          else
            let s1 := if o.kind = .rebase then
                pubOutcome o.ld o.token .ok (updPub o.ld (fun p => { p with expect := g.gen }) r.2)
              else r.2
            settle (popOp region (setBusy o.ld false s1)))

/-- A dead host's publishes that have not swapped are abandoned with FENCED; its later ones stand (R76). -/
def abandonPublishes (lds : List Nat) (s : State) : State :=
  s.hosts.regions.foldl (fun s e =>
    let g := getRegion s e.1
    let gone (o : RegOp) : Bool := o.kind == .publish && !o.copying && lds.contains o.ld
    let s1 := (g.ops.filter gone).foldl (fun s o => pubOutcome o.ld o.token .fenced s) s
    let s2 := if (g.ops.head?.map gone).getD false then
        { s1 with hosts := { s1.hosts with recalls := s1.hosts.recalls.filter (fun x =>
            !(x.2.why == .publishDraft e.1 || x.2.why == .publishRead e.1)) } }
      else s1
    if g.ops.any gone then updRegion e.1 (fun x => { x with ops := x.ops.filter (fun o => !gone o) }) s2 else s2) s

end Sys2Proof.Machine
end

