-- ==== Sys2Proof/Machine/Piccolo.lean ====
section
/-!
DEFINITION. Piccolo's synchronisation objects (spec/11): banks, data phases, wait lists, withdrawal, fences.
-/
namespace Sys2Proof.Machine

/-! ## Objects and ranges (R243, R244) -/

def syncObj0 : SyncObj := { type := 0, value := 0, aux := 0 }
def syncObj (s : State) (n : Nat) : SyncObj := smGet syncObj0 n s.sync.objs
def setSyncObj (n : Nat) (o : SyncObj) (s : State) : State :=
  { s with sync := { s.sync with objs := smSet syncObj0 n o s.sync.objs } }
def syncWaits (s : State) (n : Nat) : List SyncReq := smGet [] n s.sync.waits
def setWaits (n : Nat) (l : List SyncReq) (s : State) : State :=
  { s with sync := { s.sync with waits := smSet [] n l s.sync.waits } }
def bankQueue (s : State) (b : Nat) : List SyncReq := smGet [] b s.sync.banks
def setBank (b : Nat) (l : List SyncReq) (s : State) : State :=
  { s with sync := { s.sync with banks := smSet [] b l s.sync.banks } }

def rangeFirst (v : Nat) : Nat := field v 15 0
def rangeCount (v : Nat) : Nat := field v 48 32
def syncRange (s : State) (p : Nat) : Nat := obj s 0x2700 (p + 1)
def inRange (v n : Nat) : Bool := decide (rangeFirst v ≤ n) && decide (n < rangeFirst v + rangeCount v)

/-- The partition whose range holds an object. -/
def syncPart? (s : State) (n : Nat) : Option Nat := (List.range 64).find? (fun p => inRange (syncRange s p) n)

/-- Waiting entries of a partition's objects, and of the module (R252). -/
def waitsOf (s : State) (p : Nat) : Nat :=
  ((s.sync.waits.filter (fun e => inRange (syncRange s p) e.1)).map (fun e => e.2.length)).foldl (· + ·) 0
def waitsAll (s : State) : Nat := (s.sync.waits.map (fun e => e.2.length)).foldl (· + ·) 0

/-! ## Responses (R247, R248, R250) -/

/-- A response enters the ring: a response cell, or the end of the SYNC_OP job. -/
def deliverSync (r : SyncResp) (s : State) : State :=
  match r.req.job with
  | some j =>
    endJob j r.st r.value (r.retry + b2n r.abandoned * 2 ^ 16 + b2n r.withdrawn * 2 ^ 17 + r.cancel * 2 ^ 18) 0 s
  | none =>
    let b := leBytes 1 0xC2 ++ leBytes 1 (r.req.rid % 256) ++ leBytes 1 (ownEp s) ++ [0] ++
      leBytes 1 r.req.op ++ leBytes 1 (statusCode r.st) ++
      leBytes 1 (b2n r.parkedHit + 2 * b2n r.abandoned + 4 * b2n r.withdrawn + 8 * r.cancel) ++ leBytes 1 r.type ++
      leBytes 2 r.req.obj ++ leBytes 2 r.retry ++ leBytes 4 r.req.tag ++ leBytes 8 r.value ++ zeros 8
    originate (outUnit (.cell b) ((syncPart? s r.req.obj).getD 64) 3 none) s

/-- Responses at the head of Piccolo's stop enter the ring; how many have done so by now is free (R25, R250). -/
def syncRelease (s : State) : State :=
  let f := takeFree s
  let k := f.1.toNat % (s.sync.held.length + 1)
  (s.sync.held.take k).foldl (fun s r => deliverSync r s) { f.2 with sync := { f.2.sync with held := f.2.sync.held.drop k } }

/-- A response is ready: it enters the ring at once or a little later, behind those before it (R250, R25). -/
def syncSend (r : SyncResp) (s : State) : State :=
  let f := takeFree s
  if s.sync.held.isEmpty && f.1.getLsbD 0 then deliverSync r f.2
  else { f.2 with sync := { f.2.sync with held := f.2.sync.held ++ [r] } }

/-- A plain response. -/
def syncResp (q : SyncReq) (st : Status) (type value : Nat) : SyncResp :=
  { req := q, st := st, type := type, value := value, retry := 0, parkedHit := false, abandoned := false,
    withdrawn := false, cancel := 0, undo := false }

/-- The answer OK, with VALUE as it stands. -/
def syncOk (q : SyncReq) (undo : Bool) (s : State) : State :=
  syncSend { syncResp q .ok (syncObj s q.obj).type (syncObj s q.obj).value with undo := undo } s

/-- A refusal; what VALUE it carries is not stated: a free value. -/
def syncRefuse (q : SyncReq) (st : Status) (retry : Nat) (s : State) : State :=
  let f := takeFree s
  syncSend { syncResp q st (syncObj s q.obj).type f.1.toNat with retry := retry } f.2

/-- A loss: BACKOFF with RETRY (R252, R254). -/
def syncLoss (q : SyncReq) (s : State) : State :=
  syncRefuse q .backoff (2 ^ min q.attempt 10)
    (match syncPart? s q.obj with | some p => pbump p 0x6700 2 1 s | none => s)

/-! ## Arrivals (R245, R250-R252, R259) -/

/-- Is this a lock by the requester its mutex is parked on, with no other request for the object in the bank (R251)? -/
def parkedHit (s : State) (q : SyncReq) : Bool :=
  let o := syncObj s q.obj
  q.op == 4 && o.type == 3 && bitOf o.value 17 && o.value % 65536 == q.rid &&
  !(bankQueue s (q.obj % 16)).any (fun x => x.obj == q.obj)

/-- A request joins its bank's queue, or is answered at once (R250-R252). -/
def bankEnqueue (q : SyncReq) (s : State) : State :=
  let b := q.obj % 16
  let l := bankQueue s b
  if 16 ≤ l.length then syncLoss q s
  else if parkedHit s q then setBank b ({ q with hit := true } :: l) s
  else setBank b (l ++ [q]) s

/-- Rsvd bits of a request cell, or an OP that Table 11-2 does not list (R246, R247). -/
def cellBad (b : Bytes) : Bool :=
  decide (0xB < leAt b 4 1) || decide (1 < leAt b 5 1) || decide (15 < leAt b 6 1) || leAt b 7 1 != 0 || leAt b 10 2 != 0

/-- A request cell reaches Piccolo (R244, R259). -/
def syncCell (b : Bytes) (s : State) : State :=
  let ep := leAt b 2 1
  let q : SyncReq :=
    { obj := leAt b 8 2, op := leAt b 4 1 % 16, try_ := bitOf (leAt b 5 1) 0, attempt := leAt b 6 1 % 16,
      tag := leAt b 12 4, arg := leAt b 16 8, arg2 := leAt b 24 8, rid := ep, job := none, hit := false }
  if routeFenced (routeOf s ep) then bump 0x3700 4 s
  else if cellBad b then syncRefuse q .errFormat 0 s
  else bankEnqueue q s

/-- A SYNC_OP job sends its request (R244, R248). -/
def syncJob (j : Nat) (s : State) : State :=
  match runningJob? s j 0x60 with
  | none => s
  | some x =>
    if x.stage ≠ 0 then s
    else
      let d := x.desc
      let r := syncRange s x.part
      let bad : Bool := decide (0xB < leAt d 34 1) || decide (1 < leAt d 35 1) || decide (15 < leAt d 36 1) ||
        (slice d 37 3).any (· != 0) || (slice d 56 72).any (· != 0)
      if bad then endJobResult j .errFormat 0 s
      else if rangeCount r ≤ leAt d 32 2 then endJobResult j .errPermission 0 s
      else
        bankEnqueue { obj := rangeFirst r + leAt d 32 2, op := leAt d 34 1, try_ := bitOf (leAt d 35 1) 0,
                      attempt := leAt d 36 1, tag := leAt d 16 4, arg := leAt d 40 8, arg2 := leAt d 48 8,
                      rid := 0x4000 + x.queue, job := some j, hit := false } (setStage j 1 s)

/-- A request that Piccolo's stop removes from the ring. -/
def execPiccoloBankEnqueue (src : SyncSource) (s : State) : Out :=
  .next (match src with
    | .cell b => syncCell (slice b 0 32) s
    | .job j => syncJob j s)

/-! ## Data phases (R246, R250) -/

/-- The request a bank serves, when it asks for this operation. -/
def bankHead? (s : State) (bank op : Nat) : Option SyncReq :=
  match (bankQueue s bank).head? with
  | some q => if q.op = op then some q else none
  | none => none

/-- The data phase of a bank's next request: the checks of R244, R246 and Table 17-2, then the operation. `types` are
the object types Table 11-2 lists. -/
def dataPhase (bank op : Nat) (types : List Nat) (f : Nat → SyncReq → SyncObj → State → State) (s : State) : State :=
  match bankHead? s bank op with
  | none => s
  | some q =>
    let s1 := setBank bank ((bankQueue s bank).drop 1) (syncRelease s)
    let o := syncObj s1 q.obj
    if q.job.isNone && routeFenced (routeOf s1 q.rid) then bump 0x3700 4 s1
    else
      match syncPart? s1 q.obj with
      | none => syncRefuse q .errPermission 0 (bump 0x3700 1 s1)
      | some p =>
        let s2 := pbump p 0x6700 1 1 (bump 0x3700 1 s1)
        if q.job.isNone && !bitOf (obj s2 0x2701 (p + 1)) q.rid then syncRefuse q .errPermission 0 s2
        else if partState s2 p = 3 then syncRefuse q .fenced 0 s2
        else if !types.contains o.type then syncRefuse q .errFormat 0 s2
        else f p q o s2

/-- A request that cannot be granted: a loss with TRY or without a free entry, else it joins the wait list; whether it
waits (R249, R252). -/
def syncWait (p : Nat) (q : SyncReq) (s : State) : Bool × State :=
  if q.try_ || decide (obj s 0x4701 (p + 1) ≤ waitsOf s p) || decide (32768 ≤ waitsAll s) then (false, syncLoss q s)
  else (true, setWaits q.obj (syncWaits s q.obj ++ [q]) s)

/-- Grant the waiters of a semaphore while the head's count fits (R246). -/
def serveSem (n : Nat) : List SyncReq → State → State
  | [], s => setWaits n [] s
  | w :: ws, s =>
    let o := syncObj s n
    if w.arg ≤ o.value then serveSem n ws (syncOk w true (setSyncObj n { o with value := o.value - w.arg } s))
    else setWaits n (w :: ws) s

/-- Does an EVENT_WAIT's condition hold? -/
def eventHolds (q : SyncReq) (v : Nat) : Bool :=
  if bitOf q.arg2 0 then v &&& q.arg == q.arg else v &&& q.arg != 0

/-- Grant every waiter of an event whose condition holds (R246). -/
def serveEvent (n : Nat) (s : State) : State :=
  let v := (syncObj s n).value
  let l := syncWaits s n
  (l.filter (fun w => eventHolds w v)).foldl (fun s w => syncOk w false s) (setWaits n (l.filter (fun w => !eventHolds w v)) s)

/-- A mutex goes to its head waiter, else it is free, parked on the last holder or not (R246, R253, R258). -/
def passMutex (n : Nat) (park abandoned : Bool) (s : State) : State :=
  let o := syncObj s n
  match syncWaits s n with
  | w :: ws =>
    let s1 := setSyncObj n { o with value := 2 ^ 16 + w.rid } (setWaits n ws s)
    syncSend { syncResp w .ok 3 (2 ^ 16 + w.rid) with undo := true, abandoned := abandoned } s1
  | [] => setSyncObj n { o with value := o.value % 65536 + (if park then 2 ^ 17 else 0) } s

/-- INIT. -/
def execPiccoloInit (bank : Nat) (s : State) : Out :=
  .next (dataPhase bank 0x0 [0, 1, 2, 3, 4] (fun _ q o s =>
    let t := q.arg2 % 8
    if (syncWaits s q.obj).isEmpty = false ∨ (o.type = 3 ∧ bitOf o.value 16 = true) then syncRefuse q .errPermission 0 s
    else if 4 < t ∨ (t = 2 ∧ (q.arg = 0 ∨ 0xFFFFFFFF < q.arg)) ∨ (t = 3 ∧ q.arg ≠ 0) then syncRefuse q .errFormat 0 s
    else
      syncOk q false (setSyncObj q.obj
        { type := t, value := if t = 1 ∨ t = 4 then q.arg else 0, aux := if t = 2 then q.arg else 0 } s)) s)

/-- READ. -/
def execPiccoloRead (bank : Nat) (s : State) : Out :=
  .next (dataPhase bank 0x1 [1, 2, 3, 4] (fun _ q _ s => syncOk q false s) s)

/-- SEM_WAIT. -/
def execSemWait (bank : Nat) (s : State) : Out :=
  .next (dataPhase bank 0x2 [1] (fun p q o s =>
    if q.arg = 0 then syncRefuse q .errFormat 0 s
    else if q.arg ≤ o.value ∧ (syncWaits s q.obj).isEmpty = true then
      syncOk q true (setSyncObj q.obj { o with value := o.value - q.arg } s)
    else (syncWait p q s).2) s)

/-- SEM_POST. -/
def execSemPost (bank : Nat) (s : State) : Out :=
  .next (dataPhase bank 0x3 [1] (fun _ q o s =>
    if 2 ^ 64 ≤ o.value + q.arg then syncRefuse q .errFormat 0 s
    else
      let s1 := syncOk q false (setSyncObj q.obj { o with value := o.value + q.arg } s)
      serveSem q.obj (syncWaits s1 q.obj) s1) s)

/-- MUTEX_LOCK. -/
def execMutexLock (bank : Nat) (s : State) : Out :=
  .next (dataPhase bank 0x4 [3] (fun p q o s =>
    if bitOf o.value 16 then (syncWait p q s).2
    else
      let hit : Bool := q.hit && bitOf o.value 17 && o.value % 65536 == q.rid
      let s1 := setSyncObj q.obj { o with value := 2 ^ 16 + q.rid } (if hit then bump 0x3700 2 s else s)
      syncSend { syncResp q .ok 3 (2 ^ 16 + q.rid) with undo := true, parkedHit := hit } s1) s)

/-- Is the requester the holder of a held mutex? -/
def holdsMutex (q : SyncReq) (o : SyncObj) : Bool := bitOf o.value 16 && o.value % 65536 == q.rid

/-- MUTEX_UNLOCK. -/
def execMutexUnlock (bank : Nat) (s : State) : Out :=
  .next (dataPhase bank 0x5 [3] (fun _ q o s =>
    if holdsMutex q o then syncOk q false (passMutex q.obj true false s) else syncRefuse q .errPermission 0 s) s)

/-- MUTEX_BREAK: the holder's declared break point (R253). -/
def execMutexBreak (bank : Nat) (s : State) : Out :=
  .next (dataPhase bank 0x6 [3] (fun p q o s =>
    if !holdsMutex q o then syncRefuse q .errPermission 0 s
    else if (syncWaits s q.obj).isEmpty then syncOk q false s
    else (syncWait p q (passMutex q.obj true false s)).2) s)

/-- BAR_ARRIVE. -/
def execBarArrive (bank : Nat) (s : State) : Out :=
  .next (dataPhase bank 0x7 [2] (fun p q o s =>
    let arrived := o.value % 2 ^ 32 + 1
    let gen := o.value / 2 ^ 32
    if o.aux ≤ arrived then
      let s1 := setSyncObj q.obj { o with value := ((gen + 1) % 2 ^ 32) * 2 ^ 32 } s
      let ws := syncWaits s1 q.obj
      syncOk q false (ws.foldl (fun s w => syncOk w false s) (setWaits q.obj [] s1))
    else if q.try_ then syncOk q false (setSyncObj q.obj { o with value := gen * 2 ^ 32 + arrived } s)
    else
      let r := syncWait p q s
      if r.1 then setSyncObj q.obj { o with value := gen * 2 ^ 32 + arrived } r.2 else r.2) s)

/-- EVENT_SET. -/
def execEventSet (bank : Nat) (s : State) : Out :=
  .next (dataPhase bank 0x8 [4] (fun _ q o s =>
    serveEvent q.obj (syncOk q false (setSyncObj q.obj { o with value := o.value ||| q.arg } s))) s)

/-- EVENT_CLEAR. -/
def execEventClear (bank : Nat) (s : State) : Out :=
  .next (dataPhase bank 0x9 [4] (fun _ q o s =>
    syncOk q false (setSyncObj q.obj { o with value := o.value &&& (2 ^ 64 - 1 - q.arg % 2 ^ 64) } s)) s)

/-- EVENT_WAIT. -/
def execEventWait (bank : Nat) (s : State) : Out :=
  .next (dataPhase bank 0xA [4] (fun p q o s =>
    if eventHolds q o.value then syncOk q false s else (syncWait p q s).2) s)

/-- The grant of a request that a CANCEL can still take back (R255). -/
def pendingGrant? (s : State) (q : SyncReq) : Option SyncResp :=
  s.sync.held.find? (fun r => r.undo && r.req.obj == q.obj && r.req.rid == q.rid && r.req.tag == q.arg % 2 ^ 32)

/-- Undo a grant: a mutex is unlocked by the requester, a semaphore gets its count back (R255). -/
def undoGrant (r : SyncResp) (s : State) : State :=
  let o := syncObj s r.req.obj
  let s1 := { s with sync := { s.sync with held := s.sync.held.map (fun x =>
    if x = r then { x with withdrawn := true, undo := false } else x) } }
  if o.type = 3 then (if holdsMutex r.req o then passMutex r.req.obj true false s1 else s1)
  else setSyncObj r.req.obj { o with value := (o.value + r.req.arg) % 2 ^ 64 } s1

/-- CANCEL (R255). -/
def execCancel (bank : Nat) (s : State) : Out :=
  .next (dataPhase bank 0xB [1, 2, 3, 4] (fun p q o s =>
    let hit (w : SyncReq) : Bool := w.rid == q.rid && w.tag == q.arg % 2 ^ 32
    let answer (out : Nat) (s : State) : State :=
      syncSend { syncResp q .ok o.type (syncObj s q.obj).value with cancel := out } (if out = 0 then s else pbump p 0x6700 3 1 s)
    match (syncWaits s q.obj).find? hit with
    | some w =>
      answer 1 (syncRefuse w .backoff 0 (setWaits q.obj ((syncWaits s q.obj).erase w) s))
    | none =>
      match pendingGrant? s q with
      | some r => answer 2 (undoGrant r s)
      | none => answer 0 s) s)

/-! ## Fences (R256-R259) and ranges (R243) -/

/-- Answer an object's waiters and empty its list. -/
def dropWaits (n : Nat) (st : Status) (s : State) : State :=
  (syncWaits s n).foldl (fun s w => syncRefuse w st 0 s) (setWaits n [] s)

/-- The refuse phase of a partition fence: steps 1 to 3 of R256. -/
def syncFence (p : Nat) (s : State) : State :=
  let r := syncRange s p
  let mine (rid : Nat) : Bool := decide (0x4000 + (getPart s p).qFirst ≤ rid) && decide (rid < 0x4000 + (getPart s p).qFirst + (getPart s p).qCount)
  let s1 := (s.sync.waits.filter (fun e => inRange r e.1)).foldl (fun s e => dropWaits e.1 .partitionReset s) s
  (s1.sync.objs.filter (fun e => e.2.type == 3 && mine (e.2.value % 65536))).foldl (fun s e =>
    if bitOf e.2.value 16 then passMutex e.1 false true (bump 0x3700 3 s)
    else setSyncObj e.1 { e.2 with value := e.2.value % 65536 } s) s1

/-- The refuse phase of a partition fence begins: the state, the event, Piccolo's steps 1 to 3 (R256, R372); one that falls
on a partition already fencing joins it (R385). -/
def startFence (p cause : Nat) (cmd : FenceCmd) (asCommand : Bool) (s : State) : State :=
  if fencing s p then s
  else
    syncFence p (setPartState p 3 cause
      (updPart p (fun x => { x with fence := some { cause := cause, cmd := cmd, asCommand := asCommand, answered := false } })
        (leaveAccesses (fun _ x => x.part == p) s)))

/-- Every response that Piccolo's stop still holds enters the ring. -/
def syncFlush (s : State) : State :=
  s.sync.held.foldl (fun s r => deliverSync r s) { s with sync := { s.sync with held := [] } }

/-- Set every object of a range to FREE; requests that still wait are answered PARTITION_RESET. -/
def syncFree (r : Nat) (s : State) : State :=
  let s1 := (s.sync.waits.filter (fun e => inRange r e.1)).foldl (fun s e => dropWaits e.1 .partitionReset s) s
  { s1 with sync := { s1.sync with objs := s1.sync.objs.filter (fun e => !inRange r e.1) } }

/-- An endpoint is fenced: its waiting requests leave without a response, its mutexes pass on or are unparked (R258,
R259). -/
def syncFenceEp (ep : Nat) (s : State) : State :=
  let own (w : SyncReq) : Bool := w.job.isNone && w.rid == ep
  let s1 : State := { s with sync := { s.sync with
    waits := (s.sync.waits.map (fun e => (e.1, e.2.filter (fun w => !own w)))).filter (fun e => !e.2.isEmpty) } }
  (s1.sync.objs.filter (fun e => e.2.type == 3 && e.2.value % 65536 == ep)).foldl (fun s e =>
    if bitOf e.2.value 16 then passMutex e.1 false true (bump 0x3700 3 s)
    else setSyncObj e.1 { e.2 with value := e.2.value % 65536 } s) s1

/-- Is a partition held in reset: HELD or FREE (R351)? -/
def partHeld (s : State) (p : Nat) : Bool := partState s p == 0 || partState s p == 1

/-- A write of SYNC_RANGE (R243, R33). -/
def opSyncRange (part value : Nat) (s : State) : Status × State :=
  let old := syncRange s part
  let lo := rangeFirst value
  let hi := lo + rangeCount value
  let overlaps (v : Nat) : Bool := decide (rangeCount v ≠ 0) && decide (rangeFirst v < hi) && decide (lo < rangeFirst v + rangeCount v)
  if value ≠ lo + rangeCount value * 2 ^ 32 then (.errFormat, s)
  else if geomParts s ≤ part ∨ obj s 0x1106 0 < hi ∨ (partHeld s part = false ∧ rangeCount old ≠ 0) ∨
      (rangeCount value ≠ 0 ∧ (List.range 64).any (fun p => p != part && overlaps (syncRange s p)) = true) then (.errPermission, s)
  else (.ok, setObj 0x2700 (part + 1) value (syncFree value (syncFree old s)))

/-- SYNC_RANGE is written. -/
def execSyncRangeWrite (part value : Nat) (s : State) : Out := .next (answerFm 0x2700 (part + 1) (opSyncRange part value s))

end Sys2Proof.Machine
end

