-- ==== Sys2Proof/Machine/TileCache.lean ====
section
/-!
DEFINITION. Tile cache coherence (spec/10): the caches and their line states, snoops, the home's side of the messages,
failure of the tile domain; sparing of a tile (spec/18 R387).
-/
namespace Sys2Proof.Machine

/-! ## Failure of the tile domain (R240-R242) -/

/-- Salvage ends: steps 4 and 5 of R241; the waiting accesses proceed. -/
def salvageEnd (s : State) : State :=
  match s.coh.failure with
  | some f => if f.salvage then wake (endSalvage s) else s
  | none => s

/-- A tile-domain failure (R240-R242). -/
def domainFail (cause ptile line : Nat) (s : State) : State := wake (domainAlarm cause ptile line s)

/-- A coherence error at a tile (Table 10-5, cause 0x01). After step 4 of a recovery it is a message of a transaction that was
abandoned, and says nothing (log entry 105). -/
def tileError (t line : Nat) (s : State) : State :=
  match s.coh.failure with
  | some f => if f.salvage then domainFail 0x01 (tilePhys s t) line s else s
  | none => domainFail 0x01 (tilePhys s t) line s

/-! ## Accesses through a cache (R227, R233, R239) -/

/-- What a cached access gives. -/
inductive CacheAns where
  | hit (d : Bytes)
  | err (st : Status)
  | wait
deriving DecidableEq, Repr

/-- Where an error that the fill of a line brought is kept among a job's channels. -/
def fillChan (line : Nat) : Nat := 2 ^ 20 + line

/-- The error that the fill of a line brought for the access that asked for it (R233, column ERR_DATA). -/
def fillError? (s : State) (j line : Nat) : Option Status :=
  match getJob? s j with
  | some x => (smFind? (fillChan line) x.remoteErr).map (·.1)
  | none => none

/-- Ask the home for a line that is in no state. -/
def startFill (t line j : Nat) (req : TileReq) (st : CacheState) (s : State) : State :=
  match makeRoom t line s with
  | (some w, s1) =>
    send (.tileReq t req line) <| chargeLine j line
      (touchLine t line w (putLine t line { st := st, data := zeros 64, job := some j, way := w, fault := .none } s1))
  | (none, s1) => s1

/-- An access uses the data of a line, as their check bits show them: repaired in place; fetched again, where the copy is a clean
one; lost, put back with POISON, where it is modified (R239). -/
def useLine (t line j : Nat) (c : CacheLine) (use : CacheLine → State → CacheAns × State) (s : State) : CacheAns × State :=
  match c.fault with
  | .none => use c (touchLine t line c.way s)
  | .corrected =>
    let c1 := { c with fault := .none }
    use c1 (touchLine t line c.way (putLine t line c1 (countFault t line c.fault s)))
  | .uncorrectable =>
    match c.st with
    | .m => (.err .errUncorrectable, evictLine t line s)
    | .smD => (.wait, putLine t line { c with st := .imD, fault := .none } (countFault t line c.fault s))
    | .s => (.wait, startFill t line j .gets .isD (dropLine t line (countFault t line c.fault s)))
    | _ => (.wait, evictLine t line (countFault t line c.fault s))

/-- A load of a job (Table 10-4, column Load). An access to a line in transit is held: it is tried again with the job's
command. -/
def cacheLoad (t line j : Nat) (s : State) : CacheAns × State :=
  match fillError? s j line with
  | some st => (.err st, s)
  | none =>
    if s.coh.tagFaults.contains t then (.wait, domainFail 5 (tilePhys s t) line s)
    else
      match cacheLine? s t line with
      | none => (.wait, startFill t line j .gets .isD s)
      | some c =>
        let hit (c : CacheLine) (s : State) : CacheAns × State := (.hit c.data, s)
        match c.st with
        | .s => useLine t line j c hit s
        | .e => useLine t line j c hit s
        | .m => useLine t line j c hit s
        | .smD => useLine t line j c hit s
        | _ => (.wait, s)

/-- A store of a job (Table 10-4, column Store). -/
def cacheStore (t line off : Nat) (bs : Bytes) (j : Nat) (s : State) : CacheAns × State :=
  match fillError? s j line with
  | some st => (.err st, s)
  | none =>
    if s.coh.tagFaults.contains t then (.wait, domainFail 5 (tilePhys s t) line s)
    else
      match cacheLine? s t line with
      | none => (.wait, startFill t line j .getm .imD s)
      | some c =>
        let put (c : CacheLine) (s : State) : CacheAns × State :=
          (.hit [], putLine t line { c with st := .m, data := splice c.data off bs } s)
        match c.st with
        | .e => useLine t line j c put s
        | .m => useLine t line j c put s
        | .s => (.wait, send (.tileReq t .upg line) (chargeLine j line (putLine t line { c with st := .smD, job := some j } s)))
        | _ => (.wait, s)

/-- A built-in read of a list or table through the tile's cache (Table 10-1): the bytes of a range of local memory. -/
def cacheRead (t j : Nat) : List Nat → State → CacheAns × State
  | [], s => (.hit [], s)
  | l :: ls, s =>
    match cacheLoad t l j s with
    | (.hit d, s1) =>
      match cacheRead t j ls s1 with
      | (.hit ds, s2) => (.hit (d ++ ds), s2)
      | r => r
    | (.wait, s1) => (.wait, (cacheRead t j ls s1).2)
    | r => r

/-- Read bytes of an operand that the cache holds for a built-in job: local pieces by lines through the cache, remote
ones with READ (R222, R227). -/
def listRead (j : Nat) (k off n : Nat) (s : State) : OpRes × State :=
  match getJob? s j with
  | none => (.blocked, s)
  | some x =>
    let ps := pieces (opd x k).exts off n 0
    let rem := ps.filter (fun p => p.ep != ownEp s)
    let loc := ((ps.filter (fun p => p.ep == ownEp s)).map linePieces).flatten
    let r := loc.foldl (fun (acc : CacheAns × Nat × State) p =>
      match acc.1 with
      | .err st => (.err st, acc.2)
      | _ =>
        match cacheRead x.tile j (linesOf p.addr p.len) acc.2.2 with
        | (.hit d, s1) =>
          (match acc.1 with | .hit got => .hit (splice got p.off (slice d (p.addr % 64) p.len)) | a => a, 0, s1)
        | (a, s1) => (a, off + p.off, s1)) (.hit (zeros n), 0, s)
    let miss := rem.filter (fun p => !remoteHere x k off p)
    let bad := r.2.1
    let r := (r.1, r.2.2)
    match r.1, smFind? 0 x.remoteErr with
    | .err st, _ => (.err st bad, r.2)
    | _, some (st, a) => (.err st a, r.2)
    | .wait, none => (.blocked, askRemote j x 0 k off off miss r.2)
    | .hit got, none =>
      if miss.isEmpty then (.ok (fillRemote x k off rem got), r.2) else (.blocked, askRemote j x 0 k off off miss r.2)

/-! ## Messages to a tile (Table 10-4) -/

/-- A bridge takes the answer of a tile of its ring; when no tile is left to answer, it sends SNP_DONE (R231). -/
def bridgeTake (t line : Nat) (m s' o : Bool) (d : Option (Bytes × Bool)) (s : State) : State :=
  let k := line * 8 + tileRing s t
  match smFind? k s.coh.bridges with
  | none => s
  | some b =>
    if !b.left.contains t then s
    else
      let b1 : BridgeSt := {
        left := b.left.filter (· != t), hitM := b.hitM + b2n m, hitS := b.hitS || s', ownS := b.ownS || o
        data := match d with | some x => some (t, x) | none => b.data }
      let put (l : SMap BridgeSt) : State := { s with coh := { s.coh with bridges := l } }
      if b1.left.isEmpty then send (bridgeDone line (tileRing s t) b1) (put (smErase k s.coh.bridges))
      else put (smPut k b1 s.coh.bridges)

/-- A tile answers a snoop to its bridge. -/
def answerSnp (t line : Nat) (m s' o : Bool) (d : Option (Bytes × Bool)) (s : State) : State :=
  bridgeTake t line m s' o d (send (.snpAnswer t line m s' o d) s)

/-- A tile's answer to a snoop; for a tile outside the domain, which has no line, the bridge answers MISS (R231). A modified line
whose data cannot be corrected goes out with POISON, and no copy of it stays (R239; log entry 103). -/
def snoopTile (t line : Nat) (inv : Bool) (requester : Option Nat) (s : State) : State :=
  if s.coh.tagFaults.contains t then domainFail 5 (tilePhys s t) line s
  else
    match cacheLine? s t line with
    | none => answerSnp t line false false false none s
    | some c =>
      let bad : Bool := c.fault == .uncorrectable
      let clean : CacheLine := { c with fault := if c.fault = .corrected then .none else c.fault }
      if requester = some t then
        (if c.st = .smD then answerSnp t line false false true none s else answerSnp t line false false false none s)
      else
        match c.st with
        | .s => answerSnp t line false true false none (if inv then dropLine t line s else s)
        | .e => answerSnp t line false true false none (if inv then dropLine t line s else putLine t line { c with st := .s } s)
        | .m => answerSnp t line true false false (some (c.data, bad))
            (countFault t line c.fault (if inv || bad then dropLine t line s else putLine t line { clean with st := .s } s))
        | .smD => answerSnp t line false true false none (if inv then putLine t line { c with st := .imD } s else s)
        | .miA => answerSnp t line true false false (some (c.data, bad)) (putLine t line { c with st := .iiA } s)
        | .eiA => answerSnp t line false true false none (putLine t line { c with st := .iiA } s)
        | _ => answerSnp t line false false false none s

/-- An answer to a tile: its stop discards it where the tile is failed, in reset or gated (R27, R29, Table 17-2). -/
def toTile (t : Nat) (f : State → State) (s : State) : State := if inDomain s t then f s else s

/-- A message from a tile: where the tile's island is gated, in reset or without its clock, the crossing discards it and reports
it to the fence logic of the tile's owner (R28). -/
def fromTile (t : Nat) (f : State → State) (s : State) : State :=
  if inDomain s t then f s
  else if tileOwner s t = 0xFF then s
  else updPart (tileOwner s t) (fun x => { x with crossLost := x.crossLost + 1 }) s

/-- A grant reaches a tile: the line, and GACK. A tile that is leaving the domain and runs nothing gives the line back at once
(R238). -/
def takeGrant (t line : Nat) (st : CacheState) (d : Bytes) (s : State) : State :=
  let old := cacheLine? s t line
  let s1 := send (.gack t line) (putLine t line {
    st := st, data := slice d 0 64, job := none, way := (old.map (·.way)).getD 0
    fault := if old.map (·.st) = some .smD ∧ st = .m then (old.map (·.fault)).getD .none else .none } s)
  if tileState s t = 1 ∧ (tileJobs s t).isEmpty = true then evictLine t line s1 else s1

/-- SNP_S reaches a tile. -/
def execSnpS (tile line : Nat) (requester : Option Nat) (s : State) : Out := .next (snoopTile tile line false requester s)

/-- SNP_I reaches a tile. -/
def execSnpI (tile line : Nat) (requester : Option Nat) (s : State) : Out := .next (snoopTile tile line true requester s)

/-- DATA_S, or DATA_E when `excl`, reaches a tile. -/
def execDataS (tile line : Nat) (excl : Bool) (data : Bytes) (s : State) : Out :=
  .next (toTile tile (fun s =>
    if cacheState s tile line = .isD then takeGrant tile line (if excl then .e else .s) data s else tileError tile line s) s)

/-- DATA_M reaches a tile. -/
def execDataM (tile line : Nat) (data : Bytes) (s : State) : Out :=
  .next (toTile tile (fun s =>
    if cacheState s tile line = .imD ∨ cacheState s tile line = .smD then takeGrant tile line .m data (freshData tile line s)
    else tileError tile line s) s)
where
  /-- new data replace what an SM_D line held -/
  freshData (tile line : Nat) (s : State) : State :=
    match cacheLine? s tile line with | some c => putLine tile line { c with fault := .none } s | none => s

/-- ACK_UPG reaches a tile. -/
def execAckUpg (tile line : Nat) (s : State) : Out :=
  .next (toTile tile (fun s =>
    match cacheLine? s tile line with
    | some c => if c.st = .smD then takeGrant tile line .m c.data s else tileError tile line s
    | none => tileError tile line s) s)

/-- ACK_PUT reaches a tile. -/
def execAckPut (tile line : Nat) (stale : Bool) (s : State) : Out :=
  .next (toTile tile (fun s =>
    match cacheState s tile line, stale with
    | .miA, false => dropLine tile line s
    | .eiA, false => dropLine tile line s
    | .iiA, true => dropLine tile line s
    | _, _ => tileError tile line s) s)

/-- ERR_DATA reaches a tile: the access that asked for the line faults; one only held is tried again (R233). -/
def execErrData (tile line : Nat) (status : Status) (s : State) : Out :=
  .next (toTile tile (fun s =>
    match cacheLine? s tile line with
    | some c =>
      if c.st = .isD ∨ c.st = .imD ∨ c.st = .smD then
        let s1 := send (.gack tile line) (dropLine tile line s)
        match c.job with
        | some j => updJob j (fun x => { x with remoteErr := smPut (fillChan line) (status, 0) x.remoteErr }) s1
        | none => s1
      else tileError tile line s
    | none => tileError tile line s) s)

/-! ## Messages to a home (R234, R235, R240) -/

/-- GETS from a tile. -/
def execGets (tile line : Nat) (s : State) : Out :=
  .next (fromTile tile (fun s => wake (submit (.tile tile) (.tileGet tile .gets (line * 64)) .tile s)) s)

/-- GETM from a tile. -/
def execGetm (tile line : Nat) (s : State) : Out :=
  .next (fromTile tile (fun s => wake (submit (.tile tile) (.tileGet tile .getm (line * 64)) .tile s)) s)

/-- UPG from a tile. -/
def execUpg (tile line : Nat) (s : State) : Out :=
  .next (fromTile tile (fun s => wake (submit (.tile tile) (.tileGet tile .upg (line * 64)) .tile s)) s)

/-- PUTM from a tile, with its POISON flag. -/
def execPutm (tile line : Nat) (data : Bytes) (poison : Bool) (s : State) : Out :=
  .next (fromTile tile (fun s => wake (submit (.tile tile) (.tilePut tile (line * 64) (some (data, poison))) .tile s)) s)

/-- PUTE from a tile. -/
def execPute (tile line : Nat) (s : State) : Out :=
  .next (fromTile tile (fun s => wake (submit (.tile tile) (.tilePut tile (line * 64) none) .tile s)) s)

/-- End a line's transaction. -/
def endTxn (line : Nat) (s : State) : State := { s with coh := { s.coh with txns := smErase line s.coh.txns } }

/-- The GACK of a tile's transaction: it ends, and where the home's read was uncorrectable the clean copies are dropped (R239). -/
def takeGack (line : Nat) (x : HomeTxn) (s : State) : State :=
  wake (if x.drop then dropTileCopies line (endTxn line s) else endTxn line s)

/-- GACK from a tile: the end of its transaction. -/
def execGack (tile line : Nat) (s : State) : Out :=
  .next (fromTile tile (fun s =>
    match smFind? line s.coh.txns with
    | some x =>
      match x.who with
      | .tile t _ => if t = tile ∧ x.granted = true then takeGack line x s else tileError tile line s
      | _ => tileError tile line s
    | none => if s.coh.failure.isSome then s else tileError tile line s) s)

/-- The check of a snoop's result against the filter entry (Table 10-5, cause 0x02). -/
def snoopConflict (f : FilterEntry) (x : HomeTxn) : Bool :=
  decide (1 < x.hitM) || (decide (0 < x.hitM) && x.hitS) ||
  (decide (0 < x.hitM) && (!f.owned || (match x.from? with | some t => t != f.owner | none => true)))

/-- Is the first access that waits for a line one that the home itself performs? The data of a line that another issuer is about
to write whole are kept in DRAM until it does (R235). -/
def nextWrites (line : Nat) (s : State) : Bool :=
  match s.hosts.waiting.find? (fun r => (opLines r.op).contains line) with
  | some r => !isPlace r
  | none => false

/-- What a snoop's result means, once all eight bridges have answered (R230, R234, R235). -/
def snoopOver (line : Nat) (f : FilterEntry) (x : HomeTxn) (s : State) : State :=
  let keepData (whole : Bool) (s : State) : State :=
    match x.hitM, x.data with
    | 0, _ => s
    | _, some (d, poison) => if whole && nextWrites line s then s else storeModified f.owner line d poison s
    | _, none => s
  match x.who with
  | .tile t req => wake (completeTile line t req x (endTxn line s))
  | .access inv whole =>
    let s1 := keepData whole (endTxn line s)
    wake (if inv then dropFilter line s1 else putFilter line (entryFor line false 0) s1)
  | .victim => wake (dropFilter line (bump 0x3620 2 (keepData false (endTxn line s))))

/-- SNP_DONE of one bridge, with the SNPDATA that came with it and the tile it came from (R231, R240). -/
def execSnpDone (line bridge hitM : Nat) (hitS ownS : Bool) (data : Option (Nat × Bytes × Bool)) (s : State) : Out :=
  .next (match smFind? line s.coh.txns with
    | none => if s.coh.failure.isSome then s else domainFail 0x01 0xFF line s
    | some x =>
      if x.granted || bitOf x.bridges bridge || decide (8 ≤ bridge) then domainFail 0x01 0xFF line s
      else
        let own : Bool := match x.who with | .tile t _ => tileRing s t == bridge | _ => false
        let y : HomeTxn := { x with
          bridges := putBit x.bridges bridge true
          hitM := x.hitM + hitM
          hitS := x.hitS || hitS
          ownS := x.ownS || ownS
          data := match data with | some d => some d.2 | none => x.data
          from? := match data with | some d => some d.1 | none => x.from? }
        if ownS && !own then domainFail 0x02 0xFF line s
        else if y.bridges ≠ 255 then { s with coh := { s.coh with txns := smPut line y s.coh.txns } }
        else
          match filterAt s line with
          | none => domainFail 0x06 0xFF line (noteFilterRow line s)
          | some e =>
            let f := e.getD (entryFor line false 0)
            if snoopConflict f y then domainFail 0x02 0xFF line s else snoopOver line f y s)

/-- The eight SNP_DONE have not all come in time (Table 10-5, cause 0x03). -/
def execSnoopTimeout (line : Nat) (s : State) : Out :=
  .next (match smFind? line s.coh.txns with
    | some x => if x.granted then s else domainFail 0x03 0xFF line s
    | none => s)

/-- No GACK has come in time (Table 10-5, cause 0x04). -/
def execGackTimeout (line : Nat) (s : State) : Out :=
  .next (match smFind? line s.coh.txns with
    | some x =>
      if x.granted then
        domainFail 0x04 (match x.who with | .tile t _ => tilePhys s t | _ => 0xFF) line s
      else s
    | none => s)

/-- Salvage ends, or the drain budget expires (R241 step 4). -/
def execSalvageEnd (s : State) : Out := .next (salvageEnd s)

/-- The time of a recovery that lies in a job's budget: from its start, or the job's own, to now (R242). -/
def recoveryTime (s : State) (x : JobSt) : Nat :=
  match s.coh.failure with
  | some f => s.ptime - max f.since x.started
  | none => 0

/-- Dispatch resumes, and the module sends a tile-domain-ready event (R241 step 6). The time of the recovery counts toward no
job's budget (R242). -/
def execTileDomainReady (s : State) : Out :=
  .next (match s.coh.failure with
    | some f =>
      if f.salvage then s
      else
        raiseEvent 0x0041 (leBytes 1 f.cause) { s with
          coh := { s.coh with failure := none }
          work := { s.work with jobs := s.work.jobs.map (fun e =>
            (e.1, if e.2.ran then { e.2 with started := e.2.started + recoveryTime s e.2 } else e.2)) } }
    | none => s)

end Sys2Proof.Machine
end

