-- ==== Sys2Proof/Machine/Queues.lean ====
section
/-!
DEFINITION. Tiles, queues, jobs (spec/05): owners and runs, queue registers, doorbells, sealing, dispatch, retirement,
completion records, decode contexts; DRAIN_INVALIDATE and PT_ROOT (spec/02 R53-R58).
-/
namespace Sys2Proof.Machine

/-! ## Owners, runs, windows (R116-R118) -/

/-- A write of TILE_OWNER (R116, R33). The tile of a new owner leaves the coherence domain and is cleared. -/
def opTileOwner (tile part : Nat) (s : State) : Status × State :=
  let old := tileOwner s tile
  if geomTiles s ≤ tile ∨ (part ≠ 0xFF ∧ geomParts s ≤ part) ∨ (old ≠ 0xFF ∧ partHeld s old = false) then (.errPermission, s)
  else if part = old ∧ (getTile s tile).newOwner = none then (.ok, s)
  else if inDomain s tile then
    -- the owner changes once the tile has left the domain (R238)
    let s1 := if (tileLines s tile).isEmpty then setObj 0x2600 (tile + 1) part (updTile tile (fun x => { x with newOwner := none }) s)
      else leaveDomain tile (updTile tile (fun x => { x with newOwner := some part }) s)
    (.ok, setObj 0x3601 (tile + 1) 1 s1)
  else (.ok, zeroTile tile (setObj 0x2600 (tile + 1) part s))

/-- TILE_OWNER is written. -/
def execTileOwnerWrite (tile part : Nat) (s : State) : Out := .next (answerFm 0x2600 (tile + 1) (opTileOwner tile part s))

/-- Clearing of a tile ends: nothing runs on it, its lines have been taken (R116, R238; lines that its last jobs have brought in
are put back first); it gets its new owner, and a tile to be replaced gives its number to a spare (R387). -/
def execTileClearDone (tile : Nat) (s : State) : Out :=
  .next (if tileState s tile ≠ 1 ∨ (tileJobs s tile).isEmpty = false then s
    else if (tileLines s tile).isEmpty = false then leaveDomain tile s
    else
      let s1 := match (getTile s tile).newOwner with | some p => setObj 0x2600 (tile + 1) p s | none => s
      if (getTile s tile).replace then spareTile tile s1
      else setObj 0x3601 (tile + 1) 0 (zeroTile tile s1))

/-- The partition that a module queue is assigned to. -/
def queuePart? (s : State) (q : Nat) : Option Nat :=
  (s.work.parts.find? (fun e => decide (e.2.qFirst ≤ q) && decide (q < e.2.qFirst + e.2.qCount))).map (·.1)

/-- Put queues back to their first state. -/
def clearQueues (first n : Nat) (s : State) : State :=
  { s with work := { s.work with queues := s.work.queues.filter (fun e => decide (e.1 < first) || decide (first + n ≤ e.1)) } }

/-- A write of QUEUE_ASSIGN (R117, R33): the run of partition PART is set, or released with COUNT 0. -/
def opQueueAssign (v : Nat) (s : State) : Status × State :=
  let first := field v 9 0
  let n := field v 20 12
  let p := field v 29 24
  let x := getPart s p
  let overlaps (y : PartSt) : Bool := decide (y.qCount ≠ 0) && decide (y.qFirst < first + n) && decide (first < y.qFirst + y.qCount)
  if field v 11 10 ≠ 0 ∨ field v 23 21 ≠ 0 ∨ field v 31 30 ≠ 0 then (.errFormat, s)
  else if 256 < n ∨ geomQueues s < first + n ∨ geomParts s ≤ p ∨ (partHeld s p = false ∧ x.qCount ≠ 0) ∨
      (n ≠ 0 ∧ s.work.parts.any (fun e => e.1 != p && overlaps e.2) = true) then (.errPermission, s)
  else
    let s1 := clearQueues first n (clearQueues x.qFirst x.qCount s)
    (.ok, updPart p (fun y => { y with qFirst := if n = 0 then 0 else first, qCount := n }) s1)

/-- QUEUE_ASSIGN is written. -/
def execQueueAssign (value : Nat) (s : State) : Out := .next (answerFm 0x2601 0 (opQueueAssign value s))

/-- A write of PART_LD (R118, R33). -/
def opPartLd (part v : Nat) (s : State) : Status × State :=
  let named := ((List.range 4).filter (fun n => bitOf v (n * 5 + 4))).map (fun n => 16 * n + field v (n * 5 + 3) (n * 5))
  if 2 ^ 20 ≤ v then (.errFormat, s)
  else if geomParts s ≤ part ∨ named.any (fun ld => decide (geomLds s ≤ ld % 16) || decide (obj s 0x110A 0 ≤ ld / 16)) = true ∨
      (List.range 64).any (fun p => p != part && (partLds s p).any named.contains) = true then (.errPermission, s)
  else (.ok, setObj 0x2602 (part + 1) v s)

/-- PART_LD is written. -/
def execPartLdWrite (part value : Nat) (s : State) : Out := .next (answerFm 0x2602 (part + 1) (opPartLd part value s))

/-! ## Queue registers (R119-R121, R127) -/

/-- The jobs of a queue, in the order of their sealing. -/
def queueJobs (s : State) (q : Nat) : List (Nat × JobSt) := s.work.jobs.filter (fun e => e.2.queue == q)

/-- DRAINED (R120): no sealed descriptor, no running job, no held record, and none being sealed. -/
def qDrained (s : State) (q : Nat) : Bool :=
  (queueJobs s q).isEmpty && (getQueue s q).held.isEmpty && (getQueue s q).copied.isNone

/-- May the rings of a queue be set (R119): EN is 0 and DRAINED is 1? -/
def qIdle (s : State) (q : Nat) : Bool := !(getQueue s q).en && qDrained s q

/-- A descriptor fetch that is still to be answered is forgotten; its TAG rests as after a timeout (R321). -/
def dropFetch (m : Nat) (s : State) : State :=
  let mine (r : OutReq) : Bool := match r.who with | .queueFetch q _ => q == m | _ => false
  { s with fabric := { s.fabric with
    reqs := s.fabric.reqs.filter (fun e => !mine e.2)
    retired := (s.fabric.reqs.filter (fun e => mine e.2)).foldl (fun t e =>
      smPut e.1 (s.ptime + 2 * obj s 0x4423 0 * 1000) t) s.fabric.retired } }

/-- Is a partition's MMIO window open to writes (Table 17-2)? -/
def windowOpenFor (s : State) (p : Nat) : Bool := partState s p == 2

/-- The partition whose window a command reaches: the partition it names, or, from 64 on, the one that PART_LD names for the LD
64 + 16 * port + LD, BAR 2 of which shows the window to a host; none for an LD that no partition names (R118). -/
def windowOf? (s : State) (w : Nat) : Option Nat :=
  if w < 64 then some w else (List.range 64).find? (fun p => (partLds s p).contains (w - 64))

/-- A write of a window: one through an LD that exposes none is discarded (R118). -/
def windowDo (w : Nat) (f : Nat → State → State) (s : State) : State :=
  match windowOf? s w with
  | some p => f p s
  | none => s

/-- The module queue of a local queue, when the partition has it and its window is open. -/
def localQueue? (s : State) (p q : Nat) : Option Nat :=
  if windowOpenFor s p && decide (q < (getPart s p).qCount) then some ((getPart s p).qFirst + q) else none

/-- A write of Q_CFG (R119). -/
def qCfgWrite (m v : Nat) (s : State) : State :=
  let x := getQueue s m
  let dl := field v 3 0
  let cl := field v 7 4
  let en := bitOf v 8
  if dl < 4 ∨ cl < 4 then s
  else if en && !x.en && !qDrained s m then s
  else
    let sizes : Bool := qIdle s m
    let rising : Bool := en && !x.en
    updQueue m (fun y => { y with
      vector := field v 23 16, en := en
      descLog2 := if sizes then dl else y.descLog2, compLog2 := if sizes then cl else y.compLog2
      head := if rising then 0 else y.head, tail := if rising then 0 else y.tail
      ctail := if rising then 0 else y.ctail, chead := if rising then 0 else y.chead
      fetching := if rising then false else y.fetching, fetched := if rising then none else y.fetched })
      (if rising then dropFetch m s else s)

/-- Q_CFG of a local queue is written. -/
def execQCfgWrite (part q value : Nat) (s : State) : Out :=
  .next (windowDo part (fun p s => match localQueue? s p q with | some m => qCfgWrite m value s | none => s) s)

/-- A doorbell write (R121). -/
def doorbellWrite (p m tail : Nat) (s : State) : State :=
  let x := getQueue s m
  let t := tail % 65536
  let d := (t + 65536 - x.head) % 65536
  let n := (x.tail + 65536 - x.head) % 65536
  if !x.en then s
  else if d = n then s
  else if n < d ∧ d ≤ 2 ^ x.descLog2 then updQueue m (fun y => { y with tail := t }) s
  else setErrCause p 1 s

/-- A doorbell of a local queue is written. -/
def execDoorbell (part q tail : Nat) (s : State) : Out :=
  .next (windowDo part (fun p s => match localQueue? s p q with | some m => doorbellWrite p m tail s | none => s) s)

/-- A write of one of the registers Q_DESC_BASE, Q_COMP_BASE, Q_BUDGET_US, Q_TILES (Table 5-4, R119). -/
def qRegWrite (p m off v : Nat) (s : State) : State :=
  match off with
  | 0x00 => if qIdle s m then updQueue m (fun y => { y with descBase := field v 47 12 * 4096 }) s else s
  | 0x08 => if qIdle s m then updQueue m (fun y => { y with compBase := field v 47 12 * 4096 }) s else s
  | 0x14 => updQueue m (fun y => { y with budgetUs := v % 2 ^ 32 }) s
  | 0x18 => updQueue m (fun y => { y with tiles := (partTiles s p).foldl (fun a t => putBit a t (bitOf v t)) 0 }) s
  | _ => s

/-- A queue register of a local queue is written. -/
def execQueueRegisterWrite (part q reg value : Nat) (s : State) : Out :=
  .next (windowDo part (fun p s => match localQueue? s p q with | some m => qRegWrite p m reg value s | none => s) s)

/-- A write of PC_ERR_CAUSE clears the bits written as 1 (Table 5-3). -/
def pcErrCauseWrite (p v : Nat) (s : State) : State :=
  if windowOpenFor s p then
    updPart p (fun x => { x with errCause := x.errCause &&& (31 - v % 32) }) s
  else s

/-- PC_ERR_CAUSE is written. -/
def execPcErrCauseWrite (part value : Nat) (s : State) : Out := .next (windowDo part (fun p s => pcErrCauseWrite p value s) s)

/-- The vector control word of an MSI-X entry is written; clearing MASK sends the pending message (R136). -/
def msixControlWrite (p v c : Nat) (s : State) : State :=
  let old := smGet msix0 v (getPart s p).msix
  let s1 := updPart p (fun x => { x with msix := smUpd msix0 v (fun e => { e with control := c % 2 ^ 32 }) x.msix }) s
  if bitOf old.control 0 && !bitOf c 0 && (getPart s p).pba.getLsbD v && !vecQueued s p v then sendVector p v s1 else s1

/-- MASK of a vector is cleared. -/
def execMsixUnmask (part vector : Nat) (s : State) : Out :=
  .next (windowDo part (fun p s => if windowOpenFor s p && decide (vector < 256) then
      msixControlWrite p vector (putBit (smGet msix0 vector (getPart s p).msix).control 0 false) s
    else s) s)

/-! ## Completion records (R126-R128, R52) -/

/-- The record of a job without its PHASE bit (Table 5-7). -/
def recordBytes (s : State) (x : JobSt) : Bytes :=
  let gen := match dCtx? x.desc with | some k => (getCtx s x.part k).gen | none => 0
  slice x.desc 16 8 ++ leBytes 8 x.detail ++ leBytes 1 (statusCode x.status) ++ [0] ++ leBytes 1 (dOpc x.desc) ++
  leBytes 1 x.reason ++ leBytes 2 x.index ++ leBytes 1 x.tile ++ leBytes 1 gen ++ leBytes 4 x.result ++ zeros 4

/-- Room in the completion ring (R127). -/
def ringRoom (x : QueueSt) : Bool := decide ((x.ctail + 65536 - x.chead) % 65536 < 2 ^ x.compLog2)

/-- Write a record at CTAIL; false while its write has to wait. One that fails translation is dropped and counted, and
its index is used up (R52). DESIGN CHOICE (log entry 100): the check of R50 against 2^48 is for operands; a slot beyond it is
translated by its low 48 bits, for records as for descriptors. -/
def writeRecord (p m : Nat) (rec_ : Bytes) (irq : Bool) (s : State) : Bool × State :=
  let x := getQueue s m
  let va := x.compBase + 32 * (x.ctail % 2 ^ x.compLog2)
  let b := splice rec_ 17 [if bitOf x.ctail x.compLog2 then 0 else 1]
  let step (s : State) : State := updQueue m (fun y => { y with ctail := (y.ctail + 1) % 65536 }) s
  let vec : Option Nat := if irq then some x.vector else none
  match xlate p .write va s with
  | (.blocked, s1) => (false, s1)
  | (.err st, s1) => (true, setErrCause p 0 (step (pbump p 0x6110 5 1 (xlFault p va st s1))))
  | (.ok o, s1) =>
    if o.ep = ownEp s1 then
      match tryMem (.front p) .walker (.write o.addr (b.map some)) s1 with
      | (.blocked, s2) => (false, s2)
      | (_, s2) =>
        let s3 := step s2
        (true, match vec with | some v => signalVector p v s3 | none => s3)
    else
      (true, step (originateReq (.record p vec) p p 3 none 0x03 0 o.ep o.addr 1 0 [b] s1))

/-- Write held records while there is room (R127). -/
def flushHeld (p m : Nat) : Nat → State → State
  | 0, s => s
  | n + 1, s =>
    match (getQueue s m).held with
    | [] => s
    | (b, irq) :: rest =>
      if !ringRoom (getQueue s m) then s
      else
        let r := writeRecord p m b irq s
        if r.1 then flushHeld p m n (updQueue m (fun y => { y with held := rest, retireHeld := false }) r.2) else r.2

/-- A write of Q_COMP_HEAD (R127). -/
def compHeadWrite (p m v : Nat) (s : State) : State :=
  let x := getQueue s m
  let c := v % 65536
  if (x.ctail + 65536 - c) % 65536 ≤ (x.ctail + 65536 - x.chead) % 65536 then
    flushHeld p m 32 (updQueue m (fun y => { y with chead := c }) s)
  else s

/-- Q_COMP_HEAD of a local queue is written. -/
def execQCompHeadWrite (part q chead : Nat) (s : State) : Out :=
  .next (windowDo part (fun p s => match localQueue? s p q with | some m => compHeadWrite p m chead s | none => s) s)

/-! ## DRAIN_INVALIDATE (R53-R57) -/

/-- Does an operand of a job share a 64 KiB page with a range? -/
def touchesRange (x : JobSt) (lo len : Nat) : Bool :=
  x.operands.any (fun o => decide (o.len ≠ 0) && decide (o.va / 65536 < (lo + len + 65535) / 65536) &&
    decide (lo / 65536 * 65536 < o.va + o.len))

/-- The commands whose drain sets are empty complete in order (R56). -/
def completeDi (p : Nat) : Nat → State → State
  | 0, s => s
  | n + 1, s =>
    match (getPart s p).di with
    | c :: cs =>
      if c.drain.isEmpty then
        let s1 := pbump p 0x6110 4 1 (updPart p (fun x => { x with
          di := cs, lastToken := c.token, doneCount := (x.doneCount + 1) % 65536 }) s)
        completeDi p n (match c.vector with | some v => signalVector p v s1 | none => s1)
      else s
    | [] => s

/-- A write of DI_CTRL with the ranges then held (R53-R55). -/
def diCtrlWrite (p v : Nat) (s : State) : State :=
  let x := getPart s p
  let all := bitOf v 16
  let irq := bitOf v 17
  let lo := if all then 0 else field x.diBase 47 16 * 65536
  let len := if all then 2 ^ 48 else field x.diLength 48 16 * 65536
  let refuse (c : Status) : State := updPart p (fun y => { y with lastRefusal := statusCode c }) s
  if !windowOpenFor s p then s
  else if 8 ≤ x.di.length then refuse .retryQueueFull
  else if all = false ∧ (len = 0 ∨ 2 ^ 48 < lo + len) then refuse .errAlign
  else if irq = true ∧ obj s 0x2603 (p + 1) ≤ field v 30 20 then refuse .errPermission
  else
    let drain := (s.work.jobs.filter (fun e => e.2.part == p && touchesRange e.2 lo len)).map (·.1)
    completeDi p 8 (updPart p (fun y => { y with
      acceptCount := (y.acceptCount + 1) % 65536
      di := y.di ++ [{ token := v % 65536, vector := if irq then some (field v 30 20) else none, drain := drain }] })
      (xlClear p lo len s))

/-- DI_CTRL is written, with DI_BASE and DI_LENGTH as they were written before it. -/
def execDrainInvalidate (part base length ctrl : Nat) (s : State) : Out :=
  .next (windowDo part (fun p s => if windowOpenFor s p then
      diCtrlWrite p ctrl (updPart p (fun x => { x with
        diBase := field base 47 16 * 65536, diLength := field length 48 16 * 65536 }) s)
    else s) s)

/-- A write of PT_ROOT (R58, R47). -/
def opPtRoot (p v : Nat) (s : State) : Status × State :=
  if geomParts s ≤ p then (.errPermission, s)
  else if field v 16 1 ≠ 0 ∨ field v 63 40 ≠ 0 then (.errFormat, s)
  else if bitOf v 0 = true ∧ partHolds s p (field v 39 17 * 2 ^ 17) = false then (.errPermission, s)
  else (.ok, xlClearAll p (setPobj p 0x6100 0 v s))

/-- PT_ROOT is written. -/
def execPtRootWrite (part value : Nat) (s : State) : Out := .next (answerCmd (opPtRoot part value s))

/-! ## Sealing (R122-R124, R48-R50) -/

/-- The operands of an operation: the offset of each in the descriptor and its access kind (Table 2-5). -/
def operandForm (d : Bytes) : List (Nat × AccKind) :=
  match dOpc d with
  | 0x01 => [(32, .read), (48, .write)]
  | 0x02 => [(32, .write)]
  | 0x03 => [(32, .read), (48, .read)]
  | 0x10 => [(32, .read), (48, .read), (64, .read), (80, .read), (96, .write)]
  | 0x11 => [(32, .atomic), (48, .read)]
  | 0x20 => [(32, .atomic), (48, .read), (64, .read), (80, .write), (96, .read)]
  | 0x21 => [(32, .atomic), (48, .read), (64, .read)]
  | 0x22 => [(32, .atomic), (48, .read), (64, .read), (80, .read), (96, .read)]
  | 0x30 => [(32, .read), (48, .read), (64, .read), (80, .read), (96, .write)]
  | 0x40 => [(32, .read), (48, .write)]
  | 0x50 => [(32, .read)]
  | 0x51 => [(32, 0), (48, 2), (64, 4), (80, 6)].map (fun e : Nat × Nat =>
      (e.1, match field (leAt d 101 1) (e.2 + 1) e.2 with | 0 => .read | 1 => .write | _ => .atomic))
  | _ => []

/-- The header checks of Table 5-6: the status and the offset of the field, if one fails. -/
def headerCheck (s : State) (p : Nat) (x : QueueSt) (d : Bytes) : Option (Status × Nat) :=
  let ctx := dCtx? d
  let tiles := partTiles s p
  let ctxTile := match ctx with | some k => tiles.getD (k / 16) 0xFF | none => 0xFF
  match opcNeedsCtx (dOpc d) with
  | none => some (.errFormat, 0)
  | some need =>
    if leAt d 1 1 / 8 ≠ 0 then some (.errFormat, 1)
    else if field (leAt d 2 2) 14 10 ≠ 0 then some (.errFormat, 2)
    else if leAt d 6 2 ≠ 0 then some (.errFormat, 6)
    else if leAt d 12 4 ≠ 0 then some (.errFormat, 12)
    else if leAt d 24 8 ≠ 0 then some (.errFormat, 24)
    else if 10000000 < dBudget d then some (.errFormat, 8)
    else if dTile d ≠ 0xFF ∧ bitOf x.tiles (dTile d) = false then some (.errPermission, 5)
    else
      match ctx with
      | some k =>
        if 16 * tiles.length ≤ k then some (.errPermission, 2)
        else if dTile d ≠ 0xFF ∧ dTile d ≠ ctxTile then some (.errPermission, 5)
        else if need then none else some (.errFormat, 2)
      | none => if need then some (.errFormat, 2) else none

/-- The checks of R208 that PROG_RUN makes before its operands are sealed. -/
def progRunCheck (s : State) (p : Nat) (d : Bytes) : Option (Status × Nat) :=
  if dOpc d ≠ 0x51 then none
  else
    let kinds := leAt d 101 1
    match [32, 48, 64, 80].find? (fun o => leAt d (o + 6) 2 != 0 || leAt d (o + 13) 3 != 0) with
    | some o => some (.errFormat, o)
    | none =>
      if 8191 < leAt d 96 2 then some (.errFormat, 96)
      else if 3 < leAt d 100 1 then some (.errFormat, 100)
      else if [0, 2, 4, 6].any (fun i => field kinds (i + 1) i == 3) then some (.errFormat, 101)
      else if leAt d 102 2 ≠ 0 then some (.errFormat, 102)
      else
        match [32, 48, 64, 80].find? (fun o => leAt d o 6 % 32 != 0) with
        | some o => some (.errAlign, o)
        | none => if obj s 0x2630 (p + 1) = 0 then some (.errPermission, 0) else none

/-- How sealing a descriptor's operands ends. -/
inductive SealAll where
  | ok (ops : List Operand)
  | err (st : Status) (va : Nat)
  | blocked
deriving DecidableEq, Repr

/-- Is an operand ignored: GRAD of OPT_STEP with EMIT_ONLY (Table 8-3)? -/
def opdIgnored (d : Bytes) (o : Nat) : Bool := dOpc d == 0x20 && o == 48 && leAt d 118 1 % 4 == 2

/-- Translate the operands in declared order (R49). -/
def sealAll (p : Nat) (d : Bytes) : List (Nat × AccKind) → State → SealAll × State
  | [], s => (.ok [], s)
  | (o, k) :: rest, s =>
    let va := leAt d o 6
    let len := if opdIgnored d o then 0 else leAt d (o + 8) 5
    match sealOperand p va len k s with
    | (.err st a, s1) => (.err st a, s1)
    | (.blocked, s1) => (.blocked, s1)
    | (.ok exts, s1) =>
      match sealAll p d rest s1 with
      | (.ok ops, s2) => (.ok ({ va := va, len := len, kind := k, exts := exts } :: ops), s2)
      | r => r

/-- HEAD goes past the descriptor that has been copied, or whose fetch has failed (R122). -/
def takeHead (m : Nat) (d : Option Bytes) (s : State) : State :=
  updQueue m (fun y => { y with head := (y.head + 1) % 65536, fetched := none, fetching := false, copied := d }) s

/-- A new job of a queue, of the descriptor that HEAD has just passed. -/
def newJob (p m : Nat) (d : Bytes) (ops : List Operand) (s : State) : Nat × State :=
  let j := s.work.nextJob
  let x : JobSt := {
    part := p, queue := m, index := ((getQueue s m).head + 65535) % 65536, desc := d, operands := ops, phase := .sealed, tile := 0xFF
    status := .ok, detail := 0, result := 0, reason := 0, ran := false, started := 0, delayed := false, remote := []
    outstanding := [], remoteErr := [], skipped := 0, stage := 0, count := 0, checked := none, att := none }
  let s1 := { s with work := { s.work with jobs := smPut j x s.work.jobs, nextJob := j + 1 } }
  (j, updQueue m (fun y => { y with copied := none }) s1)

/-- A descriptor that is completed without running (R49, R124). -/
def failDescriptor (p m : Nat) (d : Bytes) (st : Status) (det : Nat) (s : State) : State :=
  let r := newJob p m d [] s
  endJobDetail r.1 st det r.2

/-- Count a descriptor that failed translation. DESIGN CHOICE (log entry 100): XL_ERR_PERMISSION, a translation object of Table
2-7, counts no descriptor that a header check fails. -/
def xlFailCount (p : Nat) (st : Status) (s : State) : State :=
  match st with
  | .errTranslate => pbump p 0x6110 2 1 s
  | .errPermission => pbump p 0x6110 3 1 s
  | _ => s

/-- Check and seal a descriptor that has been copied (R48-R50, R124). -/
def sealCopied (p m : Nat) (d : Bytes) (s : State) : State :=
  match headerCheck s p (getQueue s m) d with
  | some (st, off) => failDescriptor p m d st off s
  | none =>
    match progRunCheck s p d with
    | some (st, off) => failDescriptor p m d st off s
    | none =>
      match sealAll p d (operandForm d) s with
      | (.blocked, s1) => s1
      | (.err st va, s1) => failDescriptor p m d st va (xlFailCount p st (xlFault p va st s1))
      | (.ok ops, s1) => pbump p 0x6600 1 1 (newJob p m d ops s1).2

/-- A descriptor fetch has failed: HEAD passes it, and it is completed with the status (R49). -/
def failFetch (p m : Nat) (st : Status) (va : Nat) (s : State) : State := failDescriptor p m (zeros 128) st va (takeHead m none s)

/-- The descriptor at HEAD has been copied: later writes to its slot have no effect on it (R48, R122). -/
def copyDescriptor (p m : Nat) (d : Bytes) (s : State) : State := sealCopied p m d (takeHead m (some d) s)

/-- Seal the copied descriptor, or fetch the one at HEAD first. What is blocked, or fetched from another endpoint, goes on
when the front end tries again. -/
def sealNext (p m : Nat) (s : State) : State :=
  let x := getQueue s m
  let va := x.descBase + 128 * (x.head % 2 ^ x.descLog2)
  match x.copied, x.fetched with
  | some d, _ => sealCopied p m d s
  | none, some (.ok, d) => copyDescriptor p m (slice d 0 128) s
  | none, some (st, _) => failFetch p m st va s
  | none, none =>
    match xlate p .read va s with
    | (.blocked, s1) => s1
    | (.err st, s1) => failFetch p m st va (xlFailCount p st (xlFault p va st s1))
    | (.ok o, s1) =>
      if o.ep = ownEp s1 then
        match tryMem (.front p) .walker (.read o.addr 128) s1 with
        | (.blocked, s2) => s2
        | (.err st, s2) => failFetch p m st va s2
        | (.ok d, s2) => copyDescriptor p m d s2
      else if x.fetching then s1
      else
        originateReq (.queueFetch m x.head) p p 3 none 0x01 0 o.ep o.addr 15 3 []
          (updQueue m (fun y => { y with fetching := true }) s1)

/-- Has the front end a descriptor of a queue to take: one that is copied, or one between HEAD and TAIL of an enabled queue
(R120, R122)? -/
def frontHas (x : QueueSt) : Bool := x.copied.isSome || (x.en && x.head != x.tail)

/-- The front end takes the next descriptor of a queue (R121, R122). -/
def execDescriptorSeal (queue : Nat) (s : State) : Out :=
  .next (match queuePart? s queue with
    | none => s
    | some p =>
      if partState s p ≠ 2 ∨ frontHas (getQueue s queue) = false ∨ 255 ≤ (queueJobs s queue).length then s
      else sealNext p queue s)

/-! ## Dispatch (R114, R122, R125, R131, R132, R208, R209, R387) -/

/-- Free job slots of a tile (R114): a load or a run takes all sixteen. -/
def freeSlots (s : State) (t : Nat) : Nat :=
  16 - ((s.work.jobs.filter (fun e => e.2.tile == t && e.2.phase == .running)).map (fun e =>
    if dOpc e.2.desc = 0x50 ∨ dOpc e.2.desc = 0x51 then 16 else 1)).foldl (· + ·) 0

/-- Slots a job needs. -/
def slotsFor (opc : Nat) : Nat := if opc = 0x50 ∨ opc = 0x51 then 16 else 1

/-- The tile a job is bound to: TILE, or its context's. -/
def boundTile? (s : State) (x : JobSt) : Option Nat :=
  match dCtx? x.desc with
  | some k => some ((partTiles s x.part).getD (k / 16) 0xFF)
  | none => if dTile x.desc = 0xFF then none else some (dTile x.desc)

/-- May a job run on a tile now? -/
def tileTakes (s : State) (x : JobSt) (t : Nat) : Bool :=
  let q := getQueue s x.queue
  (match boundTile? s x with | some b => b == t | none => true) &&
  bitOf q.tiles t && tileOwner s t == x.part && tileState s t == 0 &&
  decide (slotsFor (dOpc x.desc) ≤ freeSlots s t) &&
  !(dOpc x.desc == 0x10 && s.work.jobs.any (fun e => e.2.phase == .running && dOpc e.2.desc == 0x10 &&
    e.2.part == x.part && dCtx? e.2.desc == dCtx? x.desc)) &&
  (dOpc x.desc != 0x51 || dTile x.desc != 0xFF || obj s 0x3610 (t + 1) == leAt x.desc 98 2)

/-- Where a job's first packet goes decides its admission (R343). -/
def admitJob (s : State) (x : JobSt) : Admission :=
  match (x.operands.find? (fun o => !o.exts.isEmpty)).bind (fun o => o.exts.head?) with
  | none => .served
  | some e =>
    if e.ep = ownEp s then admitMem s (e.addr / 64) x.part (dSvc x.desc) else admitNarlin s e.ep x.part (dSvc x.desc)

/-- Put a job on a tile, or on Bassoon, the front end or Piccolo. -/
def startJob (j t : Nat) (x : JobSt) (s : State) : State :=
  let u := if opcNoTile (dOpc x.desc) then 0xFF else t
  let s1 := updJob j (fun y => { y with phase := .running, tile := u, ran := true, started := s.ptime }) s
  if dOpc x.desc = 0x51 then pbump x.part 0x6630 2 1 s1 else s1

/-- The port and kind a job's admission was decided at, for SCH_LAST_REFUSAL. -/
def admitPort (x : JobSt) : Nat :=
  match (x.operands.find? (fun o => !o.exts.isEmpty)).bind (fun o => o.exts.head?) with
  | some e => lstackOf e.addr
  | none => 0

/-- The checks that end a job at its dispatch without running it (R132, R208, R209, R387); LOAD_ID is compared once the bound tile
could take the job. -/
def dispatchCheck (s : State) (x : JobSt) : Option (Status × Option Nat) :=
  let opc := dOpc x.desc
  let tiles := onesBelow 64 (getQueue s x.queue).tiles
  if (match boundTile? s x with | some t => tileState s t == 2 | none => false) then some (.errInternal, none)
  else
    match dCtx? x.desc with
    | some k =>
      let c := getCtx s x.part k
      if opc ≠ 0x08 ∧ opc ≠ 0x09 ∧ (c.isOpen = false ∨ c.gen ≠ dGen x.desc) then some (.contextGone, none) else none
    | none =>
      if opc = 0x51 then
        match boundTile? s x with
        | some t => if tileTakes s x t = true ∧ obj s 0x3610 (t + 1) ≠ leAt x.desc 98 2 then some (.errFormat, some 98) else none
        | none => if tiles.any (fun t => obj s 0x3610 (t + 1) == leAt x.desc 98 2) then none else some (.errFormat, some 98)
      else none

/-- May the front end consider a job now: the next sealed one of its queue, its fence honoured, the holding store not
full, its partition and the tile domain in service (R122, R127, R241, R372)? -/
def mayDispatch (s : State) (j : Nat) (x : JobSt) : Bool :=
  x.phase == .sealed && partState s x.part == 2 && s.coh.failure.isNone &&
  decide ((getQueue s x.queue).held.length < 32) &&
  (queueJobs s x.queue).all (fun e => decide (j ≤ e.1) || (e.2.phase != .sealed && !dFenceBefore x.desc))

/-- The scheduler's outcome (R125, R343, R344). -/
def dispatchBy (j t : Nat) (x : JobSt) (s : State) : State :=
  match admitJob s x with
  | .served => startJob j t x s
  | .refused code => endJobFree j .retryQueueFull code (countRefused x.part (dSvc x.desc) code (admitPort x) 2 s)
  | .delayed code =>
    let s1 := if x.delayed then s else updJob j (fun y => { y with delayed := true }) (countDelayed x.part code s)
    if dNoWait x.desc then endJobFree j .retryShaped code s1 else s1

/-- The front end considers a sealed job for a tile. -/
def execJobDispatch (job tile : Nat) (s : State) : Out :=
  .next (match getJob? s job with
    | none => s
    | some x =>
      if !mayDispatch s job x then s
      else
        match dispatchCheck s x with
        | some (st, some det) => endJobDetail job st det s
        | some (st, none) => endJobFree job st 0 s
        | none => if opcNoTile (dOpc x.desc) || tileTakes s x tile then dispatchBy job tile x s else s)

/-! ## Retirement (R122, R127, R56, R353) -/

/-- A job is gone from every drain set. -/
def leaveDrains (p j : Nat) (s : State) : State :=
  completeDi p 8 (updPart p (fun x => { x with
    di := x.di.map (fun c => { c with drain := c.drain.filter (· != j) }) }) s)

/-- Does a job hold no further access: every request answered, every stream and packet over? -/
def jobQuiet (x : JobSt) : Bool := x.outstanding.isEmpty

/-- The job is out of the queue. -/
def jobGone (j : Nat) (x : JobSt) (s : State) : State :=
  let s1 := { s with work := { s.work with jobs := smErase j s.work.jobs } }
  let s2 := pbump x.part 0x6600 2 1 (if 0x30 ≤ statusCode x.status then pbump x.part 0x6600 3 1 s1 else s1)
  leaveDrains x.part j s2

/-- Hold a record (R127). -/
def holdRecord (p m : Nat) (b : Bytes) (irq : Bool) (s : State) : State :=
  let s1 := pbump p 0x6600 4 1 (updQueue m (fun y => { y with held := y.held ++ [(b, irq)] }) s)
  if 32 ≤ (getQueue s1 m).held.length ∧ (getQueue s1 m).retireHeld = false then
    setErrCause p 4 (updQueue m (fun y => { y with retireHeld := true }) s1)
  else s1

/-- Retire an ended job: held records for which there is room go first, then its own is written or held; false while neither
is possible. -/
def retireJob (j : Nat) (x : JobSt) (s0 : State) : Bool × State :=
  let s := flushHeld x.part x.queue 32 s0
  let q := getQueue s x.queue
  let b := recordBytes s x
  let irq := dIrq x.desc
  if q.held.isEmpty ∧ ringRoom q = true then
    let r := writeRecord x.part x.queue b irq s
    if r.1 then (true, jobGone j x r.2) else (false, r.2)
  else if q.held.length < 32 then (true, jobGone j x (holdRecord x.part x.queue b irq s))
  else (false, s)

/-- A job that has ended retires. -/
def execJobRetire (job : Nat) (s : State) : Out :=
  .next (match getJob? s job with
    | none => s
    | some x => if x.phase = .ended ∧ jobQuiet x = true then (retireJob job x s).2 else s)

/-- A job's budget in µs (R130). -/
def jobBudgetUs (s : State) (x : JobSt) : Nat :=
  if dBudget x.desc ≠ 0 then dBudget x.desc
  else if (getQueue s x.queue).budgetUs ≠ 0 then (getQueue s x.queue).budgetUs
  else obj s 0x4600 0 * 1000

/-- A job has not retired after twice its budget: BUDGET_EVENT, the fence event, a RESET fence of its partition (R130,
R380). -/
def execJobBudgetExpiry (job : Nat) (s : State) : Out :=
  .next (match getJob? s job with
    | none => s
    | some x =>
      if x.ran = false ∨ s.ptime < x.started + recoveryTime s x + 2 * jobBudgetUs s x * 1000 ∨ partState s x.part ≠ 2 then s
      else
        let s1 := raiseEvent 0x0050 (leBytes 1 x.part ++ leBytes 1 3 ++ leBytes 1 5 ++ zeros 5 ++ leBytes 8 s.ptime ++
          leBytes 2 x.queue ++ leBytes 2 x.index) (setErrCause x.part 2 s)
        startFence x.part 5 .watchdog false s1)

/-! ## NOP and decode contexts (R133, R134, R378) -/

/-- NOP does nothing. -/
def execNop (job : Nat) (s : State) : Out :=
  .next (match runningJob? s job 0x00 with | some _ => endJobFree job .ok 0 s | none => s)

/-- The context of a job. -/
def jobCtx (x : JobSt) : Nat := (dCtx? x.desc).getD 0

/-- CTX_OPEN (R133). -/
def execCtxOpen (job : Nat) (s : State) : Out :=
  .next (match runningJob? s job 0x08 with
    | none => s
    | some x =>
      let c := getCtx s x.part (jobCtx x)
      if c.isOpen then endJobFree job .errPermission 0 s
      else endJobResult job .ok c.gen (updCtx x.part (jobCtx x) (fun y => { y with isOpen := true }) s))

/-- End the running jobs of a context with CONTEXT_GONE; what their homes have accepted completes (Table 17-5). -/
def endContextJobs (p k : Nat) (s : State) : State :=
  let mine (x : JobSt) : Bool := x.part == p && dCtx? x.desc == some k && x.phase == .running && dOpc x.desc != 0x08 && dOpc x.desc != 0x09
  s.work.jobs.foldl (fun s e => if mine e.2 then endJobFree e.1 .contextGone 0 s else s) (leaveAccesses (fun _ x => mine x) s)

/-- Is a unit a request of a context's jobs? -/
def ctxUnit (s : State) (p k : Nat) (o : Outgoing) : Bool :=
  match o.unit with
  | .cell _ => false
  | .pkt q =>
    opcIsRequest (pkOpc q) && pkGv q && o.sub == p &&
    (match smFind? (reqKey (pkDst q) (pkTag q)) s.fabric.reqs with
     | some r =>
       (match (match r.who with | .jobRead j _ _ _ _ _ _ => some j | .jobWrite j _ _ => some j | _ => none).bind (getJob? s) with
        | some x => x.part == p && dCtx? x.desc == some k
        | none => false)
     | none => false)

/-- The packets in a leaf. -/
def leafUnits (l : List SchedItem) : List Outgoing :=
  l.filterMap (fun i => match i with | .nl o => some o | _ => none)

/-- Keep in every leaf the items that satisfy a test. -/
def filterLeaves (keep : SchedItem → Bool) (m : SMap SchedPort) : SMap SchedPort :=
  let svc (v : Nat × SvcSt) : Nat × SvcSt := (v.1, { v.2 with leaf := v.2.leaf.filter keep })
  let sub (b : Nat × SubSt) : Nat × SubSt := (b.1, { b.2 with svcs := b.2.svcs.map svc })
  m.map (fun e => (e.1, { e.2 with subs := e.2.subs.map sub }))

/-- Take the packets that satisfy a test out of the waiting list, the leaves and the egress queues. -/
def takeUnits (f : Outgoing → Bool) (s : State) : List Outgoing × State :=
  let keep (i : SchedItem) : Bool := match i with | .nl o => !f o | _ => true
  let hit : List Outgoing := s.fabric.waiting.filter f ++
    (s.sched.map (fun e => (e.2.subs.map (fun b => (b.2.svcs.map (fun v => (leafUnits v.2.leaf).filter f)).flatten)).flatten)).flatten ++
    (s.fabric.egress.map (fun e => e.2.filter f)).flatten
  (hit, { s with
    fabric := { s.fabric with
      waiting := s.fabric.waiting.filter (fun o => !f o)
      egress := (s.fabric.egress.map (fun e => (e.1, e.2.filter (fun o => !f o)))).filter (fun e => !e.2.isEmpty) }
    sched := filterLeaves keep s.sched })

/-- Discard the context's packets that have not reached a DATA flit (R378, Table 17-5): reads end CONTEXT_GONE, writes
are dropped; each is counted. -/
def dropStale (p k : Nat) (s : State) : State :=
  let r := takeUnits (ctxUnit s p k) s
  r.1.foldl (fun s o => failUnit o.unit .contextGone (pbump p 0x6902 2 1 s)) r.2

/-- CTX_CLOSE (R133): steps 1 and 2 at once; step 3 by CTX_CLOSE_COMPLETE. -/
def execCtxClose (job : Nat) (s : State) : Out :=
  .next (match runningJob? s job 0x09 with
    | none => s
    | some x =>
      let k := jobCtx x
      let c := getCtx s x.part k
      if c.closing = some job then s
      else if c.isOpen = false then endJobFree job .ok 0 s
      else
        dropStale x.part k (endContextJobs x.part k
          (updCtx x.part k (fun _ => { isOpen := false, gen := (c.gen + 1) % 256, closing := some job }) s)))

/-- Does the tile still hold a request of the context's old generation? -/
def ctxBusy (s : State) (p k : Nat) : Bool :=
  s.work.jobs.any (fun e => e.2.part == p && dCtx? e.2.desc == some k && dOpc e.2.desc != 0x08 && dOpc e.2.desc != 0x09 &&
    !e.2.outstanding.isEmpty && dGen e.2.desc != (getCtx s p k).gen)

/-- Every stop and port has acknowledged the new GEN: the CTX_CLOSE completes OK (R378). -/
def execCtxCloseComplete (part ctx : Nat) (s : State) : Out :=
  .next (match (getCtx s part ctx).closing with
    | none => s
    | some j =>
      if ctxBusy s part ctx || fencing s part then s
      else endJobFree j .ok 0 (updCtx part ctx (fun c => { c with closing := none }) s))

end Sys2Proof.Machine
end

