-- ==== Sys2Proof/Machine/Attend.lean ====
section
/-!
DEFINITION. KV_SUMMARISE and ATTEND (spec/07): slot layouts, summaries, Sorrel, the streaming procedure, the records.
-/
namespace Sys2Proof.Machine

/-! ## Layouts (R159, Tables 7-1, 7-2) -/

/-- The first check that fails of a list of (fails, status, DETAIL). -/
def firstFail : List (Bool × Status × Nat) → Option (Status × Nat)
  | [] => none
  | (b, st, d) :: r => if b then some (st, d) else firstFail r

/-- Has an operand word of a body a reserved bit set (R123)? -/
def opdRsvd (d : Bytes) (o : Nat) : Bool := leAt d (o + 6) 2 != 0 || leAt d (o + 13) 3 != 0

/-- DCODE. -/
def kvDim (code : Nat) : Nat := if code % 4 = 0 then 64 else if code % 4 = 1 then 128 else 256
def kvFmtOk (c : Nat) : Bool := [1, 2, 3, 4, 8, 9].contains c
def kvElems (dim c : Nat) : Nat := 64 * dim * (fmtBits c / 8)
def kvScales (dim c : Nat) : Nat := if fmtIsMx c then 2 * dim else 0
def roundUp256 (n : Nat) : Nat := (n + 255) / 256 * 256
def keySlot (dim c : Nat) : Nat := roundUp256 (kvElems dim c + kvScales dim c + 4 * dim)
def valueSlot (dim c : Nat) : Nat := roundUp256 (kvElems dim c + kvScales dim c)

/-- Key (t, d) of a slot's elements and scales, exactly. -/
def keyVal (dim c : Nat) (bs : Bytes) (t d : Nat) : FVal :=
  let x := elemAt bs (fmtBits c) (t * dim + d)
  if fmtIsMx c then mxVal c x (leAt bs (kvElems dim c + t * dim / 32 + d / 32) 1) else elemVal c x

/-- Value (t, d) of a slot, exactly. -/
def valueVal (dim c : Nat) (bs : Bytes) (t d : Nat) : FVal :=
  if fmtIsMx c then mxVal c (elemAt bs (fmtBits c) (d * 64 + t)) (leAt bs (kvElems dim c + d * 2 + t / 32) 1)
  else elemVal c (elemAt bs (fmtBits c) (t * dim + d))

/-! ## Summaries (R160-R163) -/

/-- The MAX or MIN row of a summary: the reduction over 64 tokens, in BF16. -/
def summaryRow (op : BitVec 32 → BitVec 32 → BitVec 32) (dim c : Nat) (bs : Bytes) : Bytes :=
  ((List.range dim).map (fun d =>
    let xs := (List.range 64).map (fun t => f32 (keyVal dim c bs t d))
    leBytes 2 (narrow 1 .nearest ((xs.drop 1).foldl op (xs.headD 0))))).flatten

/-- The summary of a key slot. -/
def kvSummary (dim c : Nat) (bs : Bytes) : Bytes := summaryRow f32Max dim c bs ++ summaryRow f32Min dim c bs

/-- The granules of a range of an operand's local pieces. -/
def granulesOf (o : Operand) (off n : Nat) : List Nat :=
  ((pieces o.exts off n 0).map (fun p =>
    (List.range ((p.addr + p.len - 1) / 256 - p.addr / 256 + 1)).map (p.addr / 256 + ·))).flatten

/-- Set the state of granules in the summary-valid map. -/
def setGranules (v : Nat) (gs : List Nat) (s : State) : State :=
  { s with dram := { s.dram with summary := gs.foldl (fun m g => smSet 0 g v m) s.dram.summary } }

/-- The dispatch checks of KV_SUMMARISE (R163). -/
def kvCheck (s : State) (x : JobSt) : Option (Status × Nat) :=
  let d := x.desc
  firstFail [
    (opdRsvd d 32, .errFormat, 32), (opdRsvd d 48, .errFormat, 48),
    (decide (2 < leAt d 64 1), .errFormat, 64),
    (!kvFmtOk (leAt d 65 1), .errFormat, 65),
    ((d.drop 66).any (· != 0), .errFormat, 66),
    (leAt d 32 6 % 256 != 0, .errAlign, 32),
    (leAt d 56 5 % 4 != 0, .errAlign, 56),
    ((opd x 0).exts.any (fun e => e.ep != ownEp s), .errPermission, 32)]

/-- End KV_SUMMARISE at a list entry, its slot's granules INVALID. -/
def kvFail (j : Nat) (x : JobSt) (st : Status) (gs : List Nat) (s : State) : State :=
  endJob j st (detail 2 (x.stage / 2)) (x.stage / 2) 0 (setGranules 0 gs s)

/-- Steps 2 to 4 of R162 for an armed slot at an offset of KPOOL. -/
def kvSlot (j : Nat) (x : JobSt) (dim c off : Nat) (s : State) : Bool × State :=
  let gs := granulesOf (opd x 0) off (keySlot dim c)
  let n := kvElems dim c + kvScales dim c
  match opRead j 0 0 (opd x 0) off n 0 s with
  | (.blocked, s1) => (false, s1)
  | (.err st _, s1) => (false, kvFail j x st gs s1)
  | (.ok bs, s1) =>
    match opWrite j 0 (opd x 0) (off + n) 2 (kvSummary dim c bs) 0 s1 with
    | (.blocked, s2) => (false, s2)
    | (.err st _, s2) => (false, kvFail j x st gs s2)
    | (.ok _, s2) =>
      let armed := gs.filter (fun g => smGet 0 g s1.dram.summary == 1)
      (true, setStage j (x.stage + 1) (pbump x.part 0x6610 4 1 (setGranules 2 armed s2)))

/-- Summarise on: a stage of 2i is entry i not yet armed, 2i + 1 an armed one. -/
def kvFrom (j : Nat) : Nat → State → State
  | 0, s => s
  | n + 1, s =>
    match getJob? s j with
    | none => s
    | some x =>
      let dim := kvDim (leAt x.desc 64 1)
      let c := leAt x.desc 65 1
      let i := x.stage / 2
      if (opd x 1).len / 4 ≤ i then endJobResult j .ok i s
      else
        match listRead j 1 (4 * i) 4 s with
        | (.blocked, s1) => s1
        | (.err st _, s1) => kvFail j x st [] s1
        | (.ok b, s1) =>
          let off := leAt b 0 4 * keySlot dim c
          if (opd x 0).len / keySlot dim c ≤ leAt b 0 4 then kvFail j x .errFormat [] s1
          else if x.stage % 2 = 0 then
            kvFrom j n (setStage j (x.stage + 1) (setGranules 1 (granulesOf (opd x 0) off (keySlot dim c)) s1))
          else
            match kvSlot j x dim c off s1 with
            | (true, s2) => if tileShared s2 j then s2 else kvFrom j n s2
            | (false, s2) => s2

/-- KV_SUMMARISE (R162, R163). -/
def execKvSummarise (job : Nat) (s : State) : Out :=
  .next (match runningJob? s job 0x11 with
    | none => s
    | some x =>
      checkOnce job x (kvCheck s x) (kvFrom job ((opd x 1).len / 2 + 2)) s)

/-! ## Geometry of an ATTEND job (R164, Tables 7-4 to 7-6) -/

def atScale (x : JobSt) : BitVec 32 := BitVec.ofNat 32 (leAt x.desc 112 4)
def atFirst (x : JobSt) : Nat := leAt x.desc 116 2
def atCount (x : JobSt) : Nat := leAt x.desc 118 2
def atTopk (x : JobSt) : Nat := leAt x.desc 120 2
def atMode (x : JobSt) : Nat := leAt x.desc 125 1 % 4
def atHkvFirst (x : JobSt) : Nat := leAt x.desc 126 1
def atHkvCount (x : JobSt) : Nat := leAt x.desc 127 1

def hdDim (h : Bytes) : Nat := kvDim (leAt h 2 1)
def hdKfmt (h : Bytes) : Nat := leAt h 3 1 % 16
def hdVfmt (h : Bytes) : Nat := leAt h 3 1 / 16
def hdQw (h : Bytes) : Nat := if bitOf (leAt h 4 1) 0 then 2 else 4
def hdG (h : Bytes) : Nat := leAt h 5 1
def hdHkv (h : Bytes) : Nat := leAt h 6 1
def hdPages (h : Bytes) : Nat := leAt h 8 2

def enKslot (e : Nat) : Nat := field e 23 0
def enVslot (e : Nat) : Nat := field e 47 24
def enCount (e : Nat) : Nat := field e 54 48

/-- Items 1 to 3 of Table 7-8. -/
def attCheck (s : State) (x : JobSt) : Option (Status × Nat) :=
  let d := x.desc
  firstFail ([32, 48, 64, 80, 96].map (fun o => (opdRsvd d o, Status.errFormat, o)) ++
    [(!f32IsFinite (atScale x) || bitOf (leAt d 112 4) 31 || leAt d 112 4 == 0, .errFormat, 112),
     (atCount x == 0, .errFormat, 118),
     (decide (2 < leAt d 125 1), .errFormat, 125),
     (atHkvCount x == 0, .errFormat, 127)] ++
    [(32, 64), (48, 256), (64, 256), (80, 64), (96, 64)].map (fun e : Nat × Nat =>
      (leAt d e.1 6 % e.2 != 0, Status.errAlign, e.1)) ++
    [(atMode x != 0 && !bitOf (obj s 0x2610 (x.part + 1)) (atMode x - 1), .errPermission, 125),
     (decide (leAt d 88 5 < 64), .errFormat, 88)])

/-- Item 4 of Table 7-8: the offset of the header field. -/
def hdrCheck (h : Bytes) : Option (Status × Nat) :=
  firstFail [
    (leAt h 0 2 != 1, .errFormat, 0), (decide (2 < leAt h 2 1), .errFormat, 2),
    (!kvFmtOk (hdKfmt h) || !kvFmtOk (hdVfmt h), .errFormat, 3), (decide (1 < leAt h 4 1), .errFormat, 4),
    (decide (hdG h < 1) || decide (16 < hdG h), .errFormat, 5),
    (decide (hdHkv h < 1) || decide (128 < hdHkv h), .errFormat, 6), (leAt h 7 1 != 0, .errFormat, 7),
    (decide (hdPages h < 1) || decide (32768 < hdPages h), .errFormat, 8),
    ((h.drop 10).any (· != 0), .errFormat, 10)]

/-- Item 5 of Table 7-8. -/
def rangeCheck (x : JobSt) (h : Bytes) : Option (Status × Nat) :=
  let r := atHkvCount x * hdG h
  let dim := hdDim h
  firstFail [
    (decide (hdHkv h < atHkvFirst x + atHkvCount x), .errFormat, 126),
    (decide (hdPages h < atFirst x + atCount x), .errFormat, 116),
    (decide ((opd x 3).len < 64 + 8 * hdHkv h * hdPages h), .errFormat, 88),
    (decide ((opd x 0).len < r * dim * hdQw h), .errFormat, 40),
    (decide ((opd x 4).len < r * (4 * dim + 64)), .errFormat, 104)]

def att0 (h : Bytes) : AttSt :=
  { hdr := h, head := 0, begun := false, ents := [], q := [], first := [], score := [], rest := [], scores := [], cand := [],
    m := [], l := [], o := [], nan := [], read := 0, skipped := 0, tokens := 0, readAll := 0, skippedAll := 0,
    unsummarised := 0 }

def setAtt (j : Nat) (a : AttSt) (s : State) : State := updJob j (fun x => { x with att := some a }) s

/-- Forget what remote reads of a job have brought. -/
def dropRemote (j : Nat) (s : State) : State := updJob j (fun x => { x with remote := [] }) s

/-! ## Queries (R167) -/

/-- The format that pairs with a key or value format (Table 7-7). -/
def pairFmt (c : Nat) : Nat := if c = 1 ∨ c = 2 then c else if c = 3 ∨ c = 4 then 3 else 8

/-- Blocks of 32 quantised to MXFP8 with E4M3 elements, exactly; at most `n` blocks. -/
def mxExact : Nat → List (BitVec 32) → List FVal
  | 0, _ => []
  | n + 1, xs =>
    let q := mxQuantise 8 (List.replicate 32 .nearest) (xs.take 32)
    q.2.map (fun x => mxVal 8 x q.1) ++ mxExact n (xs.drop 32)

/-- A row narrowed to a pairing's format, exactly. -/
def narrowRow (c : Nat) (xs : List (BitVec 32)) : List FVal :=
  if c = 8 then mxExact (xs.length / 32) xs else xs.map (fun x => elemVal c (narrow c .nearest x))

/-- The narrowed query of query head `g`. -/
def queryRow (h q : Bytes) (g : Nat) : List FVal :=
  let dim := hdDim h
  let w := hdQw h
  narrowRow (pairFmt (hdKfmt h)) ((List.range dim).map (fun d =>
    let b := leAt q ((g * dim + d) * w) w
    if w = 2 then widen 1 b else BitVec.ofNat 32 b))

/-! ## Sorrel (R170-R173) -/

/-- The next BF16 encoding toward +∞, or toward -∞ (R171). -/
def bf16Step (up : Bool) (b : Nat) : Nat :=
  if b % 2 ^ 15 = 0 then (if up then 1 else 0x8001)
  else if up != bitOf b 15 then b + 1 else b - 1

/-- The next FP32 value toward +∞. -/
def f32Up (x : BitVec 32) : BitVec 32 :=
  if x = 0x7F800000#32 then x
  else if x.toNat % 2 ^ 31 = 0 then 1#32
  else if x.getLsbD 31 then x - 1 else x + 1

/-- The exact value under the bound U of R171; a NaN where the spec gives none. -/
def boundSum (q : List FVal) (sum : Bytes) (scale : BitVec 32) : FVal :=
  let n := q.length
  vMul ((List.range n).foldl (fun acc d =>
      let x := q.getD d .nan
      vAdd acc (vMax (vMul x (elemVal 1 (bf16Step true (leAt sum (2 * d) 2))))
        (vMul x (elemVal 1 (bf16Step false (leAt sum (2 * n + 2 * d) 2)))))) (.fin false 0 0))
    (f32Val scale)

/-- U of a page and a query head: a free value of the operands alone where its exact sum is no number (R175; log entry
11). -/
def bound (a : AttSt) (sum : Bytes) (scale : BitVec 32) (g : Nat) : BitVec 32 :=
  match boundSum (queryRow a.hdr a.q g) sum scale with
  | .nan => Config.boundFree a.hdr a.q sum g scale
  | v => f32Up (f32 v)

/-- The bounds of a page for every query head. -/
def bounds (a : AttSt) (sum : Bytes) (scale : BitVec 32) : List (BitVec 32) :=
  (List.range (hdG a.hdr)).map (bound a sum scale)

/-- The entry of page `j` of the head. -/
def pageEntry (x : JobSt) (a : AttSt) (j : Nat) : Nat := a.ents.getD (j - atFirst x) 0
/-- Its index in the table (R164). -/
def entryIndex (x : JobSt) (a : AttSt) (j : Nat) : Nat := (atHkvFirst x + a.head) * hdPages a.hdr + j

/-- What the front end finds of a page of the third group. -/
inductive Eligible where
  | no
  | yes (us : List (BitVec 32))
  | err (st : Status)
  | blocked
deriving DecidableEq, Repr

/-- Is a page eligible for skipping, and its bounds (R170, R171)? -/
def eligible (job : Nat) (x : JobSt) (a : AttSt) (j : Nat) (s : State) : Eligible × State :=
  let e := pageEntry x a j
  let dim := hdDim a.hdr
  let c := hdKfmt a.hdr
  let off := enKslot e * keySlot dim c
  let ps := pieces (opd x 1).exts off (keySlot dim c) 0
  if enCount e ≠ 64 ∨ ps.any (fun p => p.ep != ownEp s) = true then (.no, s)
  else if !(granulesOf (opd x 1) off (keySlot dim c)).all (fun g => smGet 0 g s.dram.summary == 2) then (.no, s)
  else
    match opRead job 0 1 (opd x 1) (off + kvElems dim c + kvScales dim c) (4 * dim) 0 s with
    | (.blocked, s1) => (.blocked, s1)
    | (.err st _, s1) => (.err st, s1)
    | (.ok sum, s1) =>
      if (List.range (2 * dim)).any (fun i => decide (0x7F80 ≤ leAt sum (2 * i) 2 % 2 ^ 15)) then (.no, s1)
      else (.yes (bounds a sum (atScale x)), s1)

/-- Sorrel skips no further page of the head (R175). -/
def noSkip (a : AttSt) : Bool := a.nan.any (fun b => b) || a.m.any f32IsNaN

/-- The test of bound mode (R172). -/
def boundSkips (s : State) (x : JobSt) (a : AttSt) (us : List (BitVec 32)) : Bool :=
  let margin := max (leAt x.desc 124 1) (obj s 0x4610 (x.part + 1))
  !noSkip a && (us.zip a.m).all (fun e => vLe (vAdd (f32Val e.1) (.fin false margin (-3))) (f32Val e.2))

/-- The page score of top-k mode: the largest bound. -/
def pageScore (us : List (BitVec 32)) : BitVec 32 := (us.drop 1).foldl f32Max (us.headD 0)

/-- The pages that top-k leaves out: all but the `k` first by falling score, of equal scores the lower page. -/
def leftOut (k : Nat) (scores : List (Nat × BitVec 32)) : List Nat :=
  (scores.filter (fun e => decide (k ≤ (scores.filter (fun f =>
    decide (f32Key e.2 < f32Key f.2) || (f32Key e.2 == f32Key f.2 && decide (f.1 < e.1)))).length))).map (·.1)

/-! ## The streaming procedure (R174) -/

def f32NegInf : BitVec 32 := 0xFF800000#32
def f32One : BitVec 32 := 0x3F800000#32

/-- One query head's new m, l, o and whether a NaN has entered, from a page's keys and values. -/
def streamHead (x : JobSt) (h : Bytes) (count : Nat) (qn : List FVal) (ks vs : List (List FVal))
    (m l : BitVec 32) (o : List (BitVec 32)) (nan : Bool) : BitVec 32 × BitVec 32 × List (BitVec 32) × Bool :=
  let sc := (List.range 64).map (fun t =>
    if count ≤ t then f32NegInf else f32Mul (dotFrom (fmtIsMx (hdKfmt h)) false 0 (qn.zip (ks.getD t []))) (atScale x))
  let bm := laneReduce f32Max f32NegInf sc
  let mn := f32Max m bm
  let alpha := if !f32IsNaN m && !f32IsNaN mn && f32Key mn == f32Key m then f32One else f32Exp2 (f32Sub m mn)
  let p := sc.map (fun s => if s = f32NegInf then 0 else f32Exp2 (f32Sub s mn))
  let pn := narrowRow (pairFmt (hdVfmt h)) p
  let ps := laneReduce f32Add 0 (pn.map f32)
  let l1 := f32Fma l alpha ps
  let o1 := (List.range (hdDim h)).map (fun d =>
    f32Fma (o.getD d 0) alpha (dotFrom (fmtIsMx (hdVfmt h)) false 0 (pn.zip (vs.map (fun row => row.getD d .nan)))))
  let bad := nan || (sc.take count).any f32IsNaN
  if bad then (f32NaN, f32NaN, o1.map (fun _ => f32NaN), true) else (mn, l1, o1, false)

/-- A page's effect on the head. -/
def streamPage (x : JobSt) (a : AttSt) (count : Nat) (kb vb : Bytes) : AttSt :=
  let dim := hdDim a.hdr
  let row (f : Nat → Nat → FVal) : List (List FVal) := (List.range 64).map (fun t =>
    (List.range dim).map (fun d => if count ≤ t then .fin false 0 0 else f t d))
  let ks := row (keyVal dim (hdKfmt a.hdr) kb)
  let vs := row (valueVal dim (hdVfmt a.hdr) vb)
  let entered := ks.any (fun r => r.contains .nan) || vs.any (fun r => r.contains .nan)
  let r := (List.range (hdG a.hdr)).map (fun g =>
    streamHead x a.hdr count (queryRow a.hdr a.q g) ks vs (a.m.getD g 0) (a.l.getD g 0) (a.o.getD g []) (a.nan.getD g false || entered))
  { a with m := r.map (·.1), l := r.map (·.2.1), o := r.map (·.2.2.1), nan := r.map (·.2.2.2) }

/-- Read a page and take it through the procedure; `uns`: counted as read without a valid summary. -/
def readPage (job : Nat) (x : JobSt) (a : AttSt) (j : Nat) (uns : Bool) (s : State) : Option AttSt × State :=
  let e := pageEntry x a j
  let dim := hdDim a.hdr
  let kc := hdKfmt a.hdr
  let vc := hdVfmt a.hdr
  let fail (st : Status) (s : State) : Option AttSt × State :=
    (none, endJob job st (detail 2 (entryIndex x a j)) a.readAll 0 s)
  match opRead job 0 1 (opd x 1) (enKslot e * keySlot dim kc) (kvElems dim kc + kvScales dim kc) 0 s with
  | (.blocked, s1) => (none, s1)
  | (.err st _, s1) => fail st s1
  | (.ok kb, s1) =>
    match opRead job 0 2 (opd x 2) (enVslot e * valueSlot dim vc) (kvElems dim vc + kvScales dim vc) 0 s1 with
    | (.blocked, s2) => (none, s2)
    | (.err st _, s2) => fail st s2
    | (.ok vb, s2) =>
      let b := streamPage x a (enCount e) kb vb
      (some { b with
          read := a.read + 1, tokens := a.tokens + enCount e, readAll := a.readAll + 1,
          unsummarised := a.unsummarised + b2n uns },
        pbump x.part 0x6610 3 (b2n uns) (pbump x.part 0x6610 1 1 (dropRemote job s2)))

/-- A page is skipped. -/
def skipPage (x : JobSt) (a : AttSt) (s : State) : AttSt × State :=
  ({ a with skipped := a.skipped + 1, skippedAll := a.skippedAll + 1 }, pbump x.part 0x6610 2 1 s)

/-! ## Output (R176, Table 7-9) -/

/-- The output record of one query head. -/
def outRecord (a : AttSt) (g : Nat) : Bytes :=
  let o := a.o.getD g []
  let m := a.m.getD g 0
  let l := a.l.getD g 0
  let nonfinite := !(f32IsFinite m && f32IsFinite l && o.all f32IsFinite)
  (o.map (fun v => leBytes 4 v.toNat)).flatten ++ leBytes 4 m.toNat ++ leBytes 4 l.toNat ++ leBytes 2 a.read ++
    leBytes 2 a.skipped ++ leBytes 4 a.tokens ++ leBytes 1 (2 * b2n nonfinite + b2n (a.read == 0)) ++ zeros 47

/-- The state in which a head begins. -/
def beginHead (x : JobSt) (a : AttSt) (ents : List Nat) (q : Bytes) : AttSt :=
  let g := hdG a.hdr
  let dim := hdDim a.hdr
  let js := (List.range (atCount x)).map (atFirst x + ·)
  let sink := leAt x.desc 122 1
  let wfrom := hdPages a.hdr - leAt x.desc 123 1
  let rest := js.filter (fun j => decide (sink ≤ j) && decide (j < wfrom))
  { a with
    begun := true, ents := ents, q := q
    first := js.filter (fun j => decide (j < sink)) ++ js.filter (fun j => decide (sink ≤ j) && decide (wfrom ≤ j))
    score := if atMode x = 2 then rest else []
    rest := rest, scores := [], cand := []
    m := List.replicate g f32NegInf, l := List.replicate g 0, o := List.replicate g (List.replicate dim 0)
    nan := (List.range g).map (fun i => (queryRow a.hdr q i).contains .nan)
    read := 0, skipped := 0, tokens := 0 }

/-- Item 6 of Table 7-8: the entry index of the first bad entry of the head. -/
def entryCheck (x : JobSt) (a : AttSt) (ents : List Nat) : Option Nat :=
  let nk := (opd x 1).len / keySlot (hdDim a.hdr) (hdKfmt a.hdr)
  let nv := (opd x 2).len / valueSlot (hdDim a.hdr) (hdVfmt a.hdr)
  (ents.findIdx? (fun e => field e 63 55 != 0 || enCount e == 0 || decide (64 < enCount e) || decide (nk ≤ enKslot e) ||
    decide (nv ≤ enVslot e))).map (fun i => (atHkvFirst x + a.head) * hdPages a.hdr + atFirst x + i)

/-! ## The job -/

/-- The header and the checks made at dispatch. -/
def attBegin (job : Nat) (x : JobSt) (s : State) : Bool × State :=
  match attCheck s x with
  | some (st, off) => (false, endJobDetail job st (detail 0 off) s)
  | none =>
    match listRead job 3 0 64 s with
    | (.blocked, s1) => (false, s1)
    | (.err st _, s1) => (false, endJobFree job st 0 s1)
    | (.ok h, s1) =>
      match hdrCheck h with
      | some (st, off) => (false, endJobDetail job st (detail 1 off) s1)
      | none =>
        match rangeCheck x h with
        | some (st, off) => (false, endJobDetail job st (detail 0 off) s1)
        | none => (true, setAtt job (att0 h) s1)

/-- A head's entries and queries. -/
def attHead (job : Nat) (x : JobSt) (a : AttSt) (s : State) : Bool × State :=
  let e0 := (atHkvFirst x + a.head) * hdPages a.hdr + atFirst x
  match listRead job 3 (64 + 8 * e0) (8 * atCount x) s with
  | (.blocked, s1) => (false, s1)
  | (.err st _, s1) => (false, endJobFree job st 0 s1)
  | (.ok eb, s1) =>
    let ents := (List.range (atCount x)).map (fun i => leAt eb (8 * i) 8)
    match entryCheck x a ents with
    | some i => (false, endJobDetail job .errFormat (detail 2 i) s1)
    | none =>
      let n := hdG a.hdr * hdDim a.hdr * hdQw a.hdr
      match opRead job 0 0 (opd x 0) (a.head * n) n 0 s1 with
      | (.blocked, s2) => (false, s2)
      | (.err st _, s2) => (false, endJobFree job st 0 s2)
      | (.ok q, s2) => (true, setAtt job (beginHead x a ents q) (dropRemote job s2))

/-- Score one page of top-k mode (R173). -/
def attScore (job : Nat) (x : JobSt) (a : AttSt) (j : Nat) (rest : List Nat) (s : State) : Bool × State :=
  match eligible job x a j s with
  | (.blocked, s1) => (false, s1)
  | (.err st, s1) => (false, endJob job st (detail 2 (entryIndex x a j)) a.readAll 0 s1)
  | (.no, s1) => (true, setAtt job { a with score := rest } s1)
  | (.yes us, s1) =>
    (true, setAtt job { a with score := rest, cand := a.cand ++ [j], scores := a.scores ++ [(j, pageScore us)] } s1)

/-- One page of the third group, at its turn. -/
def attThird (job : Nat) (x : JobSt) (a : AttSt) (j : Nat) (rest : List Nat) (s : State) : Bool × State :=
  let read (uns : Bool) (s : State) : Bool × State :=
    match readPage job x a j uns s with
    | (some b, s1) => (true, setAtt job { b with rest := rest } s1)
    | (none, s1) => (false, s1)
  let skip (s : State) : Bool × State :=
    let r := skipPage x a s
    (true, setAtt job { r.1 with rest := rest } r.2)
  if atMode x = 0 then read false s
  else if atMode x = 2 then
    if (leftOut (atTopk x) a.scores).contains j && !noSkip a then skip s else read (!a.cand.contains j) s
  else
    match eligible job x a j s with
    | (.blocked, s1) => (false, s1)
    | (.err st, s1) => (false, endJob job st (detail 2 (entryIndex x a j)) a.readAll 0 s1)
    | (.no, s1) => read true s1
    | (.yes us, s1) => if boundSkips s1 x a us then skip s1 else read false s1

/-- The records of a head that is over (R176); what an endpoint answers to them is awaited at the job's end. -/
def attRecords (job : Nat) (x : JobSt) (a : AttSt) (s : State) : Bool × State :=
  let g := hdG a.hdr
  let recs := ((List.range g).map (outRecord a)).flatten
  match opWrite job 1 (opd x 4) (a.head * g * (4 * hdDim a.hdr + 64)) 2 recs 0 s with
  | (.blocked, s1) => (false, s1)
  | (.err st _, s1) => (false, endJobFree job st 0 s1)
  | (.ok _, s1) => (true, setAtt job { a with head := a.head + 1, begun := false } s1)

/-- The end of the job: every record visible. -/
def attEnd (job : Nat) (x : JobSt) (a : AttSt) (s : State) : State :=
  if jobOut x 1 ≠ 0 then s
  else
    match smFind? 1 x.remoteErr with
    | some (st, _) => endJobFree job st 0 s
    | none => endJob job .ok ((a.unsummarised % 2 ^ 30) * 2 ^ 32 + a.skippedAll % 2 ^ 32) a.readAll 0 s

/-- One step of an ATTEND job: whether it goes on, and the state. -/
def attStep (job : Nat) (s : State) : Bool × State :=
  match getJob? s job with
  | none => (false, s)
  | some x =>
    match x.att with
    | none => attBegin job x s
    | some a =>
      if atHkvCount x ≤ a.head then (false, attEnd job x a s)
      else if !a.begun then attHead job x a s
      else
        match a.first, a.score, a.rest with
        | j :: rest, _, _ =>
          match readPage job x a j false s with
          | (some b, s1) => (true, setAtt job { b with first := rest } s1)
          | (none, s1) => (false, s1)
        | [], j :: rest, _ => attScore job x a j rest s
        | [], [], j :: rest => attThird job x a j rest s
        | [], [], [] => attRecords job x a s

/-- Is a job's next step a page, read, skipped or scored? -/
def atPage (s : State) (job : Nat) : Bool :=
  match (getJob? s job).bind (·.att) with
  | some a => a.begun && !(a.first.isEmpty && a.score.isEmpty && a.rest.isEmpty)
  | none => false

/-- Steps until the job ends, has to wait, or comes to a page boundary while it shares its tile (R177). -/
def attLoop (job : Nat) : Nat → State → State
  | 0, s => s
  | n + 1, s =>
    match attStep job s with
    | (true, s1) => if atPage s job && tileShared s1 job then s1 else attLoop job n s1
    | (false, s1) => s1

/-- ATTEND as the command of a mode; a reserved MODE fails the checks under any of them. -/
def attend (mode job : Nat) (s : State) : State :=
  match runningJob? s job 0x10 with
  | none => s
  | some x =>
    if atMode x = mode ∨ atMode x = 3 then attLoop job (atHkvCount x * (2 * atCount x + 3) + 3) s else s

/-- ATTEND in dense mode (R174). -/
def execAttendDense (job : Nat) (s : State) : Out := .next (attend 0 job s)

/-- ATTEND in bound mode (R172). -/
def execAttendBound (job : Nat) (s : State) : Out := .next (attend 1 job s)

/-- ATTEND in top-k mode (R173). -/
def execAttendTopk (job : Nat) (s : State) : Out := .next (attend 2 job s)

end Sys2Proof.Machine
end

