-- ==== Sys2Proof/Machine/Bassoon.lean ====
section
/-!
DEFINITION. COPY, FILL and COMPARE (spec/14 R332, R333, R458): Bassoon works through the bytes in ascending offset.
-/
namespace Sys2Proof.Machine

/-- The bytes Bassoon moves in one step of a job. -/
def bassoonStep : Nat := 256

/-- A body check that has failed: the status and the offset of the field (R332). -/
def bodyFail (j : Nat) (st : Status) (off : Nat) (s : State) : State := endJobDetail j st (detail 0 off) s

/-- The alignment checks of two operands at 32 and 48, or of one (R332). -/
def alignCheck (d : Bytes) : List Nat → Option Nat
  | [] => none
  | o :: os =>
    if leAt d o 6 % 32 ≠ 0 then some o
    else if leAt d (o + 8) 5 % 32 ≠ 0 then some (o + 8)
    else alignCheck d os

/-- The first failing check of a body with a source length that the second operand must have room for. -/
def moveCheck (d : Bytes) (ops : List Nat) : Option (Status × Nat) :=
  match alignCheck d ops with
  | some o => some (.errAlign, o)
  | none =>
    if leAt d 40 5 < 32 then some (.errFormat, 40)
    else if ops.length = 2 ∧ leAt d 56 5 < leAt d 40 5 then some (.errFormat, 56)
    else none

/-- Do two operands share a byte of the pool over the first `n` bytes? -/
def operandsOverlap (a b : Operand) (n : Nat) : Bool :=
  (pieces a.exts 0 n 0).any (fun p => (pieces b.exts 0 n 0).any (fun q =>
    p.ep == q.ep && decide (p.addr < q.addr + q.len) && decide (q.addr < p.addr + p.len)))

/-- The length of the next step: 256 bytes; where source and destination overlap, how much is read before it is written
is not stated (R333), and is a free number of sectors. -/
def copyStep (x : JobSt) (left : Nat) (s : State) : Nat × State :=
  if operandsOverlap (opd x 0) (opd x 1) (opd x 0).len then
    let f := takeFree s
    (32 * (1 + f.1.toNat % (left / 32)), f.2)
  else (min bassoonStep left, s)

/-- Copy on from a stage, counted in sectors, until the end, an error, or bytes that have to wait. -/
def copyFrom (j : Nat) : Nat → State → State
  | 0, s => s
  | n + 1, s =>
    match getJob? s j with
    | none => s
    | some x =>
      let off := 32 * x.stage
      let len := (opd x 0).len
      if len ≤ off then finishJob j 3 (fun s => endJobResult j .ok 0 s) s
      else
        let k := copyStep x (len - off) s
        match opRead j 0 0 (opd x 0) off k.1 off k.2 with
        | (.blocked, s1) => s1
        | (.err st a, s1) => endJobDetail j st (detail 3 a) s1
        | (.ok d, s1) =>
          match opWrite j 0 (opd x 1) off 2 d off s1 with
          | (.blocked, s2) => s2
          | (.err st a, s2) => endJobDetail j st (detail 3 a) s2
          | (.ok _, s2) => copyFrom j n (setStage j (x.stage + k.1 / 32) s2)

/-- COPY (R332). -/
def execCopy (job : Nat) (s : State) : Out :=
  .next (match runningJob? s job 0x01 with
    | none => s
    | some x =>
      match moveCheck x.desc [32, 48] with
      | some (st, o) => bodyFail job st o s
      | none => copyFrom job ((opd x 0).len / 32 + 1) s)

/-- Bytes `off` to `off + n` of the pattern repeated. -/
def patternBytes (d : Bytes) (off n : Nat) : Bytes := (List.range n).map (fun i => d.getD (48 + (off + i) % 8) 0)

/-- The local blocks that extents cover in full (R100, R332). -/
def coveredBlocks (own : Nat) (exts : List Ext) : List Nat :=
  let mine := exts.filter (fun e => e.ep == own)
  ((mine.map (fun e => (List.range (e.len / 2 ^ 28 + 2)).map (e.addr / 2 ^ 28 + ·))).flatten.eraseDups).filter (fun b =>
    (List.range 4096).all (fun i => mine.any (fun e =>
      decide (e.addr ≤ b * 2 ^ 28 + i * 65536) && decide (b * 2 ^ 28 + i * 65536 + 65536 ≤ e.addr + e.len))))

/-- Set INIT of blocks. -/
def markInit (bs : List Nat) (s : State) : State :=
  { s with dram := { s.dram with init := bs.foldl (fun v b => v ||| (1#3584 <<< b)) s.dram.init } }

/-- Fill on from a stage. -/
def fillFrom (j : Nat) : Nat → State → State
  | 0, s => s
  | n + 1, s =>
    match getJob? s j with
    | none => s
    | some x =>
      let off := 32 * x.stage
      let len := (opd x 0).len
      if len ≤ off then
        finishJob j 3 (fun s => endJobResult j .ok 0 (markInit (coveredBlocks (ownEp s) (opd x 0).exts) s)) s
      else
        let k := min bassoonStep (len - off)
        match opWrite j 0 (opd x 0) off 2 (patternBytes x.desc off k) off s with
        | (.blocked, s1) => s1
        | (.err st a, s1) => endJobDetail j st (detail 3 a) s1
        | (.ok _, s1) => fillFrom j n (setStage j (x.stage + k / 32) s1)

/-- FILL (R332). -/
def execFill (job : Nat) (s : State) : Out :=
  .next (match runningJob? s job 0x02 with
    | none => s
    | some x =>
      match moveCheck x.desc [32] with
      | some (st, o) => bodyFail job st o s
      | none => fillFrom job ((opd x 0).len / 32 + 1) s)

/-- The first place where two byte strings of one length differ. -/
def firstDiff : Nat → Bytes → Bytes → Option Nat
  | i, a :: as, b :: bs => if a = b then firstDiff (i + 1) as bs else some i
  | _, _, _ => none

/-- Compare on from a stage. -/
def compareFrom (j : Nat) : Nat → State → State
  | 0, s => s
  | n + 1, s =>
    match getJob? s j with
    | none => s
    | some x =>
      let off := 32 * x.stage
      let len := (opd x 0).len
      if len ≤ off then endJob j .ok (2 ^ 64 - 1) 0 0 s
      else
        let k := min bassoonStep (len - off)
        match opRead j 0 0 (opd x 0) off k off s with
        | (.blocked, s1) => s1
        | (.err st a, s1) => endJobDetail j st (detail 3 a) s1
        | (.ok a, s1) =>
          match opRead j 0 1 (opd x 1) off k off s1 with
          | (.blocked, s2) => s2
          | (.err st e, s2) => endJobDetail j st (detail 3 e) s2
          | (.ok b, s2) =>
            match firstDiff off a b with
            | some i => endJob j .ok i 1 0 s2
            | none => compareFrom j n (setStage j (x.stage + k / 32) s2)

/-- COMPARE (R332). -/
def execCompare (job : Nat) (s : State) : Out :=
  .next (match runningJob? s job 0x03 with
    | none => s
    | some x =>
      match moveCheck x.desc [32, 48] with
      | some (st, o) => bodyFail job st o s
      | none => compareFrom job ((opd x 0).len / 32 + 1) s)

end Sys2Proof.Machine
end

