-- ==== Sys2Proof/Machine/MemChan.lean ====
section
/-!
DEFINITION. Commands of the DRAM channels (spec/04): drift, refresh, acceptance of a request, scrub, checker, INIT bits, row
repair, stack evacuation.
-/
namespace Sys2Proof.Machine

/-! ## Drift and refresh (R88-R92) -/

/-- At most one step in either direction (R88). -/
def oneStep (d : Int) : Int := max (-1) (min 1 d)

/-- DQS_DRIFT_ADJUST (R88): the steps that the channel's oscillator reading asks for, per byte lane. -/
def execDqsDriftAdjust (chan : Nat) (rd0 wr0 rd1 wr1 : Int) (s : State) : Out :=
  let move (d : DqsSt) : DqsSt :=
    { rd0 := d.rd0 + oneStep rd0, wr0 := d.wr0 + oneStep wr0, rd1 := d.rd1 + oneStep rd1, wr1 := d.wr1 + oneStep wr1 }
  .next { s with dram := { s.dram with dqs := smUpd dqs0 chan move s.dram.dqs } }

def getRefresh (s : State) (set : Nat) : RefreshSt := smGet refresh0 set s.dram.refresh
def updRefresh (set : Nat) (f : RefreshSt → RefreshSt) (s : State) : State :=
  { s with dram := { s.dram with refresh := smUpd refresh0 set f s.dram.refresh } }

/-- The number of refreshes a set may owe (R90). -/
def owedLimit (s : State) (set : Nat) (doubled : Bool) : Nat :=
  let l := obj s 0x4310 (set + 1)
  if doubled then min l 4 else l

/-- REFRESH_DUE (R89-R91); `doubled`: a die of the set reports the doubled refresh rate. -/
def execRefreshDue (set : Nat) (doubled : Bool) (s : State) : Out :=
  let s0 := updRefresh set (fun r => { r with doubled := doubled }) s
  let r := getRefresh s0 set
  let issue (s : State) : State := updRefresh set (fun r => { r with issued := r.issued + 1 }) s
  .next (if obj s 0x2310 (set + 1) = 1 ∧ r.panic = true then
      (if r.owed < owedLimit s set doubled then
        bump 0x3330 (set + 1) (updRefresh set (fun r => { r with owed := r.owed + 1 }) s0)
      else bump 0x3331 (set + 1) (issue s0))
    else issue s0)

/-- OWED_REFRESH_ISSUE (R92). DESIGN CHOICE: refreshes that a set still owes when it is made Steady while its panic is high
stay owed until panic falls, as in an Elastic set (log entry 94). -/
def execOwedRefreshIssue (set : Nat) (s : State) : Out :=
  let r := getRefresh s set
  .next (if r.panic = false ∧ 0 < r.owed then
      updRefresh set (fun r => { r with owed := r.owed - 1, issued := r.issued + 1 }) s
    else s)

/-! ## Accepted requests, scrub (R94-R105) -/

/-- The bytes with a pattern of errors over them. -/
def flipBytes : List Byte → Bytes → List Byte
  | b :: bs, e :: es => (b ^^^ e) :: flipBytes bs es
  | bs, _ => bs

/-- Errors that have come over a line's stored bytes, CHECK and TAG last. -/
def disturb (line : Nat) (flip : Bytes) (s : State) : State :=
  if flip.isEmpty then s
  else
    let ps := physStack s (lstackOf (line * 64))
    storeOn ps line (flipBytes (storedLine s ps line) flip) s

/-- MEMORY_CHANNEL_ACCEPT (R94, R96, R98): a request of a requester reaches the group of its line; `flip` is the pattern
of errors that has come over the first line's stored bytes since it was last written. -/
def execMemoryChannelAccept (tag : Nat) (src : Source) (op : MemOp) (flip : Bytes) (s : State) : Out :=
  .next (wake (submit src op (.mem tag) (disturb ((opLines op).headD 0) flip s)))

/-- PATROL_SCRUB_READ (R105); a read of a row whose copy runs is held (R109): it is made when it comes again. -/
def execPatrolScrubRead (line : Nat) (flip : Bytes) (s : State) : Out :=
  .next (if obj s 0x2311 0 = 1 ∧ blockInit s (line * 64) = true ∧ s.dram.heldRows.contains (rowKeyOf s (line * 64)) = false then
      (readLineAs 0x04 0x05 .scrub line (disturb line flip s)).1
    else s)

/-! ## Checker test mode (R106, R107), INIT bits (R100, R101) -/

/-- May the checker touch a block (R106)? -/
def checkerOk (s : State) (b : Nat) : Bool :=
  match regionOfBlock? s b with
  | none => blockFree s b
  | some (_, r) => decide (b < geomBlocks s) && r.state == .ready && !blockGranted s b

/-- CHK_RESULT (R106). -/
def chkResult (st res k : Nat) (data : Bytes) (word : Nat) : Nat :=
  ofLe (leBytes 1 st ++ leBytes 1 res ++ leBytes 1 k ++ zeros 5 ++ slice data 0 64 ++ leBytes 4 word ++ zeros 4)

/-- The INIT bit of a block, set or cleared. -/
def setInit (b : Nat) (v : Bool) (s : State) : State :=
  { s with dram := { s.dram with
    init := if v then s.dram.init ||| (1#3584 <<< b) else s.dram.init &&& ~~~(1#3584 <<< b) } }

/-- A write of CHK_CMD: the status it is answered with (R106, R107). DESIGN CHOICE (log entry 95): of several faults the format
is answered before the alignment and the alignment before the target; CHK_RESULT of WRITE_RAW holds the bytes and the word
just written, byte 2 is 0 for WRITE_RAW and READ_RAW, and READ_DECODE of an uncorrectable line shows the bytes received. -/
def chkCmd (b : Bytes) (s : State) : Status × State :=
  let op := leAt b 0 1
  let pa := leAt b 8 5
  let line := pa / 64
  let refuse (st : Status) : Status × State := (st, setObj 0x4331 0 (chkResult (statusCode st) 0 0 [] 0) s)
  if op = 0 ∨ 3 < op ∨ (slice b 1 7).any (· != 0) ∨ (slice b 13 3).any (· != 0) then refuse .errFormat
  else if pa % 64 ≠ 0 then refuse .errAlign
  else if metaBase ≤ pa ∨ checkerOk s (pa / 2 ^ 28) = false then refuse .errPermission
  else
    let st := storedLine s (physStack s (lstackOf pa)) line
    if op = 1 then
      let data := slice b 16 64
      let word := obj s 0x4332 0
      let s1 := invalidateGranule line (setInit (pa / 2 ^ 28) false (dropVector line (storeLine line (data ++ leBytes 4 word) s)))
      (.ok, setObj 0x4331 0 (chkResult 0 0 0 data word) s1)
    else if op = 2 then (.ok, setObj 0x4331 0 (chkResult 0 0 0 (st.take 64) (leAt st 64 4)) s)
    else
      let w := receivedLine s line
      let r : Nat × Nat × Bytes := match rsDecode w with
        | .clean => (0, 0xFF, w.take 64)
        | .corrected k v => (1, k, v.take 64)
        | .uncorrectable => (2, 0xFF, w.take 64)
      (.ok, setObj 0x4331 0 (chkResult 0 r.1 r.2.1 r.2.2 (leAt st 64 4)) s)

/-- WRITE_RAW (R106, R107). -/
def execWriteRaw (cmd : Bytes) (s : State) : Out := .next (answerExpert 0x4330 (chkCmd (splice (slice cmd 0 80) 0 [1])) s)
/-- READ_RAW (R106). -/
def execReadRaw (cmd : Bytes) (s : State) : Out := .next (answerExpert 0x4330 (chkCmd (splice (slice cmd 0 80) 0 [2])) s)
/-- READ_DECODE (R106). -/
def execReadDecode (cmd : Bytes) (s : State) : Out := .next (answerExpert 0x4330 (chkCmd (splice (slice cmd 0 80) 0 [3])) s)

/-- A write of BLOCK_MARK_INIT (R101). -/
def blockMarkInit (b : Nat) (s : State) : Status × State :=
  if geomBlocks s ≤ b then (.errPermission, s) else (.ok, setInit b true s)

/-- A write of BLOCK_INIT_QUERY (R101); it then reads back the block's INIT bit as it stands at the read (DESIGN CHOICE, log
entry 96). -/
def blockInitQuery (b : Nat) (s : State) : Status × State :=
  if geomBlocks s ≤ b then (.errPermission, s) else (.ok, setObj 0x2321 0 b s)

/-- BLOCK_MARK_INIT (R101). -/
def execBlockMarkInit (block : Nat) (s : State) : Out := .next (answerFm 0x2320 0 (blockMarkInit block s))
/-- BLOCK_INIT_QUERY (R101). -/
def execBlockInitQuery (block : Nat) (s : State) : Out := .next (answerFm 0x2321 0 (blockInitQuery block s))

/-! ## Row repair (R109) -/

/-- The logical stack a physical stack serves, if any. -/
def lstackAt? (s : State) (ps : Nat) : Option Nat := (List.range 32).find? (fun l => physStack s l == ps)

/-- A row of a channel enters its remap table, and its requests are released; the entry that fills the table raises the
channel-degraded event (R109, R110). -/
def enterRemap (pchan bank row : Nat) (s : State) : State :=
  let k := (pchan * 16 + bank) * 2 ^ 18 + row
  let s1 := setRemaps pchan (remapRows s pchan ++ [bank * 2 ^ 18 + row])
    { s with dram := { s.dram with heldRows := s.dram.heldRows.filter (· != k), rowCe := smErase k s.dram.rowCe } }
  let s2 := match lstackAt? s1 (pchan / 4) with
    | some l => bump 0x3340 (l + 1) s1
    | none => s1
  if (remapRows s1 pchan).length = 64 then raiseEvent 0x0020 (leBytes 1 pchan) s2 else s2

/-- ROW_REMAP_COMPLETE (R109): the lines of the row are read through the decoder, as Bassoon's reads are logged and counted
(R102, R103; log entry 97), and poisoned where they cannot be decoded; the remap is entered, and the held requests go on. -/
def execRowRemapComplete (pchan bank row : Nat) (s : State) : Out :=
  let k := (pchan * 16 + bank) * 2 ^ 18 + row
  .next (if s.dram.heldRows.contains k then
      wake (enterRemap pchan bank row
        ((storedLines s (fun l => rowKeyOf s (l * 64) == k)).foldl (fun s l => (readLine .bassoon l s).1) s))
    else s)

/-! ## Stack replacement (R111-R113) -/

/-- The logical stack moves to the spare; the replaced stack leaves service with what was held or counted of its rows, and
the first waiting replacement that finds a spare starts (R111, R112). -/
def moveStack (l sp : Nat) (s : State) : State :=
  let old := physStack s l
  let st := obj s 0x3300 0
  let s1 := setObj 0x3300 0 (if sp = 28 then putField st 7 0 l else putField st 15 8 l) s
  let own (k : Nat) : Bool := k / 2 ^ 24 == old
  evacFirst s1.dram.evacWait { s1 with
    mram := { s1.mram with deadStacks := s1.mram.deadStacks.filter (· != old) ++ [old] }
    dram := { s1.dram with
      stackMap := smPut l sp s1.dram.stackMap, evac := none
      heldRows := s1.dram.heldRows.filter (fun k => !own k), refusedRows := s1.dram.refusedRows.filter (fun k => !own k)
      cells := s1.dram.cells.filter (fun c => c.1 / 2 ^ 48 != old) } }

/-- Copy one line of the failing stack into the spare, through the decoder (R112): a correction is written back and counted
(R102); what cannot be decoded is written with POISON and logged with class 0x07. -/
def evacLine (sp line : Nat) (s : State) : State :=
  let s1 := correctLine .bassoon line s
  match rsDecode (receivedLine s1 line) with
  | .uncorrectable =>
    logUncorrectable 0x07 (line * 64) .bassoon (bump 0x3221 0
      (storeOn sp line (encodeLine ((receivedLine s1 line).take 64) 0xFF) (dropVector line s1)))
  | _ => storeOn sp line (storedLine s1 (physStack s1 (lstackOf (line * 64))) line) s1

/-- Copy the lines of the running evacuation up to a set-relative offset, which on one stack rises with the address; writes
below it go to both stacks from then on (R112). -/
def evacTo (ptr : Nat) (s : State) : State :=
  match s.dram.evac with
  | none => s
  | some e =>
    let due (l : Nat) : Bool := lstackOf (l * 64) == e.lstack && decide (e.ptr ≤ setOffset (l * 64)) && decide (setOffset (l * 64) < ptr)
    let s1 := (storedLines s due).foldl (fun s l => evacLine e.spare l s) s
    { s1 with dram := { s1.dram with evac := some { e with ptr := max e.ptr (min ptr setTop) } } }

/-- Ten nanoseconds of an evacuation: MEM_EVAC_RATE_GBPS bytes of the stack in each, four times as much of the set (R112). -/
def evacTick (s : State) : State :=
  match s.dram.evac with
  | some e => if s.dram.selfRefresh then s else evacTo (e.ptr + 40 * obj s 0x4340 0) s
  | none => s

/-- STACK_EVACUATION_COMPLETE (R112): what the copy had not yet reached is copied, and the logical stack moves. -/
def execStackEvacuationComplete (s : State) : Out :=
  .next (match s.dram.evac with
    | none => s
    | some e => moveStack e.lstack e.spare (evacTo setTop s))

/-- The blocks that have lines on a logical stack: its set's assignable blocks, and those of the metadata area. -/
def stackBlocks (l : Nat) : List Nat :=
  (List.range 3584).filter (fun b => b % 8 == l / 4) ++ (List.range 512).map (3584 + ·)

/-- How many lines a logical stack has from a set-relative offset on: 16 in each whole 4 KiB (R82, R83), and those of the
4 KiB that the offset cuts. -/
def linesFrom (l ptr : Nat) : Nat :=
  let up := (ptr + 4095) / 4096 * 4096
  let cut := (List.range ((up - ptr + 63) / 64)).filter (fun i => field (chOfOffset (up - 64 * (i + 1))) 3 2 == l % 4)
  (setTop - up) / 4096 * 16 + cut.length

/-- STACK_STOPS_ANSWERING (R113): the copy had reached at least the set-relative offset `ptr`; from there on every line of
the spare, its metadata share included, is written with zero data and POISON, and the move is completed. -/
def execStackStopsAnswering (ptr : Nat) (s : State) : Out :=
  .next (match s.dram.evac with
    | none => s
    | some e =>
      let p := max e.ptr ptr
      let s1 := evacTo p s
      let m := (stackBlocks e.lstack).foldl (fun m b => smPut (e.lstack * 4096 + b) (min p (smGet p (e.lstack * 4096 + b) m)) m) s1.dram.lost
      let gone (c : Host.Cell) : Bool :=
        let pa := (c.1 % 2 ^ 48) / 128 * 64
        lstackOf pa == e.lstack && decide (p ≤ setOffset pa)
      moveStack e.lstack e.spare <| pbump 0 0x3221 0 (linesFrom e.lstack p)
        { s1 with dram := { s1.dram with lost := m, cells := s1.dram.cells.filter (fun c => !gone c) } })

/-- A write of SPARE_STACK_CMD (R111). -/
def spareStackCmd (l : Nat) (s : State) : Status × State :=
  if geomStacks s ≤ l then (.errPermission, s) else (.ok, evacStart l s)

/-- SPARE_STACK_CMD (R111). -/
def execSpareStackCmd (stack : Nat) (s : State) : Out := .next (answerFm 0x2330 0 (spareStackCmd stack s))

end Sys2Proof.Machine
end

