-- ==== Sys2Proof/Machine/Mirror.lean ====
section
/-!
DEFINITION. The mirror link as the holder uses it (spec/18 R394-R398): metadata records, the commit cycle,
resynchronisation, the loss and the return of the mirror port.
-/
namespace Sys2Proof.Machine

/-- A metadata record as META cells carry it: EPOCH, CRC-32, length, contents (R395; log entry 24). -/
def recImage (r : MetaRec) : Bytes :=
  let b := leBytes 8 r.epoch ++ leBytes 2 r.data.length ++ r.data
  leBytes 4 (crc32 b) ++ b

/-- A record from its image: none when its CRC-32 fails (R397). -/
def recOfImage (b : Bytes) : Option MetaRec :=
  let n := leAt b 12 2
  let body := slice (b.drop 4) 0 (10 + n)
  if leAt b 0 4 = crc32 body then some { epoch := leAt b 4 8, data := slice b 14 n } else none

/-- The META bodies of a record: RECORD, OFFSET, 18 bytes each (Table 18-3). -/
def metaBodies (num : Nat) (r : MetaRec) : List Bytes :=
  let img := recImage r
  (List.range ((img.length + 17) / 18)).map (fun i => leBytes 2 num ++ leBytes 2 (18 * i) ++ slice img (18 * i) 18)

/-- The COMMIT body of a cycle: CYCLE, LEASE_EPOCH, CRC-32 of the cycle's META data (Table 18-3). -/
def commitBody (cycle epoch : Nat) (metas : List Bytes) : Bytes :=
  leBytes 8 cycle ++ leBytes 4 epoch ++ leBytes 4 (crc32 ((metas.map (·.drop 4)).flatten))

/-- Send records and the COMMIT of their cycle (R395). -/
def sendCycle (epoch : Nat) (recs : SMap MetaRec) (s : State) : State :=
  let metas := (recs.map (fun e => metaBodies e.1 e.2)).flatten
  let cycle := (s.buddy.mirror.cycle + 1) % 2 ^ 48
  let s1 := metas.foldl (fun s b => mirrorPush 4 b s) s
  let s2 := mirrorPush 5 (commitBody cycle epoch metas) s1
  { s2 with buddy := { s2.buddy with changed := [], mirror := { s2.buddy.mirror with cycle := cycle } } }

/-- Every duplex line of the own role that does not read as clean zeros. -/
def duplexLines (s : State) : List Nat := keptLines s ((List.range 3584).filter (fun b => lineDuplex s (b * 2 ^ 22)))

/-- Steps 1 and 2 of R398 for the own role: the whole metadata, then every duplex line; `resync` stands while the copy
runs. -/
def startResync (s : State) : State :=
  let s1 := sendCycle s.buddy.own.epoch s.buddy.ownRecs s
  let s2 := (duplexLines s1).foldl (fun s l =>
    let r := (readLine .bassoon l s).1
    match peekLine r l with
    | some (d, t) => mirrorLine 7 l t d r
    | none => r) s1
  { s2 with buddy := { s2.buddy with mirror := { s2.buddy.mirror with resync := some 0 } } }

/-- Steps 1 and 2 of R398 for the buddy's role, held by this module: its records and its copy go home. -/
def startHomecoming (s : State) : State :=
  let s1 := sendCycle s.buddy.other.epoch s.buddy.otherRecs s
  let s2 := s1.buddy.mirror.copy.foldl (fun s e => mirrorLine 7 e.1 e.2.1 e.2.2 s) s1
  { s2 with buddy := { s2.buddy with mirror := { s2.buddy.mirror with resync := some 0 } } }

/-- Send every cell held for replay once more, with the present MACK (R394, R297). -/
def mirrorReplay (s : State) : State :=
  s.buddy.mirror.replay.foldl (fun s e =>
    sendMirror (mirrorCellBytes (leAt e.2 0 1) e.1 s.buddy.mirror.mack (e.2.drop 1)) s) s

/-- The mirror port is lost: duplex writes wait (R395). -/
def mirrorDown (s : State) : State :=
  { s with buddy := { s.buddy with
    mirror := { s.buddy.mirror with up := false, peerHold := false, asm := none }
    own := { s.buddy.own with peerSynced := false }
    other := { s.buddy.other with peerSynced := false } } }

/-- The mirror port is UP: what was not acknowledged goes again; a holder whose role is not SIMPLEX starts the
resynchronisation of its standby, and a standby that was synced is synchronising (R395, R398). -/
def mirrorUp (s : State) : State :=
  let s1 := { s with buddy := { s.buddy with
    mirror := { s.buddy.mirror with up := true }
    other := if s.buddy.other.code = 2 then { s.buddy.other with code := 3 } else s.buddy.other } }
  let s2 := mirrorPump (mirrorReplay s1)
  if s2.buddy.own.code = 1 ∧ s2.buddy.mirror.simplex = false then startResync s2 else s2

end Sys2Proof.Machine
end

