-- ==== Sys2Proof/Machine/Reroute.lean ====
section
/-!
DEFINITION. What the router does with a unit that it cannot simply send on (spec/13 R302-R304; spec/14 R323-R326,
R460): fenced and unroutable units, proxy answers, the units of a port whose link goes down.
-/
namespace Sys2Proof.Machine

/-- A proxy answer to a transit request (R460): of the router's own TC1 stream, with the request's TAG, GV and GEN,
PROXY and ORIG_DST. -/
def proxyAnswer (p : Packet) (opc : Nat) (st : Status) (s : State) : State :=
  let hdr := mkHdr opc 1 false (pkSrc p) (ownEp s) (pkTag p) (statusCode st + pkDst p * 2 ^ 8 + 2 ^ 16) 0
    (if opc = 0x20 then pkSpan p else 0) (if pkGv p then some (pkGen p) else none)
  originate (outUnit (.pkt (mkPkt hdr (if opc = 0x22 then [zeros 32] else []))) 64 3 none) s

/-- The opcode of the answer to a request: its data response or COMP (Table 14-1). -/
def answerOpc (opc : Nat) : Nat := if opc = 0x01 ∨ opc = 0x02 then 0x20 else if opc = 0x06 then 0x22 else 0x21

/-- A control packet of the module's own in TC1, with bits 127-64 as given. -/
def controlPacket (opc dst top : Nat) (s : State) : State :=
  originate (outUnit (.pkt (mkPkt (mkHdr opc 1 false dst (ownEp s) 0 0 0 0 none + (top % 2 ^ 64) * 2 ^ 64) [])) 64 3 none) s

/-- MC_ACK or MC_SKIP (Table 14-3): BASE, a MAP whose bit i covers BASE + i, ENDPOINT. -/
def mcReport (opc dst base map ep : Nat) (s : State) : State :=
  controlPacket opc dst (base % 65536 + (map % 2 ^ 32) * 2 ^ 16 + (ep % 256) * 2 ^ 48) s

/-- MC_SKIP of one packet for each of some members (R325). -/
def mcSkipFor (p : Packet) (eps : List Nat) (s : State) : State :=
  eps.foldl (fun s e => mcReport 0x12 (pkSrc p) (pkPsn p) 1 e s) s

/-- Is a unit the module's own? -/
def isOwn (s : State) (u : NlUnit) : Bool := unitSrc u == ownEp s

/-- A unicast unit for a fenced endpoint: dropped and counted; the request of the module's own ends FENCED, and another
source's request is answered by proxy (R325). -/
def dropFenced (o : Outgoing) (s : State) : State :=
  let s1 := bump 0x3440 6 s
  if isOwn s o.unit then failUnit o.unit .fenced s1
  else
    match o.unit with
    | .pkt p => if opcIsRequest (pkOpc p) then proxyAnswer p (answerOpc (pkOpc p)) .fenced s1 else s1
    | .cell _ => s1

/-- An unroutable unicast unit, counted in NL_UNROUTABLE of a port: the request of the module's own ends ERR_LINK,
another source's request is answered COMP by proxy, anything else is dropped (R326). -/
def dropUnroutable (port : Nat) (o : Outgoing) (s : State) : State :=
  let s1 := bump 0x3437 (port + 1) s
  if isOwn s o.unit then failUnit o.unit .errLink s1
  else
    match o.unit with
    | .pkt p => if opcIsRequest (pkOpc p) then proxyAnswer p 0x21 .errLink s1 else s1
    | .cell _ => s1

/-- Send on a unicast unit that has its number: fenced, unroutable (counted at `port`), to a port, or waiting for a
usable one (R314, R315, R325, R326). -/
def forwardUnit (port : Nat) (o : Outgoing) (s : State) : State :=
  let d := unitDst o.unit
  if routeFenced (routeOf s d) then dropFenced o s
  else
    match choosePort s d (unitTc o.unit) (unitEsc o.unit) true with
    | .go q => toPort q o s
    | .unroutable => dropUnroutable port o s
    | .wait => { s with fabric := { s.fabric with waiting := s.fabric.waiting ++ [o] } }

/-- Split a multicast copy again over the ports its members now lie behind (R323, R325, R326): members that are fenced
or that no port reaches go into SKIPPED, those that no port reaches with ERR_LINK; a copy of another source sends
MC_SKIP for them. -/
def forwardCopy (port : Nat) (o : Outgoing) (p : Packet) (mask win : Nat) (s : State) : State :=
  let members := (mcMembers mask win).filter (fun e => !isLocal s e)
  let fenced := members.filter (fun e => routeFenced (routeOf s e))
  let live := members.filter (fun e => !routeFenced (routeOf s e))
  let lost := live.filter (fun e => (mcPort s e).isNone)
  let reach := live.filter (fun e => (mcPort s e).isSome)
  let s1 := pbump 0 0x3437 (port + 1) lost.length (pbump 0 0x3440 6 fenced.length s)
  let s2 :=
    if isOwn s o.unit then
      mcRemove (pkTc p) (pkPsn p) (fenced ++ lost) true
        (match o.job with | some j => if lost.isEmpty then s1 else mcNote j [] lost 0 none s1 | none => s1)
    else mcSkipFor p (fenced ++ lost) s1
  if reach.isEmpty then s2 else mcSend o win reach s2

/-- Send on a unit that has its number. -/
def forward (port : Nat) (o : Outgoing) (s : State) : State :=
  match o.unit with
  | .pkt p => match p.ext with
    | some (mask, win) => forwardCopy port o p mask win s
    | none => forwardUnit port o s
  | .cell _ => forwardUnit port o s

/-- Units in transit that wait for a usable port: those whose endpoint is fenced by now are dropped, those that have no
port left are unroutable (R325, R326). -/
def sweepWaiting (s : State) : State :=
  let fenced (o : Outgoing) : Bool := o.transit && routeFenced (routeOf s (unitDst o.unit))
  let gone (o : Outgoing) : Bool :=
    o.transit && (choosePort s (unitDst o.unit) (unitTc o.unit) (unitEsc o.unit) true == .unroutable)
  let hit := s.fabric.waiting.filter (fun o => fenced o || gone o)
  hit.foldl (fun s o => if fenced o then dropFenced o s else dropUnroutable o.inPort o s)
    { s with fabric := { s.fabric with waiting := s.fabric.waiting.filter (fun o => !(fenced o || gone o)) } }

/-- Ports, routes or the throttle have changed: what waits is tried again. -/
def retryWaiting (s : State) : State := pumpWaiting (sweepWaiting s)

/-- The units of a port in the order it would have sent them: those with bytes in a flit not acknowledged, the one
being framed, the egress queues class by class, the leaves (R303). -/
def portUnits (s : State) (port : Nat) : List Outgoing :=
  let l := getLink s port
  let queued := (l.replay.map (·.units)).flatten ++ (match l.txUnit with | some o => [o] | none => [])
  let leaves := ((getSched s port).subs.map (fun b => (b.2.svcs.map (fun v => v.2.leaf)).flatten)).flatten
  dedupe queued ++ ((List.range 4).map (fun tc => smGet [] (port * 4 + tc) s.fabric.egress)).flatten ++
  leaves.filterMap (fun i => match i with | .nl o => some o | _ => none)
where
  /-- A packet spread over several flits is one packet. -/
  dedupe : List Outgoing → List Outgoing
    | a :: b :: r => if a == b then dedupe (b :: r) else a :: dedupe (b :: r)
    | l => l

/-- Take everything that waits at a port away from it. -/
def emptyPort (port : Nat) (s : State) : State :=
  let s1 := { s with fabric := { s.fabric with
    egress := s.fabric.egress.filter (fun e => e.1 / 4 != port)
    throttled := s.fabric.throttled.filter (fun k => k / 4 != port) } }
  updSched port (fun p => { p with subs := p.subs.map (fun b => (b.1, { b.2 with
    svcs := b.2.svcs.map (fun v => (v.1, { v.2 with leaf := v.2.leaf.filter (fun i =>
      match i with | .nl _ => false | _ => true) })) })) }) s1

/-- The link goes down (R302, R303): replay, credits and sequence state are discarded, the cause is kept, counted and
reported, and the port's packets are rerouted in their order. -/
def linkStop (port cause : Nat) (s : State) : State :=
  if (getLink s port).state = 0 then s
  else
    let units := portUnits s port
    let s1 := updLink port (fun _ => { link0 with cause := cause, rerouted := true }) (emptyPort port s)
    let s2 := raiseEvent 0x0030 (leBytes 1 port ++ leBytes 1 cause) (bump 0x3434 (port + 1) s1)
    retryWaiting (units.foldl (fun s o => forward port { o with transit := true, inPort := port } s) s2)

end Sys2Proof.Machine
end

