-- ==== Sys2Proof/Machine/LaneOps.lean ====
section
/-!
DEFINITION. The lanes of a port (spec/12): the state a bring-up starts from and ends in, leaving ACTIVE, spare-lane
substitution, training blocks sent.
-/
namespace Sys2Proof.Machine

/-- NL_PORT_STATUS (Table 12-7). -/
def portStatus (l : LaneSt) : Nat :=
  l.state % 16 + (l.cfg.rate % 8) * 2 ^ 4 + b2n l.cfg.txPrecode * 2 ^ 8 + b2n l.cfg.rxPrecode * 2 ^ 9 +
  (l.cfg.rxSpare.getD 15 % 16) * 2 ^ 12 + (l.faulty % 512) * 2 ^ 16 + (l.cause % 128) * 2 ^ 25

/-- The lane-degraded event (R271, R277): the port, the lane or 0xFF. -/
def laneDegraded (port lane : Nat) (s : State) : State := raiseEvent 0x0031 (leBytes 1 port ++ leBytes 1 lane) s

/-! ## Eye scan results (R280) -/

/-- Write NL_EYE_RESULT (Table 12-7). -/
def eyeResult (status rate : Nat) (edges bitmap : Bytes) (s : State) : State :=
  setObj 0x4401 0 (leAt (leBytes 8 s.ptime ++ leBytes 1 status ++ leBytes 1 rate ++ slice edges 0 4 ++ zeros 2 ++
    slice bitmap 0 504) 0 520) s

/-- A commanded scan of a lane of a port ends ABORTED when a test holds of it. -/
def eyeAbort (hit : EyeCmd → Bool) (s : State) : State :=
  match s.eyeCmd with
  | some e => if hit e then eyeResult 0x03 (getLane s e.port).cfg.rate [] [] { s with eyeCmd := none } else s
  | none => s

/-! ## Leaving and entering (R269, R272, R302) -/

/-- KIND of the module's ports (Table 12-4). -/
def ownKind (port : Nat) : Nat := if port = 14 then 2 else if port < 12 then 0 else 1

/-- The KIND a port takes from its peer (R273). -/
def peerKindOf (port : Nat) : Nat := if port = 14 then 2 else if port < 12 then 3 else 1

/-- The target rate of a bring-up (R270), the rate a far-end loopback names, or the one its requester does (R281, R282). -/
def targetRate (s : State) (port : Nat) : Nat :=
  let l := getLane s port
  let top := if port = 14 then 3 else 4
  match l.loop with
  | some lp => lp.rate
  | none => if l.farPeer then min l.train.peerTarget top else min (min (obj s 0x2401 (port + 1)) l.maxRate) top

/-! ## What the port sends while it trains (R267-R270) -/

/-- The preset of a transmit lane: NL_TX_PRESET_FORCE, else what the peer has asked for at this rate, else P4 (R267). -/
def lanePreset (s : State) (port lane : Nat) : Nat :=
  let f := obj s 0x4405 (port + 1)
  if f < 8 then f else smGet 4 lane (getLane s port).cfg.presets

/-- A transmit lane takes the taps of its preset. -/
def sendTaps (port lane : Nat) (s : State) : State :=
  let t := presetTaps (lanePreset s port lane)
  send (.laneTaps port lane t.1 (mainCursor t) t.2) s

/-- Every transmit lane of a port takes the taps of its preset. -/
def sendAllTaps (port : Nat) (s : State) : State := (List.range (lanePhys port)).foldl (fun s x => sendTaps port x s) s

/-- The transmitters of a port run at the rate it has by now: its forwarded clock and taps (R260, R266, R267). -/
def runAtRate (port : Nat) (s : State) : State :=
  sendAllTaps port (send (.laneClock port (clockKhz (getLane s port).cfg.rate)) s)

/-- The block the port now sends on a lane: TS1 up to LOCK, TS2 in EXCHANGE, STEP and EQ in a step (Table 12-4). -/
def blockSent (s : State) (port lane : Nat) : Bytes :=
  let l := getLane s port
  let caps := ownKind port * 16 + min (obj s 0x2401 (port + 1)) (if port = 14 then 3 else 4)
  let loopReq := match l.loop with | some lp => b2n (lp.mode == 3 && !lp.refused) * 2 | none => 0
  let flags (ack : Bool) := b2n ack * 8 + b2n l.nak * 4 + loopReq + b2n l.cfg.rxPrecode
  let uid := Config.serial.toNat % 2 ^ 48
  let want := match smFind? lane l.train.want with | some (p, _) => 8 + p | none => 0
  if l.state < 3 then trainBlock 1 lane caps (flags false) 0 0 uid
  else if l.state = 3 then trainBlock 2 lane caps (flags (!l.train.ts2Run.isEmpty)) 0 0 uid
  else if l.train.part = 0 then trainBlock 3 lane caps (flags false) (targetRate s port * 16) l.train.count 0
  else trainBlock 4 lane caps (flags l.train.ackOwn) (targetRate s port * 16 + want) 0 (l.train.pass.getD 0)

/-- Send the port's block on a lane. -/
def sendBlock (port lane : Nat) (s : State) : State :=
  let b := blockSent s port lane
  send (.training port lane b (blockLevels b)) s

/-- Send the port's block on every lane, the spare included (R268). -/
def sendBlocks (port : Nat) (s : State) : State := (List.range (lanePhys port)).foldl (fun s x => sendBlock port x s) s

/-- A phase of the bring-up begins: its first block goes out on every lane. -/
def beginPhase (port : Nat) (f : LaneSt → LaneSt) (s : State) : State :=
  sendBlocks port (updLane port (fun l => let n := f l; { n with train := { n.train with got := [], sent := 0 } }) s)

/-- The next block of the phase, on every lane: TS2 with ACK are counted, STEP counts down to 0 and then ends, and no block
goes out while PRBS31 data does (R269, R270). -/
def nextBlock (port : Nat) (s : State) : State :=
  let l := getLane s port
  if l.state = 4 ∧ ((l.train.part = 0 ∧ l.train.count = 0) ∨ l.train.part = 2) then s
  else
    sendBlocks port (updLane port (fun l => { l with train := { l.train with
      sent := l.train.sent + 1
      ts2Sent := if l.state = 3 ∧ l.train.ts2Run.isEmpty = false then l.train.ts2Sent + 1 else l.train.ts2Sent
      count := if l.state = 4 ∧ l.train.part = 0 then l.train.count - 1 else l.train.count } }) s)

/-- A block's time has passed on a trace: a lane sends blocks without a pause, so with the first trace that has received
its n-th block of the phase every lane sends its block after the n-th (log entry 110). -/
def blockTime (port trace : Nat) (s : State) : State :=
  let t := (getLane s port).train
  let n := smGet 0 trace t.got + 1
  let s1 := updLane port (fun l => { l with train := { l.train with got := smPut trace n l.train.got } }) s
  if t.sent < n then nextBlock port s1 else s1

/-- The port leaves ACTIVE, if it is: the link goes down with cause 0x01, a substitution and an eye scan end (R277,
R280, R302); the mirror port is lost (R395). -/
def leaveActive (port : Nat) (s : State) : State :=
  if (getLane s port).state ≠ 5 then s
  else
    let s1 := eyeAbort (fun e => e.port == port) (updLane port (fun l => { l with state := 1, txDup := none, rxReq := none }) s)
    if port = 14 then mirrorDown s1 else linkStop port 1 s1

/-- Is a port held in DISABLED (R269)? -/
def portOff (s : State) (port : Nat) : Bool := (getLane s port).off || obj s 0x2400 (port + 1) == 0

/-- A full bring-up begins at DETECT; every one after the first counts in NL_RETRAINS (R272). -/
def startBringup (port : Nat) (s : State) : State :=
  let s1 := leaveActive port s
  if portOff s1 port then
    send (.laneClock port 0)
      (updLane port (fun l => { l with state := 0, loop := none, farPeer := false, txDup := none, rxReq := none }) s1)
  else
    let s2 := if (getLane s1 port).begun then bump 0x3410 (port + 1) s1 else s1
    runAtRate port (beginPhase port (fun l => { l with
      state := 1, cfg := { cfg0 with rate := 1 }, prev := none, train := train0, begun := true, faulty := 0,
      goodScans := [], farPeer := false, nak := false }) s2)

/-- Back to DETECT from a phase that failed, with its cause (Table 12-5). -/
def backToDetect (port cause : Nat) (s : State) : State :=
  runAtRate port (beginPhase port (fun l => { l with
    state := 1, cause := cause, cfg := { cfg0 with rate := 1 }, prev := none, train := train0 }) s)

/-- The generators that the physical lanes of a loopback and their checkers start from: the spec gives them no state (log
entry 11). -/
def loopSeeds : Nat → State → List (BitVec 31) × State
  | 0, s => ([], s)
  | n + 1, s =>
    let f := takeFree s
    let r := loopSeeds n f.2
    (f.1.truncate 31 :: r.1, r.2)

/-- A port enters a loopback: every lane and every checker begins the pattern (R281). -/
def beginLoop (port : Nat) (s : State) : State :=
  let r := loopSeeds (lanePhys port) s
  updLane port (fun l => { l with
    state := 6, scramble := r.1, rxScramble := r.1
    last := List.replicate (lanePhys port) 0, rxLast := List.replicate (lanePhys port) 0 }) r.2

/-- The bring-up is over: ACTIVE, where the link layer starts with INIT and the mirror port is UP, or the loopback
(R262, R264, R281, R282, R291). -/
def enterFinal (port cause : Nat) (s : State) : State :=
  let l := getLane s port
  if l.loop.isSome || l.farPeer then beginLoop port (updLane port (fun l => { l with cause := cause }) s)
  else
    let s1 := updLane port (fun l => { l with
      state := 5, cause := cause, activeUnit := some l.unit, prev := none
      scramble := (List.range (laneWidth port)).map laneSeed ++ [laneSeed 0]
      last := List.replicate (laneWidth port + 1) 0
      rxScramble := (List.range (laneWidth port)).map laneSeed
      rxLast := List.replicate (laneWidth port) 0
      ce := [], ceStart := s.ptime }) s
    if port = 14 then mirrorUp s1
    else updLink port (fun k => { link0 with state := 1, cause := k.cause, rerouted := k.rerouted }) s1

/-- The first lanes of a set as logical lanes, and the next as the spare (R271). -/
def assignLanes (port : Nat) (lanes : List Nat) : List Nat × Option Nat :=
  (lanes.take (laneWidth port), if port = 14 then none else lanes[8]?)

/-- The rate the port now runs has its lanes: the next step, or the end of the bring-up (R270). -/
def nextStep (port : Nat) (s : State) : State :=
  let l := getLane s port
  if l.cfg.rate < targetRate s port then
    beginPhase port (fun l => { l with
      state := 4, prev := some l.cfg
      train := { train0 with
        order := l.train.order, polarity := l.train.polarity, peerTarget := l.train.peerTarget, step := l.cfg.rate + 1 } }) s
  else enterFinal port 0 s

/-- EXCHANGE is complete and the peer fits: the lanes of LOCK serve N1 (R270), and the steps begin. -/
def exchangeDone (port : Nat) (s : State) : State :=
  nextStep port (updLane port (fun l =>
    let a := assignLanes port (l.train.order.map (·.1))
    { l with cfg := { cfg0 with rate := 1, rxMap := a.1, txMap := a.1, rxSpare := a.2, txSpare := a.2 } }) s)

/-- A step has failed: back to the lanes and presets of the previous rate, at which the port enters ACTIVE (R272). The
mirror port's direction is lost instead (R283). -/
def stepFails (port : Nat) (s : State) : State :=
  let s1 := bump 0x3412 (port + 1) s
  if port = 14 then backToDetect port 2 s1
  else
    match (getLane s1 port).prev with
    | some c => enterFinal port 5 (runAtRate port (updLane port (fun l => { l with cfg := c }) s1))
    | none => backToDetect port 2 s1

/-- Both ends' passing lanes are known: the lanes of each direction, or a failed step (R271, R272). -/
def judgeStep (port : Nat) (s : State) : State :=
  let l := getLane s port
  match l.train.pass, l.train.peerPass with
  | some rx, some tx =>
    let a := assignLanes port (onesBelow (lanePhys port) rx)
    let b := assignLanes port (onesBelow (lanePhys port) tx)
    if a.1.length < laneWidth port ∨ b.1.length < laneWidth port then stepFails port s
    else
      let warn (x : Option Nat) (dir : Nat) (s : State) : State :=
        if x.isNone && port != 14 then laneDegraded port (0xFE + dir) s else s
      nextStep port (warn b.2 1 (warn a.2 0 (updLane port (fun l => { l with
        cfg := { l.cfg with rxMap := a.1, rxSpare := a.2, txMap := b.1, txSpare := b.2 } }) s)))
  | _, _ => s

/-! ## Substitution (R274-R277) -/

/-- Put a LANE_OP into the outgoing flits (R290); on a link that is down only RETRAIN_REQ goes out (R302). -/
def sendLaneOp (port op arg n : Nat) (s : State) : State :=
  updLink port (fun k => if k.state = 0 ∧ op ≠ 4 then k else { k with laneOp := op, laneArg := arg, laneLeft := n }) s

/-- Ask for the substitution of a logical lane: when the direction has a standby spare, and one at a time; a lane that
degrades without a spare raises the event and changes nothing (R275, R277). -/
def askSpare (port lane : Nat) (s : State) : State :=
  let l := getLane s port
  if l.state ≠ 5 ∨ port = 14 then s
  else if l.cfg.rxSpare.isNone then laneDegraded port (l.cfg.rxMap.getD lane 0xFF) s
  else if l.rxReq.isSome = true ∨ (getLink s port).state = 0 then s
  else sendLaneOp port 1 lane 64 (updLane port (fun l => { l with rxReq := some lane, agreed := [], compared := 0 }) s)

/-- The transmitter's part on SPARE_REQ: the lane goes out on the spare too. -/
def onSpareReq (port lane : Nat) (s : State) : State :=
  updLane port (fun l => if l.state = 5 ∧ l.cfg.txSpare.isSome = true ∧ lane < 8 then { l with txDup := some lane } else l) s

/-- On SPARE_DONE the spare carries the lane, and its former lane the standby pattern. -/
def onSpareDone (port lane : Nat) (s : State) : State :=
  updLane port (fun l =>
    match l.cfg.txSpare with
    | some x =>
      if l.txDup = some lane then
        { l with txDup := none, cfg := { l.cfg with txMap := l.cfg.txMap.set lane x, txSpare := l.cfg.txMap[lane]? } }
      else l
    | none => l) s

/-- On SPARE_ABORT the spare returns to standby. -/
def onSpareAbort (port lane : Nat) (s : State) : State :=
  updLane port (fun l => if l.txDup = some lane then { l with txDup := none } else l) s

/-- Corrected bytes reported by the link layer, as logical lanes (R275, R286). -/
def noteCorrections (port : Nat) (lanes : List Nat) (s : State) : State :=
  let l := getLane s port
  let fresh : Bool := decide (l.ceStart + 1000000 ≤ s.ptime)
  let old : SMap Nat := if fresh then [] else l.ce
  let new : SMap Nat := lanes.foldl (fun m x => smUpd 0 x (· + 1) m) old
  let lim := obj s 0x4404 0
  let s1 := updLane port (fun l => { l with ce := new, ceStart := if fresh then s.ptime else l.ceStart }) s
  (List.range 8).foldl (fun s x => if smGet 0 x old ≤ lim ∧ lim < smGet 0 x new then askSpare port x s else s) s1

end Sys2Proof.Machine
end

