-- ==== Sys2Proof/Machine/Egress.lean ====
section
/-!
DEFINITION. The class queues of Narlin egress ports (spec/14 R327), what a leaf needs to go on (spec/15 R337), and the
panic of the paced class (spec/15 R346; spec/04 R90).
-/
namespace Sys2Proof.Machine

def egressQ (s : State) (port tc : Nat) : List Outgoing := smGet [] (port * 4 + tc) s.fabric.egress

/-! ## Panic (R346) -/

/-- PACED_OCC of a port. -/
def pacedOcc (s : State) (port : Nat) : Nat := ((egressQ s port 1).filter (·.paced)).length

/-- Paced reads outstanding of a port. -/
def pacedReads (s : State) (port : Nat) : Nat := ((getSched s port).pacedOut.map (·.2)).foldl (· + ·) 0

/-- The panic inputs of the interleave sets, from the ports that have raised panic (R90, R346). -/
def setPanics (s : State) : State :=
  let high (set : Nat) : Bool := s.sched.any (fun e => e.2.panic && decide (0 < smGet 0 set e.2.pacedOut))
  { s with dram := { s.dram with refresh := (List.range 8).foldl (fun m set =>
      smUpd { panic := false, owed := 0, doubled := false, issued := 0 } set (fun r => { r with panic := high set }) m) s.dram.refresh } }

/-- Raise or lower a port's panic as its paced packets and reads now stand. -/
def panicUpdate (port : Nat) (s : State) : State :=
  if 14 ≤ port then s
  else
    let occ := pacedOcc s port
    let out := pacedReads s port
    let p := (getSched s port).panic
    if p = false ∧ occ < obj s 0x4504 0 ∧ 0 < out then
      setPanics (bump 0x3500 (port + 1) (updSched port (fun x => { x with panic := true }) s))
    else if p = true ∧ (obj s 0x4505 0 ≤ occ ∨ out = 0) then
      setPanics (updSched port (fun x => { x with panic := false }) s)
    else setPanics s

/-- One more, or one less, paced read of a set outstanding for a port. -/
def pacedRead (port line : Nat) (more : Bool) (s : State) : State :=
  panicUpdate port (updSched port (fun p => { p with
    pacedOut := smUpd 0 (lstackOf (line * 64) / 4) (fun n => if more then n + 1 else n - 1) p.pacedOut }) s)

/-! ## Class queues (R327) -/

/-- A packet enters its class queue; a TC0 or TC2 queue that reaches NF_THROTTLE_HIGH throttles the port's class. -/
def egressPush (port : Nat) (o : Outgoing) (s : State) : State :=
  let tc := unitTc o.unit
  let q := egressQ s port tc ++ [o]
  let s1 := { s with fabric := { s.fabric with egress := smSet [] (port * 4 + tc) q s.fabric.egress } }
  let s2 := if (tc = 0 ∨ tc = 2) ∧ obj s 0x4424 0 ≤ q.length ∧ portThrottled s port tc = false then
      bump 0x3440 8 { s1 with fabric := { s1.fabric with throttled := (port * 4 + tc) :: s1.fabric.throttled } }
    else s1
  panicUpdate port s2

/-- The head of a class queue leaves it; a throttled class that falls to NF_THROTTLE_LOW is free again. -/
def egressPop (port tc : Nat) (s : State) : State :=
  let q := (egressQ s port tc).drop 1
  let s1 := { s with fabric := { s.fabric with egress := smSet [] (port * 4 + tc) q s.fabric.egress } }
  let s2 := if portThrottled s port tc = true ∧ q.length ≤ obj s 0x4425 0 then
      retryWaiting { s1 with fabric := { s1.fabric with throttled := s1.fabric.throttled.filter (· != port * 4 + tc) } }
    else s1
  panicUpdate port s2

/-! ## Link credits (R299, R309, R315) -/

/-- May a unit use its class's credits: its own header credit and its data credits, beyond the escape reserve when it
is not marked ESC; `hdr` and `data` are taken already. -/
def creditsFor (s : State) (port : Nat) (u : NlUnit) (hdr data : Nat) : Bool :=
  let l := getLink s port
  let tc := unitTc u
  let keep := if unitEsc u then 0 else escReserve s port
  decide (keep + hdr + 1 ≤ hdrAvail l tc) && decide (4 * keep + data + unitData u ≤ dataAvail l tc)

/-- Credits that the packets in a class queue will take. -/
def queueCredits (q : List Outgoing) : Nat × Nat := (q.length, (q.map (fun o => unitData o.unit)).foldl (· + ·) 0)

/-- Is there room for a unit at a Narlin port: in its class queue, and in link credits behind what the queue holds
(Table 15-2)? -/
def portRoom (s : State) (port : Nat) (u : NlUnit) : Bool :=
  let q := egressQ s port (unitTc u)
  linkUp s port && decide (q.length < 256) && creditsFor s port u (queueCredits q).1 (queueCredits q).2

end Sys2Proof.Machine
end

