-- ==== Sys2Proof/Machine/Mmio.lean ====
section
/-!
DEFINITION. A partition's MMIO window (spec/05 R118, Tables 5-2 to 5-4; spec/02 Table 2-6): reading and writing its
registers, 4 bytes at a time, or 8.
-/
namespace Sys2Proof.Machine

/-- The window's page or block of an offset. -/
inductive WindowPart where
  | control (off : Nat)
  | translation (off : Nat)
  | msix (entry off : Nat)
  | pba (word : Nat)
  | queue (q off : Nat)
  | doorbell (q : Nat)
  | unassigned
deriving DecidableEq, Repr

/-- Table 5-2. -/
def windowPart (off : Nat) : WindowPart :=
  if off < 0x1000 then .control off
  else if off < 0x2000 then .translation (off - 0x1000)
  else if off < 0x3000 then .msix ((off - 0x2000) / 16) (off % 16)
  else if off < 0x3020 then .pba ((off - 0x3000) / 4)
  else if 0x10000 ≤ off ∧ off < 0x14000 then .queue ((off - 0x10000) / 64) (off % 64)
  else if 0x100000 ≤ off ∧ off < 0x200000 ∧ off % 4096 = 0 then .doorbell ((off - 0x100000) / 4096)
  else .unassigned

/-- The low (`hi` = 0) or high half of a 64-bit value. -/
def half (v : Nat) (hi : Nat) : Nat := (v >>> (32 * hi)) % 2 ^ 32

/-- A 64-bit value with one half replaced. -/
def withHalf (v hi w : Nat) : Nat := putField v (32 * hi + 31) (32 * hi) w

/-- DI_STATUS and DI_DONE (Table 2-6). -/
def diStatus (x : PartSt) : Nat := x.acceptCount * 2 ^ 16 + x.lastRefusal * 2 ^ 8 + x.di.length
def diDone (x : PartSt) : Nat := x.lastToken * 2 ^ 16 + x.doneCount

/-- Q_CFG and Q_STATUS (Table 5-4). -/
def qCfg (x : QueueSt) : Nat := x.vector * 2 ^ 16 + b2n x.en * 2 ^ 8 + x.compLog2 * 16 + x.descLog2
def qStatus (s : State) (m : Nat) : Nat :=
  b2n (qDrained s m) * 2 ^ 17 + b2n (getQueue s m).en * 2 ^ 16 + ((getQueue s m).held.length % 256) * 2 ^ 8 +
  (queueJobs s m).length % 256

/-- The 32-bit word of a window at an offset that is a multiple of 4. -/
def windowRead (s : State) (p off : Nat) : Nat :=
  let x := getPart s p
  match windowPart off with
  | .control o =>
    let ts := partTiles s p
    let mask := ts.foldl (fun m t => putBit m t true) 0
    match o with
    | 0x000 => p * 2 ^ 24 + x.qCount * 2 ^ 15 + ts.length
    | 0x004 => 16 * ts.length
    | 0x008 => half mask 0
    | 0x00C => half mask 1
    | 0x010 => x.vectors
    | 0x014 => x.errCause
    | 0x018 => obj s 0x2603 (p + 1)
    | _ => 0
  | .translation o =>
    match o with
    | 0x000 => half x.diBase 0
    | 0x004 => half x.diBase 1
    | 0x008 => half x.diLength 0
    | 0x00C => half x.diLength 1
    | 0x018 => diStatus x
    | 0x020 => diDone x
    | _ => 0
  | .msix e o =>
    let v := smGet msix0 e x.msix
    match o with
    | 0 => half v.addr 0
    | 4 => half v.addr 1
    | 8 => v.data
    | _ => v.control
  | .pba w => field x.pba.toNat (32 * w + 31) (32 * w)
  | .queue q o =>
    if x.qCount ≤ q then 0
    else
      let m := x.qFirst + q
      let y := getQueue s m
      match o with
      | 0x00 => half y.descBase 0
      | 0x04 => half y.descBase 1
      | 0x08 => half y.compBase 0
      | 0x0C => half y.compBase 1
      | 0x10 => qCfg y
      | 0x14 => y.budgetUs
      | 0x18 => half y.tiles 0
      | 0x1C => half y.tiles 1
      | 0x20 => y.head
      | 0x24 => y.tail
      | 0x28 => y.ctail
      | 0x2C => y.chead
      | 0x30 => qStatus s m
      | _ => 0
  | .doorbell _ => 0
  | .unassigned => 0

/-- A 64-bit register of a queue block is written whole. -/
def queueWide (off : Nat) : Bool := off == 0x00 || off == 0x08 || off == 0x18

/-- The value a 64-bit queue register now holds. -/
def queueWideNow (s : State) (m off : Nat) : Nat :=
  match off with
  | 0x00 => (getQueue s m).descBase
  | 0x08 => (getQueue s m).compBase
  | _ => (getQueue s m).tiles

/-- A 32-bit write of a window at an offset that is a multiple of 4 (R118). -/
def windowWrite (p off v : Nat) (s : State) : State :=
  let x := getPart s p
  let w := v % 2 ^ 32
  match windowPart off with
  | .control o =>
    match o with
    | 0x010 => updPart p (fun y => { y with vectors := w &&& 0x00FF00FF }) s
    | 0x014 => pcErrCauseWrite p w s
    | _ => s
  | .translation o =>
    match o with
    | 0x000 => updPart p (fun y => { y with diBase := field (withHalf y.diBase 0 w) 47 16 * 65536 }) s
    | 0x004 => updPart p (fun y => { y with diBase := field (withHalf y.diBase 1 w) 47 16 * 65536 }) s
    | 0x008 => updPart p (fun y => { y with diLength := field (withHalf y.diLength 0 w) 48 16 * 65536 }) s
    | 0x00C => updPart p (fun y => { y with diLength := field (withHalf y.diLength 1 w) 48 16 * 65536 }) s
    | 0x010 => diCtrlWrite p w s
    | _ => s
  | .msix e o =>
    let upd (f : MsixEntry → MsixEntry) : State := updPart p (fun y => { y with msix := smUpd msix0 e f y.msix }) s
    match o with
    | 0 => upd (fun y => { y with addr := withHalf y.addr 0 w })
    | 4 => upd (fun y => { y with addr := withHalf y.addr 1 w })
    | 8 => upd (fun y => { y with data := w })
    | _ => msixControlWrite p e (w &&& 0x00030001) s
  | .pba _ => s
  | .queue q o =>
    if x.qCount ≤ q then s
    else
      let m := x.qFirst + q
      match o with
      | 0x10 => qCfgWrite m w s
      | 0x14 => qRegWrite p m 0x14 w s
      | 0x2C => compHeadWrite p m w s
      | _ =>
        if queueWide (o / 8 * 8) then
          qRegWrite p m (o / 8 * 8) (withHalf (queueWideNow s m (o / 8 * 8)) (o / 4 % 2) w) s
        else s
  | .doorbell q => if x.qCount ≤ q then s else doorbellWrite p (x.qFirst + q) w s
  | .unassigned => s

/-- A read of `size` 4 or 8 bytes of a window (R118): any other read gives all ones. -/
def mmioRead (s : State) (p off size : Nat) : Nat :=
  if size = 4 ∧ off % 4 = 0 then windowRead s p off
  else if size = 8 ∧ off % 8 = 0 then windowRead s p off + windowRead s p (off + 4) * 2 ^ 32
  else 2 ^ (8 * size) - 1

/-- A write of `size` 4 or 8 bytes of a window (R118): any other write is discarded. -/
def mmioWrite (p off size v : Nat) (s : State) : State :=
  if size = 4 ∧ off % 4 = 0 then windowWrite p off v s
  else if size = 8 ∧ off % 8 = 0 then
    match windowPart off with
    | .queue q o =>
      if queueWide o && decide (q < (getPart s p).qCount) then qRegWrite p ((getPart s p).qFirst + q) o (v % 2 ^ 64) s
      else windowWrite p (off + 4) (v / 2 ^ 32) (windowWrite p off v s)
    | _ => windowWrite p (off + 4) (v / 2 ^ 32) (windowWrite p off v s)
  else s

/-- A host's read of BAR 2 of an LD (R118): the window of the partition that PART_LD names for it, or all ones. -/
def bar2Read (s : State) (ld off size : Nat) : Nat :=
  match windowOf? s (64 + ld) with
  | some p => mmioRead s p off size
  | none => 2 ^ (8 * size) - 1

/-- A host's write of BAR 2 of an LD (R118). -/
def bar2Write (ld off size v : Nat) (s : State) : State := windowDo (64 + ld) (fun p s => mmioWrite p off size v s) s

end Sys2Proof.Machine
end

