-- ==== Sys2Proof/Machine/Remote.lean ====
section
/-!
DEFINITION. Narlin requests at the module's own endpoint (spec/14 R305-R310, R328-R330; spec/02 R39, R40; spec/16 R361,
R364; spec/15 R343, R344): their checks, their admission, and what they do.
-/
namespace Sys2Proof.Machine

/-- What a request addresses (Table 2-2). -/
inductive ReqTarget where
  | pool (pa : Nat)
  | mmio (part off : Nat)
deriving DecidableEq, Repr

def opcSpanned (opc : Nat) : Bool := opc == 0x01 || opc == 0x03 || opc == 0x07

/-- A request's size in bytes where its column gives one: SIZE8. -/
def size8 (p : Packet) : Nat :=
  if pkOpc p = 0x02 then (if bitOf p.hdr 108 then 8 else 4) else if bitOf p.hdr 112 then 8 else 4

/-- No rsvd bit of the request's column is 1, SPAN is 0 where the column says 0, and no SMAP bit lies beyond the span
(R306, R307). -/
def formatOk (p : Packet) : Bool :=
  field p.hdr 15 13 == 0 &&
  (if opcSpanned (pkOpc p) then pkSmap p >>> (pkSpan p + 1) == 0
   else pkSpan p == 0 && (
     if pkOpc p = 0x02 then field p.hdr 115 109 == 0
     else if pkOpc p = 0x06 then field p.hdr 115 113 == 0 else true))

/-- The alignment ADDR must have (Table 14-3). -/
def addrAlign (p : Packet) : Nat :=
  if opcSpanned (pkOpc p) then 32 else if pkOpc p = 0x02 ∨ pkOpc p = 0x06 then size8 p else 8

/-- The bytes of the pool that a request covers from ADDR. -/
def reqLen (p : Packet) : Nat :=
  if opcSpanned (pkOpc p) then 32 * (pkSpan p + 1) else if pkOpc p = 0x02 ∨ pkOpc p = 0x06 then size8 p else 8

def reqWrites (opc : Nat) : Bool := opc != 0x01 && opc != 0x02

/-- The target of a request's ADDR (R39). -/
def reqTarget (p : Packet) : Except Status ReqTarget :=
  let off := field (pkAddr p) 39 0
  match field (pkAddr p) 43 40 with
  | 0 => .ok (.pool off)
  | 1 => .ok (.mmio (off / 0x200000) (off % 0x200000))
  | _ => .error .errTranslate

/-- The holder of the read-write grant on a block. -/
def rwHolder? (s : State) (b : Nat) : Option Nat := (List.range 64).find? (fun q => partRight s q b == 2)

/-- The key partition of a request from an endpoint (Table 16-5; log entry 19). -/
def keyPartition? (s : State) (src : Nat) (t : ReqTarget) : Option Nat :=
  if epPartition s src ≠ 0xFF then some (epPartition s src)
  else
    match t with
    | .pool pa => rwHolder? s (pa / 2 ^ 28)
    | .mmio q _ => if q < 64 then some q else none

/-- Count a packet refused or dropped under R364 (R310). -/
def countAuth (kp : Option Nat) (s : State) : State :=
  let s1 := bump 0x3440 5 s
  match kp with | some q => pbump q 0x6120 1 1 s1 | none => s1

/-- Open a data packet under a key partition's payload slot, CURRENT first and then PREVIOUS (R361, R362). -/
def openWith (s : State) (kp : Option Nat) (count : Nat) (p : Packet) : Option Packet :=
  match kp.bind (liveSlot? s) with
  | none => none
  | some k =>
    let try_ (key : BitVec 256) : Option Bytes :=
      gcmOpen key (packetNonce (pkSrc p) (pkDst p) (pkTc p) (pkMc p) count k.epoch) (packetAad p)
        p.sectors.flatten p.auth
    let r := match try_ k.current with
      | some d => some d
      | none => if k.state = 2 then try_ k.previous else none
    r.map (fun d => { p with sectors := toSectors p.sectors.length d })

/-- A received data packet in clear, or its refusal with ERR_KEY (R310, R364). -/
def openPacket (s : State) (kp : Option Nat) (count : Nat) (p : Packet) : Option Packet :=
  if !opcIsData (pkOpc p) then some p
  else if pkEnc p then openWith s kp count p
  else
    match kp with
    | some q => if bitOf (obj s 0x2112 (q + 1)) 24 then none else some p
    | none => some p

/-- The carried sectors by their place in the span (R307). -/
def spanSectors (p : Packet) : List (Option Bytes) :=
  (List.range (pkSpan p + 1)).map (fun i =>
    if bitOf (pkSmap p) i then p.sectors[(onesBelow i (pkSmap p)).length]? else none)

def atomicOf? (aop : Nat) : Option AtomicOp :=
  [AtomicOp.add, .fadd, .swap, .cas, .umin, .umax, .smin, .smax, .and, .or, .xor][aop]?

/-- The pool access a request makes; none for an AOP that R330 does not list. -/
def poolOp (p : Packet) (pa : Nat) : Option MemOp :=
  match pkOpc p with
  | 0x01 => some (.readSpan pa (pkSmap p))
  | 0x02 => some (.read pa (size8 p))
  | 0x03 => some (.write pa (((spanSectors p).map (fun x => slice (x.getD []) 0 32)).flatten.map some))
  | 0x06 =>
    let sec := p.sectors.getD 0 []
    let n := size8 p
    match atomicOf? (field p.hdr 111 108) with
    | some .fadd => if n = 8 then none else some (.atomic .fadd pa 4 (BitVec.ofNat 64 (leAt sec 0 4)) 0)
    | some a => some (.atomic a pa n (BitVec.ofNat 64 (leAt sec 0 n)) (BitVec.ofNat 64 (leAt sec 8 n)))
    | none => none
  | 0x07 =>
    let secs := (spanSectors p).map (fun x => slice (x.getD []) 0 32)
    let words := (secs.map (fun b => (List.range 8).map (fun i => BitVec.ofNat 32 (leAt b (4 * i) 4)))).flatten
    let mask := (List.range words.length).foldl (fun m i => putBit m i (bitOf (pkSmap p) (i / 8))) 0
    some (.reduceSpan pa words mask)
  | _ =>
    let sec := p.sectors.getD 0 []
    some (.write pa ((List.range 8).map (fun i => if bitOf (pkSmap p) i then some (sec.getD i 0) else none)))

/-- Does the source reach what it asks for (R40)? Its grants on blocks and windows are given. -/
def grantsOk (s : State) (blockRight winRight : Nat → Nat) (p : Packet) (t : ReqTarget) : Bool :=
  let need (r : Nat) : Bool := if reqWrites (pkOpc p) then r == 2 else r == 1 || r == 2
  match t with
  | .pool pa =>
    let b0 := pa / 2 ^ 28
    let b1 := (pa + reqLen p - 1) / 2 ^ 28
    decide (b1 < geomBlocks s) && need (blockRight b0) && need (blockRight b1)
  | .mmio q _ => decide (q < geomParts s) && need (winRight q)

/-- A class S counter for each request refused under R40, by source. -/
def countRefusedEp (e : Nat) (s : State) : State := if e < 128 then bump 0x3122 (e + 1) s else bump 0x3123 (e - 127) s

/-- A source's right on a partition's window (R355). -/
def winRight (s : State) (e q : Nat) : Nat := field (epGrant s e) (7168 + 2 * q + 1) (7168 + 2 * q)

/-- The grants a request is checked against: its source's, or, for a copy that a job of this module multicasts, those of
the job's partition (R323). -/
structure Grants where
  block : Nat → Nat
  window : Nat → Nat

/-- The status of the first failing check, or what the request addresses, in clear (R306, R39, R364, R40, R328, R392,
R420, Table 17-2). -/
def checkReq (s : State) (g : Grants) (count : Nat) (p : Packet) : Except Status (ReqTarget × Packet) :=
  if !s.ready then .error .fenced
  else if !formatOk p then .error .errFormat
  else if pkAddr p % addrAlign p ≠ 0 then .error .errAlign
  else
    match reqTarget p with
    | .error e => .error e
    | .ok t =>
      match openPacket s (keyPartition? s (pkSrc p) t) count p with
      | none => .error .errKey
      | some q =>
        if !grantsOk s g.block g.window q t then .error .errPermission
        else
          match t with
          | .pool pa =>
            if !servesBlock s pa then .error .fenced
            else if (poolOp q pa).isNone then .error .errFormat else .ok (t, q)
          | .mmio w _ =>
            if pkOpc p = 0x01 ∨ pkOpc p = 0x03 then .error .errPermission
            else if pkOpc p = 0x06 ∨ pkOpc p = 0x07 then .error .errFormat
            else if partState s w ≠ 2 then .error .fenced else .ok (t, q)

/-- The header of a request, kept for its answer. -/
def bare (p : Packet) : Packet := { p with sectors := [], auth := [] }

/-- Perform a pool request whose turn has come (R328, R329): its token at the memory-channel group, its access. -/
def performRemote (sub : Nat) (p : Packet) (kp : Option Nat) (pa : Nat) (s : State) : State :=
  match poolOp p pa with
  | none => s
  | some op =>
    let reads : Bool := pkOpc p == 0x01 || pkOpc p == 0x02
    let port? : Option Nat := if reads && epPaced s (pkSrc p) then
        (match choosePort s (pkSrc p) 1 false false with | .go q => some q | _ => none) else none
    let s1 := match port? with | some q => pacedRead q (pa / 64) true s | none => s
    let s2 := enqueueLeaf (memPort (pa / 64)) sub 3 (.mem (pa / 64) port?.isSome (port?.getD 0)) s1
    let reply : Reply := if pkMc p then .none else .narlin (bare p) kp
    wake (submit (.endpoint (pkSrc p)) op reply s2)

/-- Refuse a request with a status: its answer, counted where the rule counts it (R40, R329, R364). -/
def refuseReq (p : Packet) (kp : Option Nat) (st : Status) (s : State) : State :=
  let s1 := match st with
    | .errKey => countAuth kp s
    | .errPermission => countRefusedEp (pkSrc p) s
    | _ => s
  if pkMc p then mcReport 0x12 (pkSrc p) (pkPsn p) 1 (ownEp s) s1
  else answerNarlin (bare p) kp ⟨st, []⟩ s1

/-- An MMIO request (Table 14-5, R118). -/
def mmioReq (p : Packet) (kp : Option Nat) (w off : Nat) (s : State) : State :=
  if pkOpc p = 0x02 then
    answerNarlin (bare p) kp ⟨.ok, slice (leBytes 8 (mmioRead s w off (size8 p))) 0 32⟩ s
  else
    let sec := p.sectors.getD 0 []
    let s1 := match pkSmap p with
      | 0x0F => mmioWrite w off 4 (leAt sec 0 4) s
      | 0xF0 => mmioWrite w (off + 4) 4 (leAt sec 4 4) s
      | 0xFF => mmioWrite w off 8 (leAt sec 0 8) s
      | _ => s
    if pkMc p then s1 else answerNarlin (bare p) kp ⟨.ok, []⟩ s1

/-- A request at the module's own endpoint, with the COUNT its stream gives it (R328, R343, R344). A copy of a multicast
is admitted whatever the leaves hold, since it has no answer that could refuse it. -/
def serveReq (g : Grants) (count : Nat) (p : Packet) (s : State) : State :=
  let kp := match reqTarget p with | .ok t => keyPartition? s (pkSrc p) t | .error _ => none
  match checkReq s g count p with
  | .error st => refuseReq p kp st s
  | .ok (.mmio w off, q) => mmioReq q kp w off s
  | .ok (.pool pa, q) =>
    let sub := epSub s (pkSrc q)
    if pkMc q then performRemote sub q kp pa s
    else
      match admitMem s (pa / 64) sub 3 with
      | .served => performRemote sub q kp pa s
      | .refused code =>
        answerNarlin (bare q) kp ⟨.retryQueueFull, []⟩ (countRefused sub 3 code (lstackOf pa) 2 s)
      | .delayed code =>
        updSched (memPort (pa / 64)) (fun x => { x with delayed := x.delayed ++ [(sub, 3, q)] }) (countDelayed sub code s)

/-- The grants of a source endpoint (R355). -/
def epGrants (s : State) (e : Nat) : Grants := { block := rightIn (epGrant s e), window := winRight s e }

/-- Delayed requests of a memory-channel group that are eligible now, in arrival order (R344). -/
def retryDelayed (port : Nat) (s : State) : State :=
  let all := (getSched s port).delayed
  let s0 := updSched port (fun x => { x with delayed := [] }) s
  all.foldl (fun s d =>
    match creditAdmission s port 2 d.1 d.2.1, reqTarget d.2.2 with
    | .served, .ok (.pool pa) => performRemote d.1 d.2.2 (keyPartition? s (pkSrc d.2.2) (.pool pa)) pa s
    | _, _ => updSched port (fun x => { x with delayed := x.delayed ++ [d] }) s) s0

end Sys2Proof.Machine
end

