-- ==== Sys2Proof/Machine/Sched.lean ====
section
/-!
DEFINITION. The scheduler (spec/15): sending opportunities, shaping credit, minimum shares. Ports are numbered 0-13
Narlin, 16-19 CXL, 32-63 memory-channel groups.
-/
namespace Sys2Proof.Machine

/-- The kind of a port: 0 Narlin, 1 CXL, 2 memory-channel group (Table 15-2). -/
def portKind (port : Nat) : Nat := if port < 14 then 0 else if port < 32 then 1 else 2

/-- Does an item wait for shaping credit (R341): a TC0 or TC2 packet of the module's own, an MSI-X message, a request
at a memory-channel group? -/
def delayable (s : State) (it : SchedItem) : Bool :=
  match it with
  | .nl o => isOwn s o.unit && (unitTc o.unit == 0 || unitTc o.unit == 2)
  | .cxl _ => false
  | .mem _ _ _ => true
  | .msix _ _ => true

/-- May a port take an item as far as its own room and link credit go (R336, R337)? -/
def portTakes (s : State) (port : Nat) (it : SchedItem) : Bool :=
  match it with
  | .nl o => portRoom s port o.unit
  | .mem _ _ _ => true
  | _ => s.cxl.trained.getLsbD (port - 16) && !s.cxl.perst.getLsbD (port - 16) && !s.cxl.gated.getLsbD (port - 16)

/-- Credit for an item of a leaf (R337). -/
def creditOk (s : State) (port sub svc : Nat) (b : SubSt) (v : SvcSt) (it : SchedItem) : Bool :=
  !delayable s it ||
  (!creditLow s sub 4 (portKind port) b.credit && !creditLow s sub svc (portKind port) v.credit)

/-- Is a paced read in a leaf taken ahead: is the panic input of its set high (R347)? -/
def promoted (s : State) (it : SchedItem) : Bool :=
  match it with
  | .mem line true _ => (smGet refresh0 (lstackOf (line * 64) / 4) s.dram.refresh).panic
  | _ => false

/-- The item a leaf would send: its first promoted read, else its head; with its place. -/
def leafHead (s : State) (v : SvcSt) : Option (Nat × SchedItem) :=
  match v.leaf.findIdx? (promoted s) with
  | some i => v.leaf[i]?.map (fun it => (i, it))
  | none => v.leaf.head?.map (fun it => (0, it))

/-- A leaf that is eligible at a port (R337): subscriber, service, place, item. -/
structure ReadyLeaf where
  sub : Nat
  svc : Nat
  idx : Nat
  item : SchedItem
deriving DecidableEq, Repr

/-- The eligible leaves of a port, by rising subscriber and service. -/
def eligibleLeaves (s : State) (port : Nat) : List ReadyLeaf :=
  ((getSched s port).subs.map (fun b => b.2.svcs.filterMap (fun v =>
    match leafHead s v.2 with
    | some (i, it) =>
      if portTakes s port it && creditOk s port b.1 v.1 b.2 v.2 it then some { sub := b.1, svc := v.1, idx := i, item := it } else none
    | none => none))).flatten

/-- The first of some choices with the best key by a comparison. -/
def firstBest (better : Nat → Nat → Bool) (key : ReadyLeaf → Nat) : List ReadyLeaf → Option ReadyLeaf
  | [] => none
  | e :: es =>
    match firstBest better key es with
    | none => some e
    | some f => if better (key f) (key e) then some f else some e

/-- mc of a subscriber at a port. -/
def subMc (s : State) (port sub : Nat) : Nat := (smGet sub0 sub (getSched s port).subs).mc

/-- A subscriber, and a service, whose first leaf has become eligible starts at the current virtual time and never in the past
(R339). -/
def activate (port : Nat) (es : List ReadyLeaf) (s : State) : State :=
  updSched port (fun p =>
    let idle (e : ReadyLeaf) : Bool := !p.active.any (fun k => k / 8 == e.sub)
    let fresh (e : ReadyLeaf) : Bool := !p.active.contains (8 * e.sub + e.svc)
    { p with
      active := es.map (fun e => 8 * e.sub + e.svc)
      subs := es.foldl (fun m e => smUpd sub0 e.sub (fun b => { b with
        st := if idle e && tagEarlier b.st p.vt then p.vt else b.st
        svcs := smUpd svc0 e.svc (fun v => { v with sv := if fresh e && tagEarlier v.sv b.svt then b.svt else v.sv }) b.svcs }) m)
        p.subs }) s

/-- The minimum credits rise (R338). -/
def accrueMin (port : Nat) (es : List ReadyLeaf) (s : State) : State :=
  ((es.map (·.sub)).eraseDups).foldl (fun s x =>
    updSched port (fun p => { p with subs := smUpd sub0 x (fun b => { b with mc := min (b.mc + obj s 0x2501 (x + 1)) 4096 }) p.subs }) s) s

/-- Weights of a subscriber and of a service of it. -/
def subWeight (s : State) (x : Nat) : Nat := obj s 0x2500 (x + 1)
def svcWeight (s : State) (x v : Nat) : Nat := if x < 64 then pobj s x 0x6500 (v + 1) else 16

/-- The subscriber of this opportunity and whether it is served in the minimum tier (R338, R347). -/
def pickSub (s : State) (port : Nat) (es : List ReadyLeaf) : Option (Nat × Bool) :=
  match es.find? (fun e => promoted s e.item) with
  | some e => some (e.sub, decide (1024 ≤ subMc s port e.sub))
  | none =>
    match firstBest (fun a b => decide (b < a)) (fun e => subMc s port e.sub) (es.filter (fun e => decide (1024 ≤ subMc s port e.sub))) with
    | some e => some (e.sub, true)
    | none =>
      (firstBest tagEarlier (fun e => (smGet sub0 e.sub (getSched s port).subs).st) es).map (fun e => (e.sub, false))

/-- The leaf of the subscriber that sends: a promoted read's, else that of the earliest service tag (R338). -/
def pickLeaf (s : State) (port sub : Nat) (es : List ReadyLeaf) : Option ReadyLeaf :=
  let mine := es.filter (·.sub == sub)
  match mine.find? (fun e => promoted s e.item) with
  | some e => some e
  | none => firstBest tagEarlier (fun e => (smGet svc0 e.svc (smGet sub0 sub (getSched s port).subs).svcs).sv) mine

/-- A credit after a packet: lower by 1, not below -65,535; an unshaped node keeps none (R340, R341). -/
def spend (s : State) (sub svc kind : Nat) (c : Int) : Int :=
  if (shapeOf s sub svc kind).1 = 0 then c else max (c - 256) (-65535 * 256)

/-- Charge the chosen leaf and take the item out of it (R338). -/
def charge (port : Nat) (minTier : Bool) (e : ReadyLeaf) (s : State) : State :=
  updSched port (fun p =>
    let b := smGet sub0 e.sub p.subs
    let v := smGet svc0 e.svc b.svcs
    let b1 : SubSt := if minTier then { b with mc := b.mc - 1024 } else { b with st := (b.st + 65536 / subWeight s e.sub) % 2 ^ 32 }
    let v1 : SvcSt := { v with
      sv := (v.sv + 65536 / svcWeight s e.sub e.svc) % 2 ^ 32
      credit := spend s e.sub e.svc (portKind port) v.credit
      leaf := v.leaf.eraseIdx e.idx }
    { p with
      vt := if minTier then p.vt else b.st
      subs := smSet sub0 e.sub { b1 with
        svt := v.sv, credit := spend s e.sub 4 (portKind port) b.credit, svcs := smSet svc0 e.svc v1 b.svcs } p.subs }) s

/-- Count a served packet under its tier (R344). -/
def countServed (sub : Nat) (minTier : Bool) (s : State) : State :=
  if 64 ≤ sub then bump 0x3502 1 s else pbump sub 0x6510 (if minTier then 1 else 2) 1 s

/-- The item goes on: into its class queue, to the host, or to the DRAM (R327, R336); a vector's message is no longer
pending (R136). -/
def sendItem (port : Nat) (it : SchedItem) (s : State) : State :=
  match it with
  | .nl o =>
    let s1 := match o.vec with | some (p, v) => setPba p v false s | none => s
    egressPush port o s1
  | .cxl m => send m s
  | .msix p v =>
    let e := smGet msix0 v (getPart s p).msix
    let ld := ((partLds s p).find? (fun ld => ld / 16 == port - 16)).getD 0
    send (.msixCxl (port - 16) (ld % 16) e.addr e.data) (setPba p v false s)
  | .mem line paced outPort =>
    let s1 := if paced then pacedRead outPort line false s else s
    retryDelayed port s1

/-- SENDING_OPPORTUNITY (R338): the port takes one packet, if a leaf is eligible. -/
def execSendingOpportunity (port : Nat) (s : State) : Out :=
  .next (
    let es := eligibleLeaves s port
    let s1 := accrueMin port es (activate port es s)
    match pickSub s1 port es with
    | none => s1
    | some (sub, minTier) =>
      match pickLeaf s1 port sub es with
      | none => s1
      | some e => panicUpdate port (sendItem port e.item (countServed sub minTier (charge port minTier e s1))))

/-- Does a delayable packet of a node wait at a port: in a leaf, as a delayed request, or as a delayed job (R340,
R344)? -/
def nodeWaits (s : State) (port sub svc : Nat) : Bool :=
  let p := getSched s port
  let mine (v : Nat) : Bool := svc == 4 || v == svc
  (smGet sub0 sub p.subs).svcs.any (fun v => mine v.1 && v.2.leaf.any (delayable s)) ||
  p.delayed.any (fun d => d.1 == sub && mine d.2.1) ||
  s.work.jobs.any (fun e => e.2.phase == .sealed && e.2.delayed && e.2.part == sub && mine (dSvc e.2.desc))

/-- SHAPING_CREDIT_ACCRUAL (R340): one step of 1/256 packet of a node's credit; `svc` 4 is the subscriber node. -/
def execShapingCreditAccrual (port sub svc : Nat) (s : State) : Out :=
  .next (
    let r := shapeOf s sub svc (portKind port)
    if r.1 = 0 ∨ nodeWaits s port sub svc = false then s
    else
      let cap : Int := (r.2 * 256 : Nat)
      let s1 := updSched port (fun p => { p with subs := smUpd sub0 sub (fun b =>
        if svc = 4 then { b with credit := min (b.credit + 1) cap }
        else { b with svcs := smUpd svc0 svc (fun v => { v with credit := min (v.credit + 1) cap }) b.svcs }) p.subs }) s
      if portKind port = 2 then retryDelayed port s1 else s1)

/-- A write of SCH_SUB_MIN (R342). -/
def opSubMin (sub v : Nat) (s : State) : Status × State :=
  let others := ((List.range 65).filter (· != sub)).map (fun x => obj s 0x2501 (x + 1))
  if 64 < sub ∨ 65535 < v then (.errFormat, s)
  else if 1024 < others.foldl (· + ·) 0 + v then (.errPermission, s)
  else (.ok, setObj 0x2501 (sub + 1) v s)

/-- SCH_SUB_MIN_WRITE (R342). -/
def execSchSubMinWrite (sub value : Nat) (s : State) : Out := .next (answerFm 0x2501 (sub + 1) (opSubMin sub value s))

/-- The scheduled ports (R336): 0-13 Narlin, 16-19 CXL, 32-63 memory-channel groups. -/
def schedPorts : List Nat := List.range 14 ++ (List.range 4).map (· + 16) ++ (List.range 32).map (· + 32)

/-- Change the shaping credits of a partition's nodes at every port, by the node's CAP there in 1/256 packet. -/
def mapCredits (p : Nat) (f : Int → Int → Int) (s : State) : State :=
  schedPorts.foldl (fun s port =>
    let cap (svc : Nat) : Int := ((shapeOf s p svc (portKind port)).2 * 256 : Nat)
    updSched port (fun x => { x with subs := smUpd sub0 p (fun b => { b with
      credit := f (cap 4) b.credit
      svcs := (List.range 4).foldl (fun m v => smUpd svc0 v (fun n => { n with credit := f (cap v) n.credit }) m) b.svcs }) x.subs }) s) s

/-- The nodes of a partition after its reset: leaves empty of what the reset ends, mc 0, credits at their CAP (R349). -/
def resetNodes (p : Nat) (s : State) : State :=
  mapCredits p (fun cap _ => cap)
    { s with sched := s.sched.map (fun e => (e.1, { e.2 with subs := e.2.subs.map (fun b =>
        if b.1 != p then b else (b.1, { b.2 with mc := 0, svcs := b.2.svcs.map (fun v => (v.1, { v.2 with leaf := [] })) })) })) }

/-- A shape has been written: a credit above the new CAP falls to it (R342). -/
def capCredits (p : Nat) (s : State) : State := mapCredits p (fun cap c => if cap = 0 then c else min c cap) s

end Sys2Proof.Machine
end

