-- ==== Sys2Proof/Machine/Buddy.lean ====
section
/-!
DEFINITION. The buddy pair (spec/18 R390-R400; spec/03 R80): leases, mirror cells received, the commit cycle, takeover,
return, handover, records that differ; the spare tile command (R387).
-/
namespace Sys2Proof.Machine

/-! ## Roles -/

/-- A role: 1 the own, 2 the buddy's (Table 18-4). -/
def getRole (s : State) (r : Nat) : RoleSt := if r = 1 then s.buddy.own else s.buddy.other

def updRole (r : Nat) (f : RoleSt → RoleSt) (s : State) : State :=
  if r = 1 then { s with buddy := { s.buddy with own := f s.buddy.own } }
  else { s with buddy := { s.buddy with other := f s.buddy.other } }

def updMirror (f : MirrorSt → MirrorSt) (s : State) : State := { s with buddy := { s.buddy with mirror := f s.buddy.mirror } }

/-- The 24-byte lease body (Table 20-4; log entry 29). -/
def leaseBody (r epoch ptime : Nat) : Bytes :=
  leBytes 1 r ++ zeros 3 ++ leBytes 4 epoch ++ leBytes 6 (Config.serial.toNat % 2 ^ 48) ++ zeros 2 ++ leBytes 8 ptime

/-- The body of a ROLE cell: OP, role (0 the sender's own, 1 the receiver's own), LEASE_EPOCH (Table 18-3). -/
def roleCell (op r epoch : Nat) : Bytes := leBytes 1 op ++ leBytes 1 (r - 1) ++ leBytes 4 epoch

/-- Send a lease message of a WOP type for a role. -/
def sendLease (type r : Nat) (s : State) : State := sendWop type 0 0 0 0xFF (leaseBody r (getRole s r).epoch s.ptime) s

/-- ROLE_RELEASE over WOP and as a mirror cell, for every role held (R393, R404). -/
def releaseRoles (s : State) : State :=
  [1, 2].foldl (fun s r =>
    if (getRole s r).code = 1 then mirrorPush 6 (roleCell 4 r (getRole s r).epoch) (sendLease 0x0A r s) else s) s

/-! ## The lease (R391, R392) -/

/-- Return or take back CXL.mem credit on every port. -/
def holdCredit (b : Bool) (s : State) : State := { s with cxl := { s.cxl with creditHeld := if b then 15 else 0 } }

/-- LEASE_RENEW of a held role; after a handover the release goes with it, and the module is standby (R391, R399). -/
def execLeaseRenewTimer (role : Nat) (s : State) : Out :=
  .next (if (role ≠ 1 ∧ role ≠ 2) ∨ (getRole s role).code ≠ 1 then s
    else
      let s1 := sendLease 0x08 role s
      if (getRole s role).handing then
        holdCredit (!s.ready) (updRole role (fun x => { x with code := 2, handing := false, peerSynced := false }) (sendLease 0x0A role s1))
      else s1)

/-- Every copied line of the buddy's role whose HSTATE is 0b11 gets HINT 31 (R80). -/
def forgetCopyVectors (s : State) : State :=
  updMirror (fun m => { m with copy := m.copy.map (fun e =>
    if tagHstate e.2.1 = 3 then (e.1, mkTag (tagPoison e.2.1) 3 31, e.2.2) else e) }) s

/-- A standby that is synced takes a role on a grant (R80, R393, R399). The hosts of a module-loss event come from the
mirrored region map, whose record the spec does not lay out: the mask is a free value (log entry 11). -/
def takeover (r epoch sent : Nat) (s : State) : State :=
  let announced := (getRole s r).released
  let s1 := bump 0x3803 2 (updRole r (fun x => { x with
    code := 1, epoch := epoch, granted := sent, late := false, released := false, peerSynced := false }) s)
  if r = 1 then raiseEvent 0x0061 (leBytes 1 r ++ leBytes 4 epoch) s1
  else
    let s2 := forgetCopyVectors s1
    if announced then s2
    else
      let f := takeFree s2
      raiseEvent 0x0012 (leBytes 4 f.1.toNat) f.2

/-- LEASE_GRANT: a renewal, the end of grace, the way back from DEMOTED with the same epoch, a first grant of the own
role, or a takeover (R391-R393). -/
def execLeaseGrant (role epoch sent : Nat) (s : State) : Out :=
  .next (
    let x := getRole s role
    let fresh (s : State) : State :=
      updRole role (fun y => { y with code := 1, epoch := epoch, granted := sent, late := false }) s
    if (role ≠ 1 ∧ role ≠ 2) ∨ 2 ^ 32 ≤ epoch ∨ s.ptime < sent then s
    else if x.code = 1 then
      (if laterW 32 x.epoch epoch then s
       else updRole role (fun y => { y with epoch := epoch, granted := max y.granted sent, late := false }) s)
    else if x.code = 5 then (if epoch = x.epoch then fresh s else s)
    else if x.code = 2 then (if laterW 32 x.epoch epoch then s else takeover role epoch sent s)
    else if x.code = 6 ∧ role = 1 then fresh s
    else s)

/-- The lease runs out: grace (R391). -/
def execLeaseExpiry (role : Nat) (s : State) : Out :=
  .next (
    let x := getRole s role
    if (role ≠ 1 ∧ role ≠ 2) ∨ x.code ≠ 1 ∨ x.late = true ∨ s.ptime < x.granted + 10000000 then s
    else raiseEvent 0x0064 (leBytes 1 role ++ leBytes 4 x.epoch) (updRole role (fun y => { y with late := true }) s))

/-- Three lease periods without a grant: the holder demotes itself (R392). -/
def execLeaseDemotion (role : Nat) (s : State) : Out :=
  .next (
    let x := getRole s role
    if (role ≠ 1 ∧ role ≠ 2) ∨ x.code ≠ 1 ∨ s.ptime < x.granted + 30000000 then s
    else
      bump 0x3803 1 (raiseEvent 0x0060 (leBytes 1 role ++ leBytes 4 x.epoch)
        (updRole role (fun y => { y with code := 5, late := false, handing := false, peerSynced := false }) s)))

/-! ## The commit cycle as the holder (R395, R399) -/

/-- Records of a role changed by a cycle, each with its EPOCH raised. -/
def changeRecs (recs : List (Nat × Bytes)) (m : SMap MetaRec) : SMap MetaRec :=
  recs.foldl (fun m e => smPut (e.1 % 65536) { epoch := ((smGet { epoch := 0, data := [] } (e.1 % 65536) m).epoch + 1) % 2 ^ 64, data := slice e.2 0 (min e.2.length 65535) } m) m

/-- The handover at a commit boundary: the standby is synced, this module is not the role's home, nothing waits (R399). -/
def handOver (r : Nat) (s : State) : State :=
  let x := getRole s r
  if x.peerSynced && !x.handing && obj s 0x2800 r == 0 && s.hosts.waiting.isEmpty && s.buddy.mirror.held.isEmpty then
    holdCredit true (updRole r (fun y => { y with handing := true }) (mirrorPush 6 (roleCell 3 r x.epoch) s))
  else s

/-- COMMIT_CYCLE of a held role: the metadata records that have changed go out with their COMMIT (R395). -/
def execCommitCycle (role : Nat) (recs : List (Nat × Bytes)) (s : State) : Out :=
  .next (
    let x := getRole s role
    if (role ≠ 1 ∧ role ≠ 2) ∨ x.code ≠ 1 then s
    else
      let old := if role = 1 then s.buddy.ownRecs else s.buddy.otherRecs
      let new := changeRecs recs old
      let nums := recs.map (fun e => e.1 % 65536)
      let s1 := if role = 1 then { s with buddy := { s.buddy with ownRecs := new } }
                else { s with buddy := { s.buddy with otherRecs := new } }
      let out := new.filter (fun e => nums.contains e.1 || (role == 1 && s.buddy.changed.contains e.1))
      if s.buddy.mirror.simplex || !s.buddy.mirror.up then
        (if role = 1 then { s1 with buddy := { s1.buddy with changed := (s.buddy.changed ++ nums).eraseDups } } else s1)
      else handOver role (sendCycle x.epoch out s1))

/-! ## Mirror cells received (R394, R395) -/

def mcType (c : Bytes) : Nat := leAt c 0 1
def mcHold (c : Bytes) : Bool := bitOf (leAt c 1 1) 0
def mcSeq (c : Bytes) : Nat := leAt c 2 2
def mcAck (c : Bytes) : Nat := leAt c 4 2
def mcBody (c : Bytes) : Bytes := slice c 6 22

/-- Complete the held duplex writes that a test picks (R80, R395). -/
def completeHeld (f : HeldWrite → Bool) (s : State) : State :=
  let done := s.buddy.mirror.held.filter f
  let s1 := updMirror (fun m => { m with held := m.held.filter (fun w => !f w) }) s
  done.foldl (fun s w => deliverReply w.reply w.op ⟨w.status, w.data⟩ s) s1

/-- The MACK of a received cell: acknowledged cells leave the replay buffer, their writes complete. -/
def takeMack (ack : Nat) (s : State) : State :=
  if laterW 16 ack (s.buddy.mirror.acked) then
    mirrorPump (completeHeld (fun w => !laterW 16 w.mseq ack)
      (updMirror (fun m => { m with acked := ack, replay := m.replay.filter (fun e => laterW 16 e.1 ack) }) s))
  else s

/-- An IDLE cell with the present MACK (log entry 30). -/
def mirrorIdle (s : State) : State := sendMirror (mirrorCellBytes 0 0 s.buddy.mirror.mack (zeros 22)) s

/-- Does the module receive the copy of its own role: it is standby for it? -/
def forOwn (s : State) : Bool := s.buddy.own.code == 2 || s.buddy.own.code == 3

/-- The standby state once mirror cells of a role arrive: NONE becomes SYNCING (log entry 31). -/
def noteStandby (s : State) : State :=
  if forOwn s then s
  else if s.buddy.other.code = 6 then updRole 2 (fun x => { x with code := 3 }) s else s

/-- Does the module accept lines of the role that the cells carry (Table 18-2)? -/
def acceptsLines (s : State) (resync : Bool) : Bool :=
  forOwn s || s.buddy.other.code == 2 || s.buddy.other.code == 3 || (resync && s.buddy.other.code == 4)

/-- Apply a line to the copy it belongs to. -/
def applyLine (pa tag : Nat) (data : Bytes) (s : State) : State :=
  if forOwn s then wake (invalidateGranule (pa / 64) (writeLine (pa / 64) (slice data 0 64) tag s))
  else updMirror (fun m => { m with copy := smPut (pa / 64) (tag, slice data 0 64) m.copy }) s

/-- Two copies of a record compared (R397): the one to keep, or none where the record freezes. -/
def mergeRec (a b : MetaRec) : Option MetaRec :=
  if a.epoch > b.epoch then some a else if b.epoch > a.epoch then some b
  else if a.data = b.data then some a else none

/-- A divergence fault: the event, DIVERGENCE_LAST with both copies, the count (R397). -/
def divergence (num epoch : Nat) (mine theirs : Bytes) (s : State) : State :=
  let d := leBytes 8 s.ptime ++ leBytes 2 num ++ leBytes 8 epoch ++ slice mine 0 48 ++ slice theirs 0 48
  bump 0x3803 3 (raiseEvent 0x0062 (leBytes 2 num ++ leBytes 8 epoch) (setObj 0x3805 0 (leAt d 0 128) s))

/-- A record freezes (R397). -/
def freezeRec (num : Nat) (mine theirs : MetaRec) (s : State) : State :=
  divergence num mine.epoch mine.data theirs.data { s with buddy := { s.buddy with frozen := smPut num theirs s.buddy.frozen } }

/-- Apply one record of a cycle: of the own role, compared with the record held (R397); of the buddy's, in its place. -/
def applyRec (num : Nat) (r : MetaRec) (s : State) : State :=
  if !forOwn s then { s with buddy := { s.buddy with otherRecs := smPut num r s.buddy.otherRecs } }
  else
    match smFind? num s.buddy.ownRecs with
    | none => { s with buddy := { s.buddy with ownRecs := smPut num r s.buddy.ownRecs } }
    | some m =>
      match mergeRec m r with
      | some k => { s with buddy := { s.buddy with ownRecs := smPut num k s.buddy.ownRecs } }
      | none => freezeRec num m r s

/-- The images of a cycle's records, by record. -/
def cycleImages (metas : List (Nat × Nat × Bytes)) : List (Nat × Bytes) :=
  ((metas.map (·.1)).eraseDups).map (fun n => (n, ((metas.filter (fun x => x.1 == n)).map (fun x => x.2.2)).flatten))

/-- A COMMIT (R395): the cycle is applied at once, or discarded, and then comes again from its start. -/
def takeCommit (body : Bytes) (s : State) : State :=
  let m := s.buddy.mirror
  let role := if forOwn s then 1 else 2
  let epoch := leAt body 8 4
  if crc32 ((m.metas.map (fun x => x.2.2)).flatten) = leAt body 12 4 ∧ laterW 32 (getRole s role).epoch epoch = false then
    let s1 := (cycleImages m.metas).foldl (fun s e =>
      match recOfImage e.2 with
      | some r => applyRec e.1 r s
      | none => s) s
    updRole role (fun x => { x with epoch := epoch }) (updMirror (fun m => { m with metas := [], cycle := leAt body 0 8 % 2 ^ 48 }) s1)
  else updMirror (fun m => { m with metas := [], accepted := m.mack, recover := true }) s

/-- A READY, SYNCED, HANDOVER or RELEASE for a role as this module counts it: the sender's own role is the buddy's. -/
def takeRole (op r : Nat) (s : State) : State :=
  match op with
  | 1 =>
    if (getRole s r).code ≠ 1 then s
    else
      let s1 := updRole r (fun x => { x with peerSynced := false }) s
      if r = 1 then startResync s1 else startHomecoming s1
  | 2 => if (getRole s r).code = 1 then updRole r (fun x => { x with peerSynced := true }) s else s
  | _ => if (getRole s r).code = 1 then s else updRole r (fun x => { x with released := true }) s

/-- What an accepted cell does, by its CTYPE. -/
def mirrorAct (c : Bytes) (s : State) : State :=
  let b := mcBody c
  match mcType c with
  | 1 => updMirror (fun m => { m with asm := some { resync := false, pa := leAt b 0 5, tag := leAt b 5 1, data := slice b 8 14 } }) (noteStandby s)
  | 7 => updMirror (fun m => { m with asm := some { resync := true, pa := leAt b 0 5, tag := leAt b 5 1, data := slice b 8 14 } }) (noteStandby s)
  | 2 =>
    match s.buddy.mirror.asm with
    | none => s
    | some a =>
      let d := a.data ++ b
      if 64 ≤ d.length then
        let s1 := updMirror (fun m => { m with asm := none }) s
        if acceptsLines s1 a.resync then applyLine a.pa a.tag d s1 else s1
      else updMirror (fun m => { m with asm := some { a with data := d } }) s
  | 3 =>
    let line := leAt b 0 5 / 64
    if !acceptsLines s false then s
    else if forOwn s then
      match peekLine s line with
      | some (d, _) => applyLine (line * 64) (leAt b 5 1) d s
      | none => s
    else
      match smFind? line s.buddy.mirror.copy with
      | some (_, d) => applyLine (line * 64) (leAt b 5 1) d s
      | none => applyLine (line * 64) (leAt b 5 1) (zeros 64) s
  | 4 => updMirror (fun m => { m with metas := m.metas ++ [(leAt b 0 2, leAt b 2 2, slice b 4 18)] }) (noteStandby s)
  | 5 => takeCommit b s
  | 6 => takeRole (leAt b 0 1) (if leAt b 1 1 = 0 then 2 else 1) s
  | _ => s

/-- MACK covers what has been applied: no line half assembled, no META waiting for its COMMIT (R394). -/
def advanceMack (s : State) : State :=
  updMirror (fun m => if m.asm.isNone && m.metas.isEmpty then { m with mack := m.accepted } else m) s

/-- A received cell: CRC, HOLD, MACK; the next in sequence is accepted and acted on, any other is not (R394, R293, R296). -/
def mirrorTake (ctype : Nat) (c : Bytes) (s : State) : State :=
  if crc32 (slice c 0 28) ≠ leAt c 28 4 ∨ (mcType c ≠ ctype ∧ mcType c ≠ 0) then s
  else
    let s1 := takeMack (mcAck c) (updMirror (fun m => { m with peerHold := mcHold c }) s)
    let s2 := mirrorPump s1
    if mcType c = 0 then s2
    else if mcSeq c ≠ (s2.buddy.mirror.accepted + 1) % 65536 then
      mirrorIdle (if laterW 16 (mcSeq c) s2.buddy.mirror.accepted then updMirror (fun m => { m with recover := true }) s2 else s2)
    else
      mirrorIdle (advanceMack (mirrorAct c (updMirror (fun m => { m with accepted := mcSeq c, recover := false }) s2)))

/-- What the mirror port's lanes decide in a cell time, as the cell and the lanes after it (R283). -/
def cellReceived (rx : Decided) (s : State) : Bytes × LaneSt := unitReceived 14 32 (getLane s 14) rx

/-- A cell time received on the mirror port; `op` is the OP that a ROLE cell is to have. -/
def mirrorReceive (ctype : Nat) (op : Option Nat) (rx : Decided) (s : State) : State :=
  let u := cellReceived rx s
  let fits : Bool := match op with | some n => mcType u.1 != 6 || leAt (mcBody u.1) 0 1 == n | none => true
  if s.buddy.mirror.up = true ∧ fits = true then mirrorTake ctype u.1 (updLane 14 (fun _ => u.2) s) else s

/-- LINE_HEAD (R394). -/
def execLineHead (rx : Decided) (s : State) : Out := .next (mirrorReceive 1 none rx s)
/-- LINE_DATA (R394). -/
def execLineData (rx : Decided) (s : State) : Out := .next (mirrorReceive 2 none rx s)
/-- TAG_ONLY (R394). -/
def execTagOnly (rx : Decided) (s : State) : Out := .next (mirrorReceive 3 none rx s)
/-- META (R394). -/
def execMetaCell (rx : Decided) (s : State) : Out := .next (mirrorReceive 4 none rx s)
/-- COMMIT (R395). -/
def execCommitCell (rx : Decided) (s : State) : Out := .next (mirrorReceive 5 none rx s)
/-- RESYNC_HEAD (R398). -/
def execResyncHead (rx : Decided) (s : State) : Out := .next (mirrorReceive 7 none rx s)
/-- ROLE READY (R398). -/
def execRoleReady (rx : Decided) (s : State) : Out := .next (mirrorReceive 6 (some 1) rx s)
/-- ROLE SYNCED (R399). -/
def execRoleSynced (rx : Decided) (s : State) : Out := .next (mirrorReceive 6 (some 2) rx s)
/-- ROLE HANDOVER (R399). -/
def execRoleHandover (rx : Decided) (s : State) : Out := .next (mirrorReceive 6 (some 3) rx s)
/-- ROLE RELEASE (R393). -/
def execRoleRelease (rx : Decided) (s : State) : Out := .next (mirrorReceive 6 (some 4) rx s)

/-- The resynchronisation copy of a role ends: at the holder it has been sent; the standby is synced and says so (R398). -/
def execResyncCopyEnd (role : Nat) (s : State) : Out :=
  .next (
    let x := getRole s role
    if role ≠ 1 ∧ role ≠ 2 then s
    else if x.code = 1 then (if s.buddy.mirror.queue.isEmpty then updMirror (fun m => { m with resync := none }) s else s)
    else if x.code = 3 ∨ x.code = 4 then mirrorPush 6 (roleCell 2 role x.epoch) (updRole role (fun y => { y with code := 2 }) s)
    else s)

/-! ## SIMPLEX, DUPLEX, swap, divergence (R396, R397, R400) -/

/-- A SIMPLEX or DUPLEX for a role, answered with a RESPONSE (R396). -/
def simplexMsg (role epoch : Nat) (f : State → State) (s : State) : State :=
  if (role = 1 ∨ role = 2) ∧ (getRole s role).code = 1 ∧ (getRole s role).epoch = epoch then
    sendWop 3 (statusCode .ok) 0 0 0xFF [] (f s)
  else sendWop 3 (statusCode .errPermission) 0 0 0xFF [] s

/-- SIMPLEX: the held writes complete without mirroring (R395, R396). -/
def execSimplex (role epoch : Nat) (s : State) : Out :=
  .next (simplexMsg role epoch (fun s =>
    completeHeld (fun _ => true) (updRole role (fun x => { x with peerSynced := false })
      (updMirror (fun m => { m with simplex := true, resync := none }) s))) s)

/-- DUPLEX: mirroring again, and the resynchronisation once the port is UP (R396, R398). -/
def execDuplex (role epoch : Nat) (s : State) : Out :=
  .next (simplexMsg role epoch (fun s =>
    let s1 := updMirror (fun m => { m with simplex := false }) s
    if s1.buddy.mirror.up then (if role = 1 then startResync s1 else startHomecoming s1) else s1) s)

/-- A write of ROLE_SWAP_CMD (R400). -/
def opRoleSwap (v : Nat) (s : State) : Status × State :=
  if v ≠ 1 ∧ v ≠ 2 then (.errFormat, s)
  else if (getRole s v).code = 1 ∧ (getRole s v).peerSynced = true then (.ok, setObj 0x2800 v 0 s)
  else (.errPermission, s)

/-- ROLE_SWAP_CMD is written. -/
def execRoleSwapCmd (value : Nat) (s : State) : Out := .next (answerFm 0x2801 0 (opRoleSwap value s))

/-! ## RWS objects in MRAM (R397, R438) -/

/-- The partition, index and sub-index of an object's key. -/
def objOfKey (k : Nat) : Nat × Nat × Nat := (k / 2 ^ 24, (k % 2 ^ 24) / 256, k % 256)

/-- Does the key belong to an object of an access class? -/
def keyHas (c : ObjKind) (k : Nat) : Bool := objIs c (objOfKey k).2.1 (objOfKey k).2.2

/-- What MRAM's two copies of a record give (R397): nothing, when neither checks; the value to take; or a conflict. -/
inductive MramChoice where
  | lost
  | value (v : Nat)
  | conflict
deriving DecidableEq, Repr

/-- Compare the two copies of an RWS object (R397, R438): a copy that does not check is discarded, the higher EPOCH wins, and
two that differ under one EPOCH are in conflict. -/
def mramChoice (s : State) (p i u : Nat) : MramChoice :=
  let a := mramCopy p i u s.mram.copyA
  let b := mramCopy p i u s.mram.copyB
  let sound (c : MramCopy) : Bool := c.crc == mramCrc (objWidth i u) c.epoch c.value
  match sound a, sound b with
  | false, false => .lost
  | true, false => .value a.value
  | false, true => .value b.value
  | true, true =>
    if a.epoch > b.epoch then .value a.value else if b.epoch > a.epoch then .value b.value
    else if a.value = b.value then .value a.value else .conflict

/-- The keys of the RWS objects that MRAM lists. -/
def rwsKeys (s : State) : List Nat :=
  ((s.mram.copyA.map (·.1) ++ s.mram.copyB.map (·.1)).eraseDups).filter (fun k => keyHas .rws k || keyHas .counterRws k)

/-- Keep one of the two copies of an RWS object whose copies conflict: the second of KEEP 1 (log entry 114). -/
def resolveRws (second : Bool) (k : Nat) (s : State) : State :=
  let (p, i, u) := objOfKey k
  let v := (mramCopy p i u (if second then s.mram.copyB else s.mram.copyA)).value
  { s with objs := smSet (objDefault i u) k v s.objs, mram := commitRws p i u v s.mram }

/-- The RWS objects of an index that are frozen. -/
def rwsFrozen (s : State) (index : Nat) : List Nat :=
  (rwsKeys s).filter (fun k => (objOfKey k).2.1 == index && mramChoice s (objOfKey k).1 (objOfKey k).2.1 (objOfKey k).2.2 == .conflict)

/-- A write of DIVERGENCE_RESOLVE (R397). -/
def opDivergence (v : Nat) (s : State) : Status × State :=
  if field v 30 16 ≠ 0 then (.errFormat, s)
  else
    match smFind? (v % 65536) s.buddy.frozen with
    | none =>
      if rwsFrozen s (v % 65536) = [] then (.errPermission, s)
      else (.ok, (rwsFrozen s (v % 65536)).foldl (fun s k => resolveRws (bitOf v 31) k s) s)
    | some theirs =>
      (.ok, { s with buddy := { s.buddy with
        frozen := smErase (v % 65536) s.buddy.frozen
        ownRecs := if bitOf v 31 then smPut (v % 65536) theirs s.buddy.ownRecs else s.buddy.ownRecs } })

/-- DIVERGENCE_RESOLVE is written. -/
def execDivergenceResolve (value : Nat) (s : State) : Out := .next (answerFm 0x2803 0 (opDivergence value s))

/-! ## The spare tile command (R387) -/

/-- A write of SPARE_TILE_CMD: a healthy tile leaves the domain and is cleared before a spare takes its number. -/
def opSpareTile (t : Nat) (s : State) : Status × State :=
  if geomTiles s ≤ t then (.errPermission, s)
  else if tileState s t = 0 then
    (.ok, setObj 0x3601 (t + 1) 1 (leaveDomain t (updTile t (fun x => { x with replace := true }) s)))
  else if tileState s t = 1 then (.ok, updTile t (fun x => { x with replace := true }) s)
  else (.ok, spareTile t s)

/-- SPARE_TILE_CMD is written. -/
def execSpareTileCmd (tile : Nat) (s : State) : Out := .next (answerFm 0x2802 0 (opSpareTile tile s))

end Sys2Proof.Machine
end

