-- ==== Sys2Proof/Machine/Fec.lean ====
section
/-!
DEFINITION. The flit's forward error correction (spec/13 R286): the singly extended Reed-Solomon code RS(256,240) over
the field of R97, its parity, and a decoder that corrects any error of at most 8 bytes.
-/
namespace Sys2Proof.Machine

/-- The inverse in GF(2^8): a to the power 254. -/
def gfInv (a : Byte) : Byte :=
  let a2 := gfMul a a
  let a4 := gfMul a2 a2
  let a8 := gfMul a4 a4
  let a16 := gfMul a8 a8
  let a32 := gfMul a16 a16
  let a64 := gfMul a32 a32
  gfMul (gfMul (gfMul a64 a64) (gfMul a64 a32)) (gfMul (gfMul a16 a8) (gfMul a4 a2))

/-- g(x) = (x + a)(x + a^2)...(x + a^15), the coefficient of the highest power first. -/
def flitGen : List Byte :=
  (List.range 15).foldl (fun g i =>
    let r := gfPow (i + 1)
    (List.zipWith (· ^^^ ·) (g ++ [0]) (0 :: g.map (gfMul r)))) [1]

/-- The 15 parity bytes of 240 message bytes, the coefficient of x^14 first. -/
def flitParity (msg : Bytes) : Bytes :=
  let g := flitGen.drop 1
  msg.foldl (fun reg m =>
    let f := m ^^^ reg.getD 0 0
    if f = 0 then reg.drop 1 ++ [0] else List.zipWith (fun r c => r ^^^ gfMul f c) (reg.drop 1 ++ [0]) g) (zeros 15)

/-- The exclusive or of bytes. -/
def xorAll (bs : Bytes) : Byte := bs.foldl (· ^^^ ·) 0

/-- The 256 bytes of a flit from its first 240: parity and the extension symbol. -/
def flitEncode (msg : Bytes) : Bytes :=
  let m := slice msg 0 240
  let w := m ++ flitParity m
  w ++ [xorAll w]

/-! ## Decoding -/

/-- The value of a polynomial, the constant term first. -/
def polyAt (p : List Byte) (x : Byte) : Byte := p.foldr (fun c acc => gfMul acc x ^^^ c) 0

/-- p + f * x^m * b, polynomials with the constant term first. -/
def polyAddShift (p b : List Byte) (f : Byte) (m : Nat) : List Byte :=
  let t := List.replicate m 0 ++ b.map (gfMul f)
  (List.range (max p.length t.length)).map (fun i => p.getD i 0 ^^^ t.getD i 0)

/-- Berlekamp-Massey over syndromes: the error locator, the constant term first, and its formal length. -/
def locatorOf (syn : List Byte) : List Byte × Nat :=
  let r := (List.range syn.length).foldl (fun (st : List Byte × List Byte × Nat × Nat × Byte) n =>
    let (c, b, l, m, bb) := st
    let d := (List.range (l + 1)).foldl (fun acc i => acc ^^^ gfMul (c.getD i 0) (if i ≤ n then syn.getD (n - i) 0 else 0)) 0
    if d = 0 then (c, b, l, m + 1, bb)
    else
      let c2 := polyAddShift c b (gfMul d (gfInv bb)) m
      if 2 * l ≤ n then (c2, c, n + 1 - l, 1, d) else (c2, b, l, m + 1, bb)) ([1], [1], 0, 1, 1)
  (r.1, r.2.2.1)

/-- The exponents below 255 that are error places by a locator: its value at a^(-e) is 0. -/
def errorPlaces (loc : List Byte) : List Nat := (List.range 255).filter (fun e => polyAt loc (gfPow ((255 - e) % 255)) == 0)

/-- The errors (exponent, value) that syndromes of powers `b0`, `b0` + 1, ... name, when they are at most `t` (Forney). -/
def errorsOf (b0 t : Nat) (syn : List Byte) : Option (List (Nat × Byte)) :=
  let r := locatorOf syn
  let es := errorPlaces r.1
  if t < r.2 ∨ es.length ≠ r.2 then none
  else
    let om := (List.range syn.length).map (fun i =>
      (List.range (i + 1)).foldl (fun acc j => acc ^^^ gfMul (r.1.getD j 0) (syn.getD (i - j) 0)) 0)
    let der := (List.range r.1.length).map (fun i => if i % 2 = 0 then r.1.getD (i + 1) 0 else 0)
    some (es.map (fun e =>
      let xi := gfPow ((255 - e) % 255)
      let v := gfMul (polyAt om xi) (gfInv (polyAt der xi))
      (e, if b0 = 0 then gfMul v (gfPow e) else v)))

/-- The 255 code bytes with errors taken out; exponent e is byte 254 - e. -/
def fixErrors (w : Bytes) (es : List (Nat × Byte)) : Bytes := es.foldl (fun w x => w.modify (254 - x.1) (· ^^^ x.2)) w

/-- The syndromes at a^`b0`, ... of 255 code bytes. -/
def flitSyndromes (b0 n : Nat) (w : Bytes) : List Byte := (List.range n).map (fun i => gfEval (gfPow (b0 + i)) w)

/-- Is a 256-byte word one of the code? -/
def flitCode (w : Bytes) : Bool := w == flitEncode (w.take 240)

/-- Decode 256 received bytes: the codeword within 8 bytes of them and the places that differ, or none (R286). -/
def flitDecode (w : Bytes) : Option (Bytes × List Nat) :=
  if flitCode w then some (w, [])
  else
    let body := w.take 255
    let ext := w.getD 255 0
    let try_ (es : Option (List (Nat × Byte))) : Option (Bytes × List Nat) :=
      match es with
      | none => none
      | some es =>
        let c := fixErrors body es
        let full := c ++ [xorAll c]
        let at_ : List Nat := es.map (fun e => 254 - e.1) ++ (if xorAll c = ext then [] else [255])
        if flitCode full && decide (at_.length ≤ 8) then some (full, at_) else none
    match try_ (errorsOf 1 7 (flitSyndromes 1 15 body)) with
    | some r => some r
    | none => try_ (errorsOf 0 8 ((xorAll body ^^^ ext) :: flitSyndromes 1 15 body))

end Sys2Proof.Machine
end

