-- ==== Sys2Proof/Machine/LinkOps.lean ====
section
/-!
DEFINITION. The link layer of a Narlin port (spec/13): flits and their control field, framing of packets, replay, the
link going down.
-/
namespace Sys2Proof.Machine

/-! ## LCTL and flits (Tables 13-1, 13-2) -/

/-- The fields of LCTL that this model sends and takes. -/
structure Lctl where
  fseq : Nat
  ack : Nat
  ftype : Nat
  nak : Bool
  crTc : Nat
  crHdr : Nat
  crData : Nat
  laneOp : Nat
  laneArg : Nat
  initSeen : Bool
  pstart : Nat
deriving DecidableEq, Repr

def lctlBytes (c : Lctl) : Bytes :=
  leBytes 12 (c.fseq % 4096 + (c.ack % 4096) * 2 ^ 12 + (c.ftype % 8) * 2 ^ 24 + b2n c.nak * 2 ^ 27 +
    (c.crTc % 4) * 2 ^ 28 + (c.crHdr % 4096) * 2 ^ 32 + (c.crData % 65536) * 2 ^ 44 + (c.laneOp % 16) * 2 ^ 60 +
    (c.laneArg % 8) * 2 ^ 64 + b2n c.initSeen * 2 ^ 67 + (c.pstart % 2 ^ 14) * 2 ^ 68)

/-- LCTL from its bytes; none when an rsvd bit is 1, or FTYPE or LANE_OP is rsvd (R288). -/
def lctlOf (b : Bytes) : Option Lctl :=
  let v := leAt b 0 12
  if field v 31 30 ≠ 0 ∨ field v 95 82 ≠ 0 ∨ 2 < field v 26 24 ∨ 4 < field v 63 60 then none
  else some { fseq := field v 11 0, ack := field v 23 12, ftype := field v 26 24, nak := bitOf v 27,
              crTc := field v 29 28, crHdr := field v 43 32, crData := field v 59 44, laneOp := field v 63 60,
              laneArg := field v 66 64, initSeen := bitOf v 67, pstart := field v 81 68 }

/-- The 256 bytes of a flit from payload and LCTL (R285-R287). -/
def flitBytes (payload : Bytes) (c : Lctl) : Bytes :=
  let b := slice payload 0 224 ++ lctlBytes c
  flitEncode (b ++ leBytes 4 (crc32 b))

/-- The control field a port now sends, for a flit type, sequence number and PSTART (R290, R300). -/
def lctlNow (k : LinkSt) (ftype fseq pstart : Nat) : Lctl :=
  { fseq := fseq, ack := k.ack, ftype := ftype, nak := k.nakDue, crTc := k.crTc
    crHdr := smGet 0 (k.crTc * 2) k.freed, crData := smGet 0 (k.crTc * 2 + 1) k.freed
    laneOp := if k.laneLeft = 0 then 0 else k.laneOp, laneArg := if k.laneLeft = 0 then 0 else k.laneArg
    initSeen := k.initSeen && ftype == 2, pstart := pstart }

/-- The payload of an INIT flit: Table 13-3. -/
def initPayload : Bytes :=
  leBytes 2 512 ++ leBytes 2 1024 ++ leBytes 2 512 ++ leBytes 2 4096 ++ leBytes 2 256 ++ leBytes 2 4096 ++
  leBytes 2 256 ++ leBytes 2 256 ++ zeros 208

/-- Send a flit: the next CR_TC is due, a NAK has been sent, a LANE_OP is in one flit more (R290, R293, R300). -/
def sendFlit (port : Nat) (payload : Bytes) (ftype fseq pstart : Nat) (s : State) : State :=
  let k := getLink s port
  let b := flitBytes payload (lctlNow k ftype fseq pstart)
  let y := unitLevels port (getLane s port) b
  let s1 := updLane port (fun _ => y.2) s
  send (.flit port b y.1) (updLink port (fun k => { k with
    crTc := (k.crTc + 1) % 4, nakDue := false, laneLeft := k.laneLeft - 1
    laneOp := if k.laneLeft ≤ 1 then 0 else k.laneOp }) s1)

/-! ## Loopbacks (R281, R282) -/

/-- The data bytes that every lane of a loopback carries in a flit or cell time: none but the scrambler's own PRBS31, or
PATTERN32 repeated (Table 12-7; log entry 112). -/
def loopBytes (port : Nat) (lp : LoopSt) : Bytes :=
  (List.range (if port = 14 then 8 else 32)).map (fun i => if lp.pattern = 1 then (leBytes 4 lp.pattern32).getD (i % 4) 0 else 0)

/-- The bits in which two byte strings differ. -/
def bitErrors (a b : Bytes) : Nat := ((List.zipWith (· != ·) (byteBits a) (byteBits b)).filter id).length

/-- The checkers of a loopback take what is decided on each physical lane: wrong bits count in NL_LOOP_ERRORS. -/
def loopCheck (port : Nat) (lp : LoopSt) (values : Nat → List Nat) (s : State) : State :=
  let l := getLane s port
  let data := loopBytes port lp
  let r := (List.range (lanePhys port)).map (fun p =>
    laneRecv (l.cfg.rate == 1) l.cfg.rxPrecode (l.rxScramble.getD p 0) (l.rxLast.getD p 0) data.length (values p))
  let s1 := updLane port (fun l => { l with rxScramble := r.map (·.2.1), rxLast := r.map (·.2.2) }) s
  (List.range (lanePhys port)).foldl (fun s p => pbump 0 0x3420 (p + 1) (bitErrors (r.getD p ([], 0, 0)).1 data) s) s1

/-- One flit time of a loopback: every lane sends the pattern, which near-end parallel mode takes back before the
serialiser (Table 12-6, R281). -/
def loopTransmit (port : Nat) (s : State) : State :=
  let l := getLane s port
  match l.loop with
  | none => s
  | some lp =>
    if lp.refused then s
    else
      let r := (List.range (lanePhys port)).map (fun p =>
        laneSend (l.cfg.rate == 1) l.cfg.txPrecode (l.scramble.getD p 0) (l.last.getD p 0) (loopBytes port lp))
      let s1 := send (.loopData port ((List.range (lanePhys port)).map (fun p => (p, levels (l.cfg.rate == 1) (r.getD p ([], 0, 0)).1))))
        (updLane port (fun l => { l with scramble := r.map (·.2.1), last := r.map (·.2.2) }) s)
      if lp.mode = 1 then loopCheck port lp (fun p => (r.getD p ([], 0, 0)).1) s1 else s1

/-- One flit time received in a loopback: the checkers take it, and a port in far-end loopback for its peer returns its
decided symbols on its own transmitter (Table 12-6, R281, R282). -/
def loopReceive (port : Nat) (rx : Decided) (s : State) : State :=
  let l := getLane s port
  let values (p : Nat) : List Nat := laneValues l (if port = 14 then 8 else 32) rx p
  match l.loop with
  | some lp => if lp.refused = true ∨ lp.mode = 1 then s else loopCheck port lp values s
  | none => send (.loopData port ((List.range (lanePhys port)).map (fun p => (p, levels (l.cfg.rate == 1) (values p))))) s

/-! ## Link down (R302) -/

/-- The link goes down for a cause the link layer finds. Loss of flit lock takes the port to DETECT at once; every
other cause is followed by 16 flits with RETRAIN_REQ, after which the port goes to DETECT. A substitution under way is
abandoned (R277). -/
def linkFail (port cause : Nat) (s : State) : State :=
  if (getLink s port).state = 0 then s
  else
    let s1 := linkStop port cause (updLane port (fun l => { l with txDup := none, rxReq := none }) s)
    if cause = 8 then startBringup port s1 else sendLaneOp port 4 0 16 s1

/-- The port's endpoint is up again (R291, R304). -/
def linkIsUp (port : Nat) (s : State) : State :=
  retryWaiting (updLink port (fun k => { k with state := 2, rerouted := false }) s)

/-! ## Framing (R289, R299, R300) -/

/-- The first class from `pref` on whose queue's head the port has credits for. -/
def nextClass (s : State) (port pref : Nat) : Option (Nat × Outgoing) :=
  ((List.range 4).map (fun i => (pref + i) % 4)).findSome? (fun tc =>
    match (egressQ s port tc).head? with
    | some o => if creditsFor s port o.unit 0 0 then some (tc, o) else none
    | none => none)

/-- Slots of 16 bytes. -/
def toSlots : Nat → Bytes → List Bytes
  | 0, _ => []
  | n + 1, b => slice b 0 16 :: toSlots n (b.drop 16)

def unitSlots (u : NlUnit) : List Bytes :=
  let b := unitBytes u
  toSlots (b.length / 16) b

/-- Fill `n` slots from slot `i` on: the rest of the packet being framed, then the packets the port has credits for, in
the class order that `pick` gives for each of them, then pad slots. -/
def fillSlots (port : Nat) : Nat → Nat → Nat → Bytes → Nat → List Outgoing → State → Bytes × Nat × List Outgoing × State
  | 0, _, _, acc, ps, us, s => (acc, ps, us, s)
  | n + 1, i, pick, acc, ps, us, s =>
    let k := getLink s port
    match k.txRest, k.txUnit with
    | b :: r, some o =>
      let s1 := updLink port (fun k => { k with txRest := r, txUnit := if r.isEmpty then none else some o }) s
      fillSlots port n (i + 1) pick (acc ++ b) ps (if us.getLast? = some o then us else us ++ [o]) s1
    | _, _ =>
      match nextClass s port (pick % 4) with
      | none => fillSlots port n (i + 1) pick (acc ++ zeros 16) ps us s
      | some (tc, o) =>
        match unitSlots o.unit with
        | [] => fillSlots port n (i + 1) (pick / 4) (acc ++ zeros 16) ps us (egressPop port tc s)
        | b :: r =>
          let s1 := egressPop port tc (updLink port (fun k => { k with
            txRest := r, txUnit := if r.isEmpty then none else some o
            cons := smUpd 0 (tc * 2) (fun c => (c + 1) % 4096)
              (smUpd 0 (tc * 2 + 1) (fun c => (c + unitData o.unit) % 65536) k.cons) }) s)
          fillSlots port n (i + 1) (pick / 4) (acc ++ b) (putBit ps i true) (us ++ [o]) s1

/-- Is there something new to frame? -/
def hasData (s : State) (port pick : Nat) : Bool :=
  !(getLink s port).txRest.isEmpty || (nextClass s port (pick % 4)).isSome

/-- One flit of a link that is UP: the replay, a new DATA flit, or IDLE (R290, R295, R297). -/
def sendUp (port pick : Nat) (s : State) : State :=
  let k := getLink s port
  match k.resend with
  | f :: r => sendFlit port f.payload 0 f.seq f.pstart (updLink port (fun k => { k with resend := r }) s)
  | [] =>
    if k.replay.length < 256 ∧ hasData s port pick = true then
      let seq := (k.seq + 1) % 4096
      let r := fillSlots port 14 0 pick [] 0 [] s
      let f : HeldFlit := { seq := seq, pstart := r.2.1, payload := r.1, units := r.2.2.1 }
      sendFlit port r.1 0 seq r.2.1 (updLink port (fun k => { k with seq := seq, replay := k.replay ++ [f] }) r.2.2.2)
    else sendFlit port [] 1 k.seq 0 s

/-- A replay starts: the set to resend is fixed (R297). After NL_REPLAY_LIMIT of them without an ACK that frees a flit
the link goes down instead (R298). -/
def startReplay (port : Nat) (s : State) : State :=
  if obj s 0x4411 0 ≤ (getLink s port).replays then linkFail port 2 s
  else bump 0x3433 (port + 1) (updLink port (fun k => { k with resend := k.replay, replays := k.replays + 1 }) s)

end Sys2Proof.Machine
end

