-- ==== Sys2Proof/Machine/Lanes.lean ====
section
/-!
DEFINITION. The commands of the lane layer (spec/12): training blocks and clocks that arrive, the ends of timers and
measurements, spare lanes, eye scans, loopbacks. What a receiver measures is an operand (log entry 2).
-/
namespace Sys2Proof.Machine

/-- FORWARDED_CLOCK_LOCK (R269): DETECT ends. -/
def execForwardedClockLock (port : Nat) (s : State) : Out :=
  .next (if (getLane s port).state = 1 then beginPhase port (fun l => { l with state := 2, train := train0 }) s else s)

/-- FORWARDED_CLOCK_LOSS (R266): the port leaves ACTIVE, or its bring-up or far-end loopback, for DETECT. -/
def execForwardedClockLoss (port : Nat) (s : State) : Out :=
  .next (
    let l := getLane s port
    let near : Bool := match l.loop with | some lp => lp.mode != 3 | none => false
    if l.state = 0 ∨ l.state = 1 ∨ l.state = 7 ∨ (l.state = 6 ∧ near = true) then s
    else if l.state = 5 ∨ l.state = 6 then
      updLane port (fun l => { l with cause := 1 }) (startBringup port s)
    else backToDetect port 1 s)

/-- The lanes that have locked have had 64 TS1 each in a row, and they are enough (R269, R283). -/
def lockDone (port : Nat) (t : TrainSt) : Bool :=
  t.ts1Run.all (fun e => decide (64 ≤ e.2)) && decide (laneWidth port ≤ t.ts1Run.length)

/-- Change the bring-up of a port. -/
def updTrain (port : Nat) (f : TrainSt → TrainSt) (s : State) : State := updLane port (fun l => { l with train := f l.train }) s

/-- A peer's LOOP_REQ (R282): honoured when NL_FAR_LOOP_ACCEPT is 1, else answered LOOP_NAK. -/
def hearLoopReq (port : Nat) (s : State) : State :=
  if obj s 0x4406 (port + 1) = 1 then updLane port (fun l => { l with farPeer := true }) s
  else updLane port (fun l => { l with nak := true }) s

/-- A TS1 or TS2 is heard with what it asks for. -/
def hearBlock (port : Nat) (b : Bytes) (s : State) : State := if tbLoopReq b then hearLoopReq port s else s

/-- A block that LOCK can use: TS1, with a lane number of the port. -/
def ts1Ok (port : Nat) (b : Bytes) : Bool := blockOk 1 b && decide (tbLane b < lanePhys port)

/-- TS1 (R265, R268, R269): a block that the peer sends on a trace, whose wires may swap the pair. In LOCK the block as
received shows whether the lane is inverted, and names it; a block that fails its check ends the trace's run; in EXCHANGE it is no TS2 and only takes its time. -/
def execTs1 (port trace : Nat) (inverted : Bool) (block : Bytes) (s : State) : Out :=
  .next (
    let l := getLane s port
    let received := flipBlock inverted block
    let seen : Bool := leAt received 0 2 == 0x3CA5
    let b := flipBlock seen received
    if lanePhys port ≤ trace then s
    else if l.state = 3 then blockTime port trace s
    else if l.state ≠ 2 then s
    else if !ts1Ok port b then blockTime port trace (updTrain port (fun t => { t with ts1Run := smAlter trace (fun _ => 0) t.ts1Run }) s)
    else
      let t := { l.train with
        ts1Run := smPut trace (smGet 0 trace l.train.ts1Run + 1) l.train.ts1Run
        order := smPut (tbLane b) trace l.train.order
        polarity := putBit l.train.polarity trace seen }
      let s1 := blockTime port trace (hearBlock port b (updTrain port (fun _ => t) s))
      if lockDone port t then beginPhase port (fun l => { l with state := 3 }) s1 else s1)

/-- The expected entry of a port (R419), 0 where nothing is expected. -/
def expectedEntry (s : State) (port : Nat) : Nat := field (obj s 0x2A01 0) (64 * port + 63) (64 * port)

/-- Has a port a peer: is its EXCHANGE over? -/
def hasPeer (l : LaneSt) : Bool := l.state == 4 || l.state == 5 || l.state == 7

/-- Are a peer's KIND and UNIT_ID those of the expected entry? -/
def peerMatches (s : State) (port : Nat) : Bool :=
  let l := getLane s port
  hasPeer l && field (expectedEntry s port) 47 0 == l.unit && field (expectedEntry s port) 49 48 == l.kind

/-- A port's entry of DISCOVERED_TOPOLOGY. -/
def discovered (s : State) (port : Nat) : Nat :=
  let l := getLane s port
  if hasPeer l then l.unit % 2 ^ 48 + l.kind % 4 * 2 ^ 48 + 2 ^ 50 + b2n (peerMatches s port) * 2 ^ 51 else 0

/-- DISCOVERED_TOPOLOGY. -/
def discoveredTable (s : State) : Bytes := ((List.range 15).map (fun i => leBytes 8 (discovered s i))).flatten

/-- The topology event with the discovered table (R419). -/
def reportTopology (s : State) : State := raiseEvent 0x0003 (discoveredTable s) s

/-- The cause for which a peer is held (R273, R419): 3 its KIND does not fit, 4 it has changed, 0 it is not the expected
one; none when it fits. -/
def peerHeld (s : State) (port kind unit : Nat) : Option Nat :=
  let e := expectedEntry s port
  let l := getLane s port
  if kind ≠ peerKindOf port then some 3
  else if e ≠ 0 ∧ field e 47 0 = unit ∧ field e 49 48 = kind then none
  else if l.activeUnit.isSome = true ∧ l.activeUnit ≠ some unit then some 4
  else if e ≠ 0 then some 0 else none

/-- A port is held in EXCHANGE; a UNIT_ID that differs is reported, in a start by the topology check, after READY at once
(R273, R419, R420). -/
def holdPeer (port cause : Nat) (s : State) : State :=
  let s1 := updLane port (fun l => { l with state := 7, cause := cause }) s
  if cause ≠ 3 ∧ s.power.phase = 0x0A then reportTopology s1 else s1

/-- Every locked lane has received 8 TS2 in a row, and 16 with ACK have been sent (R269). -/
def exchangeOver (t : TrainSt) : Bool :=
  t.order.all (fun e => decide (8 ≤ smGet 0 e.2 t.ts2Run)) && decide (16 ≤ t.ts2Sent)

/-- A block received on a trace in a phase of its type: the block as the lane's polarity gives it. -/
def blockOf (s : State) (port trace : Nat) (block : Bytes) : Bytes :=
  flipBlock (bitOf (getLane s port).train.polarity trace) block

/-- TS2 (R269, R273, R282): a block received on a trace. In LOCK, and in a step that counts down, it only takes its time. -/
def execTs2 (port trace : Nat) (block : Bytes) (s : State) : Out :=
  .next (
    let l := getLane s port
    let b := blockOf s port trace block
    if lanePhys port ≤ trace then s
    else if l.state = 2 ∨ (l.state = 4 ∧ l.train.part = 0) then blockTime port trace s
    else if l.state ≠ 3 then s
    else if !blockOk 2 b then blockTime port trace (updTrain port (fun t => { t with ts2Run := smAlter trace (fun _ => 0) t.ts2Run }) s)
    else
      let s1 := setObj 0x3401 (port + 1) (tbUnit b) (updLane port (fun l => { l with
        kind := tbKind b, maxRate := tbMaxRate b, unit := tbUnit b
        train := { l.train with ts2Run := smPut trace (smGet 0 trace l.train.ts2Run + 1) l.train.ts2Run } }) s)
      let s2 := blockTime port trace (hearBlock port b s1)
      match peerHeld s port (tbKind b) (tbUnit b) with
      | some c => holdPeer port c s2
      | none =>
        if tbLoopNak b && l.loop.isSome then
          setObj 0x3421 0 5 (updLane port (fun l => { l with
            state := 6, loop := l.loop.map (fun lp => { lp with refused := true }) }) s2)
        else if exchangeOver (getLane s2 port).train then exchangeDone port s2
        else s2)

/-- A STEP block in a step that counts down: the peer's target rate and countdown (R270). -/
def hearStep (port : Nat) (b : Bytes) (s : State) : State :=
  if blockOk 3 b then updTrain port (fun t => { t with peerTarget := tbTarget b, peerCount := tbSwitchAt b }) s else s

/-- STEP_BLOCK (R270): a block received on a trace. A port in far-end loopback for its peer steps to the rate that the
peer names (R281, R282); in EXCHANGE the block only takes its time. -/
def execStepBlock (port trace : Nat) (block : Bytes) (s : State) : Out :=
  .next (
    let l := getLane s port
    let b := blockOf s port trace block
    if lanePhys port ≤ trace then s
    else if l.state = 3 then blockTime port trace s
    else if l.state = 6 ∧ l.farPeer = true ∧ blockOk 3 b = true ∧ l.cfg.rate < tbTarget b then nextStep port (hearStep port b s)
    else if l.state ≠ 4 ∨ l.train.part ≠ 0 then s
    else blockTime port trace (hearStep port b s))

/-- RATE_SWITCH (R267, R270): at the end of the block that carries 0 both directions run at the step's rate; EQ blocks
follow at P4. -/
def execRateSwitch (port : Nat) (s : State) : Out :=
  .next (
    let l := getLane s port
    if l.state ≠ 4 ∨ l.train.part ≠ 0 ∨ l.train.count ≠ 0 then s
    else beginPhase port (fun l => { l with train := { l.train with part := 1 } })
      (runAtRate port (updLane port (fun l => { l with cfg := { l.cfg with rate := l.train.step, presets := [] } }) s)))

/-- What a lane's receiver asks for next: a new request is one more, and there are at most four (R270). -/
def askPreset (lane : Nat) (want : Option Nat) (m : SMap (Nat × Nat)) : SMap (Nat × Nat) :=
  match want, smFind? lane m with
  | none, _ => m
  | some p, none => smPut lane (p, 1) m
  | some p, some (q, n) => if p = q ∨ 4 ≤ n then m else smPut lane (p, n + 1) m

/-- The preset that the peer asks for of a lane, and how many EQ blocks in a row have asked for it. -/
def presetRun (req : Option Nat) (lane : Nat) (m : SMap (Nat × Nat)) : SMap (Nat × Nat) :=
  match req with
  | none => smErase lane m
  | some p => match smFind? lane m with
    | some (q, n) => smPut lane (p, if q = p then n + 1 else 1) m
    | none => smPut lane (p, 1) m

/-- A preset that 8 consecutive EQ blocks have asked for is applied (R267, R270). -/
def applyPreset (port lane : Nat) (s : State) : State :=
  match smFind? lane (getLane s port).train.eqRun with
  | some (p, 8) => sendTaps port lane (updLane port (fun l => { l with cfg := { l.cfg with presets := smSet 4 lane p l.cfg.presets } }) s)
  | _ => s

/-- Every lane begins 2^27 symbols of scrambled PRBS31 data, mapped and precoded (R270); the spec gives their generators no
state (log entry 11). -/
def sendQualification (port : Nat) (s : State) : State :=
  let r := loopSeeds (lanePhys port) s
  let c := (getLane s port).cfg
  (List.range (lanePhys port)).foldl (fun s x => send (.qualify port x (r.1.getD x 0) c.rate c.txPrecode) s) r.2

/-- EQ_BLOCK (R267, R270): a block received on a trace; whether the module's receiver is adapted by now, and what this lane's
receiver asks for. -/
def execEqBlock (port trace : Nat) (adapted : Bool) (ask : EqAsk) (block : Bytes) (s : State) : Out :=
  .next (
    let l := getLane s port
    let b := blockOf s port trace block
    if lanePhys port ≤ trace ∨ l.state ≠ 4 ∨ l.train.part = 0 then s
    else if blockOk 4 b = false then blockTime port trace s
    else
      let own := l.train.ackOwn || adapted
      let peer := l.train.ackPeer || tbAck b
      let qualify : Bool := decide (l.train.part = 1) && own && peer
      let s1 := applyPreset port (tbLane b) (updLane port (fun l => { l with
        cfg := { l.cfg with txPrecode := tbPrecode b, rxPrecode := ask.precode }
        train := { l.train with
          eqRun := presetRun (tbPreset? b) (tbLane b) l.train.eqRun
          want := askPreset (tbLane b) ask.preset l.train.want
          eqSeen := true, ackOwn := own, ackPeer := peer
          peerPass := if l.train.part = 3 then some (tbPass b) else l.train.peerPass } }) s)
      let s2 := blockTime port trace s1
      if qualify then sendQualification port (updTrain port (fun t => { t with part := 2 }) s2)
      else if l.train.part = 3 then judgeStep port s2 else s2)

/-! ## What a scan says of an eye (R278, R279) -/

/-- Does a point pass: phase step `p`, voltage step `v` of Table 12-7? -/
def pointPasses (e : Eye) (p v : Nat) : Bool := decide (smGet 0 (64 * v + p) e ≤ 4)

/-- The width: passing phase steps on the centre line; the height: passing voltage steps on the centre phase (R278). -/
def eyeWidth (e : Eye) : Nat := ((List.range 64).filter (fun p => pointPasses e p 31)).length
def eyeHeight (e : Eye) : Nat := ((List.range 63).filter (fun v => pointPasses e 32 v)).length

/-- An edge by bisection from the centre: of the steps 0 to n - 1 away from it, the farthest that passes where `lo` passes
and `hi` does not, in `k` points (R279). -/
def bisectEdge (pass : Nat → Bool) : Nat → Nat → Nat → Nat
  | 0, lo, _ => lo
  | k + 1, lo, hi =>
    if hi ≤ lo + 1 then lo
    else if pass ((lo + hi) / 2) then bisectEdge pass k ((lo + hi) / 2) hi else bisectEdge pass k lo ((lo + hi) / 2)

/-- The four edges of an eye in steps from its centre: left, right, up, down (R279; log entry 111). -/
def eyeEdges (e : Eye) : List Nat :=
  [bisectEdge (fun k => pointPasses e (32 - k) 31) 6 0 33, bisectEdge (fun k => pointPasses e (32 + k) 31) 6 0 32,
   bisectEdge (fun k => pointPasses e 32 (31 + k)) 6 0 32, bisectEdge (fun k => pointPasses e 32 (31 - k)) 6 0 32]

/-- Steps from one edge to the other, the centre with them; none of an eye whose centre fails. -/
def edgeSpan (e : Eye) (i : Nat) : Nat :=
  if pointPasses e 32 31 then (eyeEdges e).getD i 0 + (eyeEdges e).getD (i + 1) 0 + 1 else 0

/-- The smallest of a measure over a lane's eyes. -/
def worst (f : Eye → Nat) (eyes : List Eye) : Nat :=
  match eyes.map f with
  | [] => 0
  | x :: xs => xs.foldl min x

/-- QUALIFICATION_END (R270, R271): bit errors and eyes of each physical receive lane; the lanes that pass are reported in
PASS, and judged when the peer's are known. -/
def execQualificationEnd (port : Nat) (errors : List Nat) (eyes : List (List Eye)) (s : State) : Out :=
  .next (
    let l := getLane s port
    if l.state ≠ 4 ∨ l.train.part ≠ 2 then s
    else
      let margin := obj s 0x4403 0
      let ok (i : Nat) : Bool := decide (errors.getD i 1025 ≤ 1024) && decide (margin ≤ worst eyeWidth (eyes.getD i []))
      let pass := (List.range (lanePhys port)).foldl (fun m i => putBit m i (ok i)) 0
      beginPhase port (fun l => { l with train := { l.train with part := 3, pass := some pass } }) s)

/-- BRINGUP_PHASE_TIMEOUT (Table 12-5, R272). -/
def execBringupPhaseTimeout (port : Nat) (s : State) : Out :=
  .next (
    let l := getLane s port
    if l.state = 2 then backToDetect port 2 s
    else if l.state = 3 then backToDetect port 6 s
    else if l.state = 4 then (if l.train.eqSeen then stepFails port s else backToDetect port l.cause s)
    else s)

/-- NL_RETRAIN_CMD (R272): the port goes to DETECT; one in a loopback or DISABLED stays (R269, R281). -/
def opRetrain (port : Nat) (s : State) : Status × State :=
  if 14 < port then (.errFormat, s)
  else if (getLane s port).state = 0 ∨ (getLane s port).loop.isSome = true then (.ok, s)
  else (.ok, startBringup port s)
def execNlRetrainCmd (port : Nat) (s : State) : Out := .next (answerFm 0x2402 0 (opRetrain port s))

/-- NL_PORT_ENABLE_WRITE (R269). -/
def opPortEnable (port value : Nat) (s : State) : Status × State :=
  if 14 < port ∨ 1 < value then (.errFormat, s)
  else
    let s1 := setObj 0x2400 (port + 1) value s
    if value = 0 then (.ok, startBringup port s1)
    else if (getLane s1 port).state = 0 then (.ok, startBringup port s1)
    else (.ok, s1)
def execNlPortEnableWrite (port value : Nat) (s : State) : Out := .next (answerFm 0x2400 (port + 1) (opPortEnable port value s))

/-! ## Spare lanes (R276, R277) -/

/-- SPARE_REQ. -/
def execSpareReq (port lane : Nat) (s : State) : Out := .next (onSpareReq port lane s)
/-- SPARE_DONE. -/
def execSpareDone (port lane : Nat) (s : State) : Out := .next (onSpareDone port lane s)
/-- SPARE_ABORT. -/
def execSpareAbort (port lane : Nat) (s : State) : Out := .next (onSpareAbort port lane s)

/-- SPARE_COMPARE_END of the substitution of a logical lane (R276): 60 of the last 64 flits have agreed, and the receiver selects the spare; or 4,096 flits have
passed, and it abandons the substitution. -/
def execSpareCompareEnd (port lane : Nat) (s : State) : Out :=
  .next (
    let l := getLane s port
    match l.rxReq, l.cfg.rxSpare with
    | some asked, some sp =>
      let s1 := updLane port (fun l => { l with rxReq := none }) s
      if asked ≠ lane then s
      else if 64 ≤ l.compared ∧ 60 ≤ (l.agreed.filter id).length then
        let former := l.cfg.rxMap.getD lane 0
        let s2 := updLane port (fun l => { l with
          cfg := { l.cfg with rxMap := l.cfg.rxMap.set lane sp, rxSpare := none }
          faulty := putBit l.faulty former true
          goodScans := smErase former l.goodScans }) s1
        let s3 := eyeAbort (fun e => e.port == port && e.lane == former) s2
        sendLaneOp port 2 lane 64 (bump 0x3411 (port + 1) s3)
      else if 4096 ≤ l.compared then sendLaneOp port 3 lane 64 s1
      else s
    | _, _ => s)

/-! ## Eye scans (R278-R280) -/

/-- Seven-bit entries by physical lane. -/
def packLanes (port : Nat) (xs : List Nat) (old : Nat) : Nat :=
  (List.range (lanePhys port)).foldl (fun v i => match xs[i]? with | some x => putField v (7 * i + 6) (7 * i) (min x 127) | none => v) old

/-- Faulty lanes after a scan: three good scans in a row bring the standby spare back (R277). -/
def healLanes (port : Nat) (widths : List Nat) (s : State) : State :=
  let margin := obj s 0x4403 0
  (onesBelow 9 (getLane s port).faulty).foldl (fun s i =>
    updLane port (fun l =>
      if widths.getD i 0 < margin + 4 then { l with goodScans := smErase i l.goodScans }
      else if 2 ≤ smGet 0 i l.goodScans ∧ l.cfg.rxSpare.isNone = true then
        { l with goodScans := smErase i l.goodScans, faulty := putBit l.faulty i false, cfg := { l.cfg with rxSpare := some i } }
      else { l with goodScans := smPut i (smGet 0 i l.goodScans + 1) l.goodScans }) s) s

/-- An eye from the points of its centre line and of its centre phase. -/
def crossEye (line phase : Eye) : Eye := line.filter (fun x => x.1 / 64 == 31) ++ phase.filter (fun x => x.1 % 64 == 32)

/-- BACKGROUND_EYE_SCAN (R275, R277, R279): of each eye of each physical receive lane, what the points on its centre line and on
its centre phase show. -/
def execBackgroundEyeScan (port : Nat) (line phase : List (List Eye)) (s : State) : Out :=
  .next (
    if (getLane s port).state ≠ 5 ∨ s.eyeCmd.isSome = true then s
    else
      let eyes := line.zipWith (fun a b => a.zipWith crossEye b) phase
      let widths := eyes.map (worst (edgeSpan · 0))
      let heights := eyes.map (worst (edgeSpan · 2))
      let s1 := setObj 0x3402 (port + 1) (packLanes port widths (obj s 0x3402 (port + 1)))
        (setObj 0x3403 (port + 1) (packLanes port heights (obj s 0x3403 (port + 1))) s)
      let s2 := healLanes port widths s1
      let margin := obj s 0x4403 0
      (List.range 8).foldl (fun s x =>
        match (getLane s2 port).cfg.rxMap[x]? with
        | some ph => if widths.getD ph 127 < margin then askSpare port x s else s
        | none => s) s2)

/-- NL_EYE_SCAN_CMD (R280): PORT, LANE, EYE, MODE. -/
def opEyeScan (cmd : Bytes) (s : State) : Status × State :=
  let port := leAt cmd 0 1
  let lane := leAt cmd 1 1
  let eye := leAt cmd 2 1
  let mode := leAt cmd 3 1
  if 14 < port ∨ 8 < lane ∨ 2 < eye ∨ 1 < mode then (.errFormat, s)
  else if s.eyeCmd.isSome then (.ok, eyeResult 0x04 (getLane s port).cfg.rate [] [] s)
  else if (getLane s port).state ≠ 5 then (.ok, eyeResult 0x02 (getLane s port).cfg.rate [] [] s)
  else (.ok, { s with eyeCmd := some { port := port, lane := lane, eye := eye, full := mode == 1 } })
def execNlEyeScanCmd (cmd : Bytes) (s : State) : Out := .next (answerExpert 0x4400 (opEyeScan cmd) s)

/-- The edges of an eye as I8 steps: left and down of the centre are negative (Table 12-7). -/
def edgeBytes (e : Eye) : Bytes :=
  let d := eyeEdges e
  leBytes 1 (256 - d.getD 0 0) ++ leBytes 1 (d.getD 1 0) ++ leBytes 1 (d.getD 2 0) ++ leBytes 1 (256 - d.getD 3 0)

/-- The pass bitmap of a full scan: bit 64 v + p (Table 12-7). -/
def passBitmap (e : Eye) : Bytes :=
  (List.range 504).map (fun i => BitVec.ofNat 8
    ((List.range 8).foldl (fun v j => v + b2n (decide (smGet 0 (8 * i + j) e ≤ 4)) * 2 ^ j) 0))

/-- EYE_SCAN_COMMAND_END (R280): what a scan of the named eye's edges, or one of its every point, found. -/
def execEyeScanCommandEnd (edges points : Eye) (s : State) : Out :=
  .next (match s.eyeCmd with
    | some e =>
      let eye := if e.full then points else edges
      eyeResult 0x01 (getLane s e.port).cfg.rate (edgeBytes eye) (if e.full then passBitmap eye else []) { s with eyeCmd := none }
    | none => s)

/-! ## Loopbacks (R281, R282) -/

/-- Zero NL_LOOP_ERRORS. -/
def zeroLoopErrors (s : State) : State := (List.range 9).foldl (fun s i => setObj 0x3420 (i + 1) 0 s) s

/-- Enter a loopback mode at a rate with a pattern (R281). -/
def enterLoop (port mode rate pattern p32 : Nat) (s : State) : Status × State :=
  if 14 < port ∨ rate < 1 ∨ 4 < rate ∨ 1 < pattern ∨ (port = 14 ∧ rate = 4) then (.errFormat, s)
  else if portOff s port then (.ok, s)
  else
    let s1 := zeroLoopErrors (setObj 0x3421 0 1 (leaveActive port s))
    let lp : LoopSt := { mode := mode, rate := rate, pattern := pattern, pattern32 := p32, refused := false }
    let start (l : LaneSt) : LaneSt := { l with prev := none, train := train0, begun := true, loop := some lp }
    if mode = 3 then
      (.ok, runAtRate port (beginPhase port (fun l => { start l with state := 1, cfg := { cfg0 with rate := 1 } }) s1))
    else
      (.ok, beginLoop port (runAtRate port (updLane port (fun l => { start l with cfg := { cfg0 with rate := rate } }) s1)))

/-- The end of a loopback (R281): bring-up starts at DETECT. -/
def endLoop (port : Nat) (s : State) : Status × State :=
  if 14 < port then (.errFormat, s)
  else if (getLane s port).loop.isNone then (.ok, s)
  else (.ok, startBringup port (setObj 0x3421 0 0 (updLane port (fun l => { l with loop := none }) s)))

def execLoopbackNearParallel (port rate pattern p32 : Nat) (s : State) : Out :=
  .next (answerExpert 0x4407 (enterLoop port 1 rate pattern p32) s)
def execLoopbackNearSerial (port rate pattern p32 : Nat) (s : State) : Out :=
  .next (answerExpert 0x4407 (enterLoop port 2 rate pattern p32) s)
def execLoopbackFarEnd (port rate pattern p32 : Nat) (s : State) : Out :=
  .next (answerExpert 0x4407 (enterLoop port 3 rate pattern p32) s)
/-- LOOPBACK_END (R281), with what the receivers decide in the flit time in which it comes: the checkers still count it. -/
def execLoopbackEnd (port : Nat) (rx : Decided) (s : State) : Out :=
  .next (answerExpert 0x4407 (fun s => endLoop port (if rx = [] ∨ (getLane s port).loop.isNone = true then s else loopReceive port rx s)) s)

/-- LOOP_REQ (R282): a peer's LOOP_REQ reaches a port in bring-up. -/
def execLoopReq (port : Nat) (s : State) : Out :=
  .next (if (getLane s port).state = 0 ∨ 4 < (getLane s port).state then s else hearLoopReq port s)

/-- A write of NL_LOOPBACK_CMD: PORT, MODE, RATE, PATTERN, PATTERN32 (Table 12-7). -/
def opLoopback (cmd : Bytes) (s : State) : Status × State :=
  let mode := leAt cmd 1 1
  if 3 < mode then (.errFormat, s)
  else if mode = 0 then endLoop (leAt cmd 0 1) s
  else enterLoop (leAt cmd 0 1) mode (leAt cmd 2 1) (leAt cmd 3 1) (leAt cmd 4 4) s

end Sys2Proof.Machine
end

