-- ==== Sys2Proof/Machine/Update.lean ====
section
/-!
DEFINITION. OPT_STEP, GRAD_ACCUM, SCATTER_ADD, EMB_GATHER and EXPERT_STREAM (spec/08); the multicasting of a job's
writes (spec/14 R323).
-/
namespace Sys2Proof.Machine

/-! ## Shared (R179-R182) -/

/-- The FP32 word in four bytes of a string. -/
def wordAt (bs : Bytes) (off : Nat) : BitVec 32 := BitVec.ofNat 32 (leAt bs off 4)

/-- The sign of an FP32 word changed. -/
def f32Neg (a : BitVec 32) : BitVec 32 := a ^^^ 0x80000000#32

/-- A count as FP32, rounded once. -/
def f32OfNat (n : Nat) : BitVec 32 := f32 (.fin false n 0)

/-- Row 3 of Table 8-2 for the first operand. -/
def targetLocal (s : State) (x : JobSt) : Bool := (opd x 0).exts.all (fun e => e.ep == ownEp s)

/-- Rows 2 of Table 8-2 that operands share: the offset of one whose VA is not a multiple of 64. -/
def vaChecks (d : Bytes) (os : List Nat) : List (Bool × Status × Nat) :=
  os.map (fun o => (leAt d o 6 % 64 != 0 && !opdIgnored d o, Status.errAlign, o))

def rsvdChecks (d : Bytes) (os : List Nat) : List (Bool × Status × Nat) := os.map (fun o => (opdRsvd d o, Status.errFormat, o))

/-- Gradient formats. -/
def gradFmtOk (c : Nat) : Bool := [0, 1, 3, 4].contains c

/-- Bytes of `n` elements of a format. -/
def elemBytes (c n : Nat) : Nat := n * fmtBits c / 8

/-- Entry `k` of a row list in operand `i`, or `k` itself where the operand is empty. -/
def listEntry (j i : Nat) (x : JobSt) (k : Nat) (s : State) : Except Status (Option Nat) × State :=
  if (opd x i).len = 0 then (.ok (some k), s)
  else
    match listRead j i (4 * k) 4 s with
    | (.ok b, s1) => (.ok (some (leAt b 0 4)), s1)
    | (.err st _, s1) => (.error st, s1)
    | (.blocked, s1) => (.ok none, s1)

/-- Writes of several ranges of a local operand, made only when every line of all of them is ready. -/
def writeTogether (j : Nat) (o : Operand) (ws : List (Nat × Bytes)) (s : State) : OpRes × State :=
  match getJob? s j with
  | none => (.blocked, s)
  | some x =>
    let ps := ws.map (fun w => (pieces o.exts w.1 w.2.length 0, w.2))
    let ops := (ps.map (fun p => localWrites s p.1 p.2)).flatten
    let a := prepAll (.job j) ops s
    if !a.1 then (.blocked, a.2)
    else
      match performAll (jobSrc x) ops a.2 with
      | (.error (st, _), s2) => (.err st 0, s2)
      | (.ok _, s2) => (.ok [], (ps.map (·.1)).flatten.foldl (fun s p => memTokens x p.addr p.len s) s2)

/-- Read several ranges of an operand. -/
def readTogether (j slot : Nat) (o : Operand) : List (Nat × Nat) → State → Except (Option Status) (List Bytes) × State
  | [], s => (.ok [], s)
  | (off, n) :: r, s =>
    match opRead j 0 slot o off n off s with
    | (.blocked, s1) => (.error none, s1)
    | (.err st _, s1) => (.error (some st), s1)
    | (.ok b, s1) =>
      match readTogether j slot o r s1 with
      | (.ok bs, s2) => (.ok (b :: bs), s2)
      | e => e

/-! ## Multicast writes of a job (R188, R323, R458) -/

/-- One more packet of a job, or of its group, to be acknowledged. -/
def mcOwed (j : Nat) (s : State) : State :=
  match smFind? j s.work.groups with
  | some _ => { s with work := { s.work with groups := smAlter j (fun g => { g with outstanding := g.outstanding + 1 }) s.work.groups } }
  | none => jobSent j 2 1 s

/-- The packets of a run of bytes at an address of every member. -/
def mcRun (j : Nat) (x : JobSt) (tc mask win addr : Nat) (bytes : Bytes) (s : State) : State :=
  (writeRuns (obj s 0x2423 0 == 1) addr bytes).foldl (fun s w =>
    let hdr := mkHdr w.1 (if w.1 = 0x04 then 0 else tc) true 0 (ownEp s) 0 w.2.1 w.2.2.1 w.2.2.2.1 (jobGv x)
    let k := if w.1 = 0x03 then w.2.2.2.1 + 1 else 0
    let p : Packet := { hdr := hdr, ext := some (mask, win), sectors := w.2.2.2.2, auth := [] }
    originate { outUnit (.pkt p) x.part (dSvc x.desc) (some x.part) with job := some j }
      (mcOwed j (countElided k (if w.1 = 0x03 then w.2.2.2.2.length else 0) s))) s

/-- May the job's partition write a packet's bytes on the module itself (R323)? -/
def ownCopyAllowed (s : State) (x : JobSt) (p : Piece) : Bool :=
  decide (p.addr + p.len ≤ metaBase) && partRight s x.part (p.addr >>> 28) == 2 &&
  partRight s x.part ((p.addr + p.len - 1) >>> 28) == 2

/-- A piece cut as `writePackets` cuts it into packets (R458). -/
def packetPieces : Nat → Piece → List Piece
  | 0, _ => []
  | n + 1, p =>
    if p.len = 0 then []
    else
      let k := if p.addr % 32 = 0 ∧ 32 ≤ p.len then 32 * min 8 (p.len / 32) else min p.len (8 - p.addr % 8)
      { p with len := k } :: packetPieces n { p with addr := p.addr + k, off := p.off + k, len := p.len - k }

/-- Write bytes at an offset of an operand on every member of a mask: the copy of the members that are this module is performed
here, packet by packet as the partition's grants allow; a packet that they refuse is skipped for those members. -/
def mcWrite (j tc mask win : Nat) (o : Operand) (off : Nat) (data : Bytes) (s : State) : Bool × State :=
  match getJob? s j with
  | none => (false, s)
  | some x =>
    let ps := pieces o.exts off data.length 0
    let go (s : State) : State := ps.foldl (fun s p => mcRun j x tc mask win p.addr (slice data p.off p.len) s) s
    let mine := (mcMembers mask win).filter (isLocal s)
    if mine.isEmpty then (true, go s)
    else
      let qs := (ps.map (fun p => packetPieces (p.len + 1) p)).flatten
      let ops := (qs.filter (ownCopyAllowed s x)).map (fun p => MemOp.write p.addr ((slice data p.off p.len).map some))
      let a := prepAll (.job j) ops s
      if !a.1 then (false, a.2)
      else
        let s1 := (performAll (jobSrc x) ops a.2).2
        (true, go (if qs.all (ownCopyAllowed s x) then s1 else mcNote j mine [] 0 none s1))

/-- The bits of a mask window in a set of endpoints. -/
def windowBits (set win : Nat) : Nat := field set (64 * win + 63) (64 * win)

/-- The number of ones of a 64-bit mask. -/
def ones64 (m : Nat) : Nat := (onesBelow 64 m).length

/-- Are the members of a mask in the partition's ENDPOINT_GRANT? -/
def membersGranted (s : State) (p mask win : Nat) : Bool := (mcMembers mask win).all (fun e => bitOf (obj s 0x2111 (p + 1)) e)

/-- Does every extent of an operand name a member? -/
def extentsIn (o : Operand) (mask win : Nat) : Bool := o.exts.all (fun e => (mcMembers mask win).contains e.ep)

/-- The outcome of a multicast from its mask, the members skipped and those that failed (R188, R200). -/
def mcOutcome (mask skipped failed : Nat) : Status :=
  if failed ≠ 0 then .errLink else if skipped = 0 then .ok else if skipped = mask then .fenced else .partly

/-! ## OPT_STEP (R183-R188) -/

def osRows (d : Bytes) : Nat := leAt d 112 4
def osN (d : Bytes) : Nat := leAt d 116 2
def osAlg (d : Bytes) : Nat := leAt d 118 1 % 4
def osGfmt (d : Bytes) : Nat := leAt d 119 1 % 16
def osOfmt (d : Bytes) : Nat := leAt d 120 1 % 16
def osSr (d : Bytes) : Bool := bitOf (leAt d 121 1) 0
def osSkip (d : Bytes) : Bool := bitOf (leAt d 121 1) 1
def osMc (d : Bytes) : Bool := bitOf (leAt d 121 1) 2
def osEmits (d : Bytes) : Bool := leAt d 88 5 != 0
def osPlane (d : Bytes) : Nat := osRows d * osN d * 4
def osK (x : JobSt) : Nat := if (opd x 2).len = 0 then osRows x.desc else (opd x 2).len / 4
def osPlanes (d : Bytes) : Nat := if osAlg d = 0 then 2 else if osAlg d = 1 then 3 else 1
/-- Bytes of an output row: elements, and scales for an MX format (R187). -/
def osOutRow (d : Bytes) : Nat := elemBytes (osOfmt d) (osN d) + (if fmtIsMx (osOfmt d) then osN d / 32 else 0)
def osGradRow (d : Bytes) : Nat := elemBytes (osGfmt d) (osN d)

/-- Row 1 of Table 8-2 for the body. -/
def optForm (d : Bytes) : Option (Status × Nat) :=
  let ofmt := osOfmt d
  firstFail (rsvdChecks d [32, 48, 64, 80, 96] ++
    [(decide (osRows d < 1) || decide (2 ^ 24 < osRows d), .errFormat, 112),
     (decide (osN d < 32) || decide (16384 < osN d), .errFormat, 116),
     (decide (2 < leAt d 118 1), .errFormat, 118),
     (decide (15 < leAt d 119 1) || !gradFmtOk (osGfmt d), .errFormat, 119),
     (decide (15 < leAt d 120 1) || (osEmits d && !(gradFmtOk ofmt || fmtIsMx ofmt)), .errFormat, 120),
     (decide (7 < leAt d 121 1) || (osEmits d && osSr d && ofmt == 0), .errFormat, 121),
     ((d.drop 122).any (· != 0), .errFormat, 122)])

/-- Row 1 of Table 8-2 for the parameter record (R184). -/
def optParams (prm : Bytes) : Option (Status × Nat) :=
  firstFail (((List.range 10).map (fun i => (!f32IsFinite (wordAt prm (4 * i)), Status.errFormat, 4 * i))) ++
    [(decide (3 < leAt prm 56 1), .errFormat, 56), ((prm.drop 57).any (· != 0), .errFormat, 57)])

/-- Row 2, and the locality of row 3. -/
def optAlign (s : State) (x : JobSt) : Option (Status × Nat) :=
  let d := x.desc
  firstFail (vaChecks d [32, 48, 64, 80, 96] ++
    [(leAt d 72 5 % 4 != 0, .errAlign, 72), (osN d % 32 != 0, .errAlign, 116),
     (!targetLocal s x, .errPermission, 32)])

/-- Rows 4 and 5. -/
def optSizes (x : JobSt) (mask win : Nat) : Option (Status × Nat) :=
  let d := x.desc
  firstFail [
    (decide ((opd x 0).len < osPlanes d * osPlane d), .errFormat, 40),
    (osAlg d != 2 && decide ((opd x 1).len < osK x * osGradRow d), .errFormat, 56),
    (osEmits d && decide ((opd x 3).len < osK x * osOutRow d), .errFormat, 88),
    (decide ((opd x 4).len < 64), .errFormat, 104),
    (osEmits d && osMc d && !extentsIn (opd x 3) mask win, .errFormat, 80)]

/-- How the dispatch checks of OPT_STEP end. -/
inductive OptRes where
  | ok (prm : Bytes)
  | fail (st : Status) (det : Nat)
  /-- the parameter record cannot be read -/
  | unread (st : Status)
  | wait
deriving DecidableEq, Repr

/-- The dispatch checks of OPT_STEP: the parameter record, or the status and DETAIL of the first failure. -/
def optCheck (j : Nat) (x : JobSt) (s : State) : OptRes × State :=
  let d := x.desc
  let later (prm : Bytes) : Option (Status × Nat) :=
    let win := leAt prm 56 1 % 4
    let mask := leAt prm 48 8
    match optAlign s x with
    | some (st, o) => some (st, detail 0 o)
    | none =>
      if osMc d && decide (64 ≤ (opd x 4).len) && !membersGranted s x.part mask win then some (.errPermission, detail 1 48)
      else (optSizes x mask win).map (fun e => (e.1, detail 0 e.2))
  let judge (prm : Bytes) : OptRes :=
    match later prm with
    | some e => .fail e.1 e.2
    | none => .ok prm
  match optForm d with
  | some (st, o) => (.fail st (detail 0 o), s)
  | none =>
    if (opd x 4).len < 64 then (judge [], s)
    else
      match listRead j 4 0 64 s with
      | (.blocked, s1) => (.wait, s1)
      | (.err st _, s1) => (.unread st, s1)
      | (.ok prm, s1) =>
        match optParams prm with
        | some (st, o) => (.fail st (detail 1 o), s1)
        | none => (judge prm, s1)

/-- The new W, M1 and M2 of one element (R185). -/
def optElem (alg : Nat) (prm : Bytes) (g w m1 m2 : BitVec 32) : BitVec 32 × BitVec 32 × BitVec 32 :=
  let p (i : Nat) : BitVec 32 := wordAt prm i
  if alg = 0 then
    let n1 := f32Fma (p 4) m1 g
    (f32Fma (f32Neg (p 0)) (f32Fma (p 24) w n1) w, n1, m2)
  else
    let n1 := f32Fma (p 4) m1 (f32Mul (p 8) g)
    let n2 := f32Fma (p 12) m2 (f32Mul (p 16) (f32Mul g g))
    let den := f32Add (f32Sqrt (f32Mul n2 (p 36))) (p 20)
    (f32Fma (f32Neg (p 0)) (f32Fma (p 24) w (f32Div (f32Mul n1 (p 32)) den)) w, n1, n2)

/-- A row of FP32 words. -/
def wordsOf (n : Nat) (b : Bytes) : List (BitVec 32) := (List.range n).map (fun c => wordAt b (4 * c))
def wordBytes (xs : List (BitVec 32)) : Bytes := (xs.map (fun v => leBytes 4 v.toNat)).flatten

/-- The scaled gradient of a row. -/
def gradRow (c n : Nat) (b : Bytes) (scale : BitVec 32) : List (BitVec 32) :=
  (List.range n).map (fun i => f32Mul (widen c (elemAt b (fmtBits c) i)) scale)

/-- Blocks of an MX output row: scales and elements. -/
def mxRow (c : Nat) (mode : Nat → Rounding) : Nat → Nat → List (BitVec 32) → List Nat × List Nat
  | 0, _, _ => ([], [])
  | n + 1, i, xs =>
    let q := mxQuantise c ((List.range 32).map (fun t => mode (i + t))) (xs.take 32)
    let r := mxRow c mode n (i + 32) (xs.drop 32)
    (q.1 :: r.1, q.2 ++ r.2)

/-- Output row `k` as ranges of OUT (R186, R187). -/
def emitRow (d prm : Bytes) (K k : Nat) (w : List (BitVec 32)) : List (Nat × Bytes) :=
  let n := osN d
  let c := osOfmt d
  let mode (i : Nat) : Rounding := if osSr d then .stochastic (stochasticR (leAt prm 40 8) (k * n + i)) else .nearest
  if fmtIsMx c then
    let r := mxRow c mode (n / 32) 0 w
    [(elemBytes c (k * n), packElems (fmtBits c) r.2), (elemBytes c (K * n) + k * n / 32, (r.1.map (leBytes 1)).flatten)]
  else
    [(elemBytes c (k * n), packElems (fmtBits c)
      (((List.range n).zip w).map (fun e => narrow c (mode e.1) e.2)))]

/-- How a step of a row goes on. -/
inductive RowRes where
  | go
  | stop
deriving DecidableEq, Repr

/-- The members of OPT_STEP's mask that have received nothing of the emission, or are skipped (R181, R188): all of them until the
first row has been emitted. -/
def optSkipped (x : JobSt) (prm : Bytes) : Nat :=
  if x.stage < 2 then leAt prm 48 8 else windowBits x.skipped (leAt prm 56 1 % 4)

/-- The end of OPT_STEP at a row, with what it has counted; DETAIL is SKIPPED where R181 says so. -/
def rowFail (j : Nat) (x : JobSt) (prm : Bytes) (st : Status) (det : Nat) (s : State) : RowRes × State :=
  (.stop, endJob j st (if osMc x.desc && skippedStatus st then optSkipped x prm else det) x.count 0 s)

/-- The update of row `k`, at row `r` of the planes. -/
def optUpdate (j : Nat) (x : JobSt) (prm : Bytes) (k r : Nat) (s : State) : RowRes × State :=
  let d := x.desc
  let n := osN d
  let next (s : State) : State := setStage j (2 * k + 1) (dropRemote j s)
  if osAlg d = 2 then (.go, setStage j (2 * k + 1) s)
  else
    match opRead j 0 1 (opd x 1) (k * osGradRow d) (osGradRow d) (k * osGradRow d) s with
    | (.blocked, s1) => (.stop, s1)
    | (.err st off, s1) => rowFail j x prm st (detail 3 (off / 64 * 64)) s1
    | (.ok gb, s1) =>
      let g := gradRow (osGfmt d) n gb (wordAt prm 28)
      if osSkip d && g.any (fun v => !f32IsFinite v) then
        (.go, next (updJob j (fun y => { y with count := y.count + 1 }) (pbump x.part 0x6620 2 1 s1)))
      else
        let offs := (List.range (osPlanes d)).map (fun p => p * osPlane d + 4 * (r * n))
        match readTogether j 0 (opd x 0) (offs.map (fun o => (o, 4 * n))) s1 with
        | (.error none, s2) => (.stop, s2)
        | (.error (some st), s2) => rowFail j x prm st (detail 2 k) s2
        | (.ok bs, s2) =>
          let w := wordsOf n (bs.getD 0 [])
          let m1 := wordsOf n (bs.getD 1 [])
          let m2 := wordsOf n (bs.getD 2 [])
          let out := (List.range n).map (fun c => optElem (osAlg d) prm (g.getD c 0) (w.getD c 0) (m1.getD c 0) (m2.getD c 0))
          let rows := [out.map (·.1), out.map (·.2.1), out.map (·.2.2)]
          match writeTogether j (opd x 0) (offs.zip (rows.map wordBytes)) s2 with
          | (.ok _, s3) => (.go, next (pbump x.part 0x6620 1 1 s3))
          | (.err st _, s3) => rowFail j x prm st (detail 2 k) s3
          | (.blocked, s3) => (.stop, s3)

/-- Write ranges of an emission, unicast or multicast. -/
def emitRanges (j : Nat) (x : JobSt) (prm : Bytes) : List (Nat × Bytes) → State → OpRes × State
  | [], s => (.ok [], s)
  | (off, b) :: r, s =>
    if osMc x.desc then
      match mcWrite j 2 (leAt prm 48 8) (leAt prm 56 1 % 4) (opd x 3) off b s with
      | (true, s1) => emitRanges j x prm r s1
      | (false, s1) => (.blocked, s1)
    else
      match opWrite j 1 (opd x 3) off 2 b 0 s with
      | (.ok _, s1) => emitRanges j x prm r s1
      | e => e

/-- The emission of row `k`; a stage of 2k + 1 has its update behind it. Elements go before scales. -/
def optEmit (j : Nat) (x : JobSt) (prm : Bytes) (k r : Nat) (s : State) : RowRes × State :=
  let d := x.desc
  if !osEmits d then (.go, setStage j (2 * k + 2) s)
  else
    match opRead j 0 0 (opd x 0) (4 * (r * osN d)) (4 * osN d) 0 s with
    | (.blocked, s1) => (.stop, s1)
    | (.err st _, s1) => rowFail j x prm st (detail 2 k) s1
    | (.ok b, s1) =>
      match emitRanges j x prm (emitRow d prm (osK x) k (wordsOf (osN d) b)) s1 with
      | (.ok _, s2) => (.go, setStage j (2 * k + 2) s2)
      | (.err st _, s2) => (.stop, endJobResult j st x.count s2)
      | (.blocked, s2) => (.stop, s2)

/-- The end of OPT_STEP, once everything it sent has been answered (R181, R188). -/
def optEnd (j : Nat) (x : JobSt) (prm : Bytes) (s : State) : State :=
  if jobOut x 0 ≠ 0 ∨ jobOut x 1 ≠ 0 ∨ jobOut x 2 ≠ 0 then s
  else if osMc x.desc then
    let win := leAt prm 56 1 % 4
    let sk := windowBits x.skipped win
    let s1 := pbump x.part 0x6620 7 (ones64 sk) s
    match smFind? 2 x.remoteErr with
    | some (.errLink, _) => endJob j .errLink sk x.count 0 s1
    | some (st, _) => endJobResult j st x.count s1
    | none => endJob j (mcOutcome (leAt prm 48 8) sk 0) sk x.count 0 s1
  else
    match smFind? 1 x.remoteErr with
    | some (st, _) => endJobResult j st x.count s
    | none => endJobResult j .ok x.count s

/-- OPT_STEP on from its stage. -/
def optFrom (j : Nat) (prm : Bytes) : Nat → State → State
  | 0, s => s
  | n + 1, s =>
    match getJob? s j with
    | none => s
    | some x =>
      let k := x.stage / 2
      if osK x ≤ k then optEnd j x prm s
      else
        match listEntry j 2 x k s with
        | (.ok none, s1) => s1
        | (.error st, s1) => (rowFail j x prm st (detail 2 k) s1).2
        | (.ok (some r), s1) =>
          if osRows x.desc ≤ r then endJob j .errFormat (detail 2 k) x.count 0 s1
          else
            match (if x.stage % 2 = 0 then optUpdate j x prm k r s1 else optEmit j x prm k r s1) with
            | (.go, s2) => if x.stage % 2 = 1 && tileShared s2 j then s2 else optFrom j prm n s2
            | (.stop, s2) => s2

/-- OPT_STEP as the command of an algorithm; the refused ALG fails the checks under any of them. -/
def optStep (alg j : Nat) (s : State) : State :=
  match runningJob? s j 0x20 with
  | none => s
  | some x =>
    if osAlg x.desc ≠ alg ∧ osAlg x.desc ≠ 3 then s
    else
      match x.checked with
      | some prm => optFrom j prm (2 * osK x + 1) s
      | none =>
        match optCheck j x s with
        | (.wait, s1) => s1
        | (.fail st det, s1) => endJobDetail j st det s1
        | (.unread st, s1) => endJobResult j st 0 s1
        | (.ok prm, s1) => optFrom j prm (2 * osK x + 1) (setChecked j prm s1)

/-- OPT_STEP with SGD with momentum (R185). -/
def execOptStepSgd (job : Nat) (s : State) : Out := .next (optStep 0 job s)

/-- OPT_STEP with AdamW (R185). -/
def execOptStepAdamw (job : Nat) (s : State) : Out := .next (optStep 1 job s)

/-- OPT_STEP with EMIT_ONLY (R185, R188). -/
def execOptStepEmitOnly (job : Nat) (s : State) : Out := .next (optStep 2 job s)

/-! ## Reduction packets, GRAD_ACCUM (R189-R191) -/

/-- The reduction packets of a row of addends at an offset of a local operand: one for each 64-byte line. -/
def reducePackets (o : Operand) (off : Nat) (a : List (BitVec 32)) (store : Bool) : List MemOp :=
  ((pieces o.exts off (4 * a.length) 0).map (fun p =>
    (linesOf p.addr p.len).map (fun line =>
      let lane (i : Nat) : Option (BitVec 32) :=
        let at_ := line * 64 + 4 * i
        if p.addr ≤ at_ ∧ at_ < p.addr + p.len then a[(p.off + (at_ - p.addr)) / 4]? else none
      MemOp.reduce (line * 64) ((List.range 16).map (fun i => (lane i).getD 0))
        (BitVec.ofNat 16 ((List.range 16).foldl (fun m i => putBit m i (lane i).isSome) 0)) store))).flatten

/-- Send a row's reduction packets, in ascending address, once all lines are ready. -/
def reduceRow (j : Nat) (x : JobSt) (o : Operand) (off : Nat) (a : List (BitVec 32)) (store : Bool) (s : State) :
    OpRes × State :=
  let ops := reducePackets o off a store
  let r := prepAll (.job j) ops s
  if !r.1 then (.blocked, r.2)
  else
    match performAll (jobSrc x) ops r.2 with
    | (.error (st, _), s1) => (.err st j, s1)
    | (.ok _, s1) => (.ok [], (pieces o.exts off (4 * a.length) 0).foldl (fun s p => memTokens x p.addr p.len s) s1)

/-- A reduction packet at a memory-side atomic unit (R190). -/
def execReductionPacket (tile line : Nat) (addends : List (BitVec 32)) (mask : BitVec 16) (store : Bool) (tag : Nat)
    (s : State) : Out :=
  .next (wake (submit (.tile tile) (.reduce (line * 64) addends mask store) (.mem tag) s))

def gaK (x : JobSt) : Nat := if (opd x 2).len = 0 then leAt x.desc 80 4 else (opd x 2).len / 4
def gaN (d : Bytes) : Nat := leAt d 84 2
def gaFmt (d : Bytes) : Nat := leAt d 86 1 % 16

/-- The dispatch checks of GRAD_ACCUM. -/
def gradCheck (s : State) (x : JobSt) : Option (Status × Nat) :=
  let d := x.desc
  firstFail (rsvdChecks d [32, 48, 64] ++
    [(decide (leAt d 80 4 < 1) || decide (2 ^ 24 < leAt d 80 4), .errFormat, 80),
     (decide (gaN d < 1) || decide (16384 < gaN d), .errFormat, 84),
     (decide (15 < leAt d 86 1) || !gradFmtOk (gaFmt d), .errFormat, 86),
     (decide (1 < leAt d 87 1), .errFormat, 87),
     (!f32IsFinite (wordAt d 88), .errFormat, 88),
     ((d.drop 92).any (· != 0), .errFormat, 92)] ++
    vaChecks d [32, 48, 64] ++
    [(leAt d 72 5 % 4 != 0, .errAlign, 72), (!targetLocal s x, .errPermission, 32),
     (decide ((opd x 0).len < leAt d 80 4 * gaN d * 4), .errFormat, 40),
     (decide ((opd x 1).len < gaK x * elemBytes (gaFmt d) (gaN d)), .errFormat, 56)])

/-- GRAD_ACCUM on from row `stage`. -/
def gradFrom (j : Nat) : Nat → State → State
  | 0, s => s
  | n + 1, s =>
    match getJob? s j with
    | none => s
    | some x =>
      let d := x.desc
      let k := x.stage
      let row := elemBytes (gaFmt d) (gaN d)
      if gaK x ≤ k then endJobResult j .ok k s
      else
        match listEntry j 2 x k s with
        | (.ok none, s1) => s1
        | (.error st, s1) => endJob j st (detail 2 k) k 0 s1
        | (.ok (some r), s1) =>
          if leAt d 80 4 ≤ r then endJob j .errFormat (detail 2 k) k 0 s1
          else
            match opRead j 0 1 (opd x 1) (k * row) row (k * row) s1 with
            | (.blocked, s2) => s2
            | (.err st off, s2) => endJob j st (detail 3 (off / 64 * 64)) k 0 s2
            | (.ok b, s2) =>
              match reduceRow j x (opd x 0) (r * gaN d * 4) (gradRow (gaFmt d) (gaN d) b (wordAt d 88)) (leAt d 87 1 == 1) s2 with
              | (.blocked, s3) => s3
              | (.err st _, s3) => endJob j st (detail 2 k) k 0 s3
              | (.ok _, s3) =>
                let s4 := setStage j (k + 1) (dropRemote j s3)
                if tileShared s4 j then s4 else gradFrom j n s4

/-- GRAD_ACCUM (R190). -/
def execGradAccum (job : Nat) (s : State) : Out :=
  .next (match runningJob? s job 0x21 with
    | none => s
    | some x =>
      checkOnce job x (gradCheck s x) (gradFrom job (gaK x + 1)) s)

/-! ## Index structures of SCATTER_ADD and EMB_GATHER (R192-R196) -/

def ixCount (x : JobSt) : Nat := (opd x 1).len / 4
def ixStride (d : Bytes) : Nat := leAt d 112 4
def ixN (d : Bytes) : Nat := leAt d 116 2
def ixFmt (d : Bytes) : Nat := leAt d 118 1 % 16
/-- Bags, or rows without OFFS. -/
def ixBags (x : JobSt) : Nat := if (opd x 2).len = 0 then ixCount x else (opd x 2).len / 4 - 1
def ixRows (x : JobSt) : Nat := (opd x 0).len / ixStride x.desc

/-- The bag offsets: of OFFS' bytes, or one index to each row. -/
def bagOffsets (x : JobSt) (b : Bytes) : List Nat :=
  if (opd x 2).len = 0 then List.range (ixCount x + 1)
  else (List.range ((opd x 2).len / 4)).map (fun i => leAt b (4 * i) 4)

/-- The first offending entry of OFFS (R195). -/
def offsetsBad (I : Nat) (offs : List Nat) : Option Nat :=
  (List.range offs.length).find? (fun i =>
    let v := offs.getD i 0
    (i == 0 && v != 0) || (decide (0 < i) && decide (v < offs.getD (i - 1) 0)) || (i + 1 == offs.length && v != I))

/-- Checks of Table 8-2 that both share; `row` is what a table row takes. -/
def indexChecks (x : JobSt) (row : Nat) : List (Bool × Status × Nat) :=
  let d := x.desc
  [(decide (ixStride d < row), .errFormat, 112),
   ((opd x 3).len != 0 && decide ((opd x 3).len < 4 * ixCount x), .errFormat, 88)]

/-- Alignment checks that both share. -/
def indexAlign (s : State) (x : JobSt) (mx : Bool) : List (Bool × Status × Nat) :=
  let d := x.desc
  vaChecks d [32, 48, 64, 80, 96] ++
    [(leAt d 56 5 % 4 != 0, .errAlign, 56), (leAt d 72 5 % 4 != 0, .errAlign, 72), (leAt d 88 5 % 4 != 0, .errAlign, 88),
     (ixStride d % 64 != 0, .errAlign, 112), (mx && ixN d % 32 != 0, .errAlign, 116),
     (!targetLocal s x, .errPermission, 32)]

/-- The index `i` of IDX and its weight, 1 without WGT. -/
def indexAt (j : Nat) (x : JobSt) (i : Nat) (s : State) : Except (Option Status) (Nat × BitVec 32) × State :=
  match listRead j 1 (4 * i) 4 s with
  | (.blocked, s1) => (.error none, s1)
  | (.err st _, s1) => (.error (some st), s1)
  | (.ok b, s1) =>
    if (opd x 3).len = 0 then (.ok (leAt b 0 4, f32One), s1)
    else
      match listRead j 3 (4 * i) 4 s1 with
      | (.blocked, s2) => (.error none, s2)
      | (.err st _, s2) => (.error (some st), s2)
      | (.ok w, s2) => (.ok (leAt b 0 4, wordAt w 0), s2)

/-! ## EMB_GATHER (R194, R195) -/

/-- What a table row takes: its elements, and its scale bytes for an MX format. -/
def tableRow (c n : Nat) : Nat := elemBytes c n + (if fmtIsMx c then n / 32 else 0)

def embFmtOk (c : Nat) : Bool := [0, 1, 2, 3, 4, 8, 9, 12, 13].contains c
def embOfmt (d : Bytes) : Nat := leAt d 119 1 % 16
def embPool (x : JobSt) : Nat := if (opd x 2).len = 0 then 0 else leAt x.desc 120 1 % 4

/-- The dispatch checks of EMB_GATHER but those of OFFS' entries. -/
def embCheck (s : State) (x : JobSt) : Option (Status × Nat) :=
  let d := x.desc
  firstFail (rsvdChecks d [32, 48, 64, 80, 96] ++
    [(decide (ixN d < 1) || decide (16384 < ixN d), .errFormat, 116),
     (decide (15 < leAt d 118 1) || !embFmtOk (ixFmt d), .errFormat, 118),
     (decide (1 < leAt d 119 1), .errFormat, 119),
     (decide (3 < leAt d 120 1) || ((opd x 2).len != 0 && leAt d 120 1 % 4 == 3), .errFormat, 120),
     ((d.drop 121).any (· != 0), .errFormat, 121)] ++
    indexAlign s x (fmtIsMx (ixFmt d)) ++ indexChecks x (tableRow (ixFmt d) (ixN d)) ++
    [(decide ((opd x 4).len < ixBags x * elemBytes (embOfmt d) (ixN d)), .errFormat, 104)])

/-- A table row widened. -/
def widenRow (c n : Nat) (b : Bytes) : List (BitVec 32) :=
  (List.range n).map (fun i =>
    let x := elemAt b (fmtBits c) i
    if fmtIsMx c then widenMx c x (leAt b (elemBytes c n + i / 32) 1) else widen c x)

/-- How a bag's rows come. -/
inductive BagRes where
  | ok (acc : List (BitVec 32))
  | wait
  /-- the entry, its status -/
  | err (i : Nat) (st : Status)
deriving DecidableEq, Repr

/-- Indices `i` on of a bag, `n` of them. -/
def gatherBag (j : Nat) (x : JobSt) (pool : Nat) : Nat → Nat → List (BitVec 32) → State → BagRes × State
  | 0, _, acc, s => (.ok acc, s)
  | n + 1, i, acc, s =>
    let d := x.desc
    match indexAt j x i s with
    | (.error none, s1) => (.wait, s1)
    | (.error (some st), s1) => (.err i st, s1)
    | (.ok (r, w), s1) =>
      if ixRows x ≤ r then (.err i .errFormat, s1)
      else
        match listRead j 0 (r * ixStride d) (tableRow (ixFmt d) (ixN d)) s1 with
        | (.blocked, s2) => (.wait, s2)
        | (.err st _, s2) => (.err i st, s2)
        | (.ok b, s2) =>
          let row := (widenRow (ixFmt d) (ixN d) b).map (fun v => if (opd x 3).len = 0 then v else f32Mul v w)
          gatherBag j x pool n (i + 1) (List.zipWith (if pool = 2 then f32Max else f32Add) acc row) s2

/-- The output row of a bag of `n` indices (R194). -/
def gatherOut (d : Bytes) (pool n : Nat) (acc : List (BitVec 32)) : Bytes :=
  packElems (fmtBits (embOfmt d)) (acc.map (fun v =>
    let y := if n = 0 then 0 else if pool = 1 then f32Div v (f32OfNat n) else v
    narrow (embOfmt d) .nearest y))

/-- EMB_GATHER on from bag `stage`. -/
def gatherFrom (j : Nat) (offs : List Nat) : Nat → State → State
  | 0, s => s
  | n + 1, s =>
    match getJob? s j with
    | none => s
    | some x =>
      let d := x.desc
      let b := x.stage
      let row := elemBytes (embOfmt d) (ixN d)
      if ixBags x ≤ b then
        if jobOut x 1 ≠ 0 then s
        else
          match smFind? 1 x.remoteErr with
          | some (st, _) => endJobResult j st b s
          | none => endJobResult j .ok b s
      else
        let lo := offs.getD b 0
        let c := offs.getD (b + 1) 0 - lo
        match gatherBag j x (embPool x) c lo (List.replicate (ixN d) (if embPool x = 2 then f32NegInf else 0)) s with
        | (.wait, s1) => s1
        | (.err i st, s1) => endJob j st (detail 2 i) b 0 s1
        | (.ok acc, s1) =>
          match opWrite j 1 (opd x 4) (b * row) 2 (gatherOut d (embPool x) c acc) 0 s1 with
          | (.blocked, s2) => s2
          | (.err st _, s2) => endJobResult j st b s2
          | (.ok _, s2) =>
            let s3 := setStage j (b + 1) (dropRemote j (pbump x.part 0x6620 3 c s2))
            if tileShared s3 j then s3 else gatherFrom j offs n s3

/-- The dispatch checks of a job with an index structure, once: those of its fields, then its bag offsets (R180, R195). -/
def withOffsets (j : Nat) (x : JobSt) (chk : Option (Status × Nat)) (f : List Nat → State → State) (s : State) : State :=
  let judge (b : Bytes) (s : State) : State :=
    match offsetsBad (ixCount x) (bagOffsets x b) with
    | some i => endJobDetail j .errFormat (detail 2 i) s
    | none => f (bagOffsets x b) (setChecked j b s)
  match x.checked, chk with
  | some b, _ => f (bagOffsets x b) s
  | none, some (st, off) => endJobDetail j st (detail 0 off) s
  | none, none =>
    if (opd x 2).len = 0 then judge [] s
    else
      match listRead j 2 0 ((opd x 2).len) s with
      | (.blocked, s1) => s1
      | (.err st off, s1) => endJob j st (detail 2 (off / 4)) 0 0 s1
      | (.ok b, s1) => judge b s1

/-- EMB_GATHER (R194). -/
def execEmbGather (job : Nat) (s : State) : Out :=
  .next (match runningJob? s job 0x30 with
    | none => s
    | some x =>
      withOffsets job x (embCheck s x) (fun offs s => gatherFrom job offs (ixBags x + 1) s) s)

/-! ## SCATTER_ADD (R196) -/

/-- The dispatch checks of SCATTER_ADD but those of OFFS' entries. -/
def scatterCheck (s : State) (x : JobSt) : Option (Status × Nat) :=
  let d := x.desc
  firstFail (rsvdChecks d [32, 48, 64, 80, 96] ++
    [(decide (ixN d < 1) || decide (16384 < ixN d), .errFormat, 116),
     (decide (15 < leAt d 118 1) || !gradFmtOk (ixFmt d), .errFormat, 118),
     (decide (1 < leAt d 119 1), .errFormat, 119),
     (!f32IsFinite (wordAt d 120), .errFormat, 120),
     ((d.drop 124).any (· != 0), .errFormat, 124)] ++
    indexAlign s x false ++ indexChecks x (4 * ixN d) ++
    [(decide ((opd x 4).len < ixBags x * elemBytes (ixFmt d) (ixN d)), .errFormat, 104)])

/-- The bag of an index. -/
def bagOf (offs : List Nat) (i : Nat) : Nat := (offs.filter (fun o => decide (o ≤ i))).length - 1

/-- The addends of an index: gradient, GSCALE, weight, bag count (R196). -/
def scatterAddends (x : JobSt) (b : Bytes) (w : BitVec 32) (n : Nat) : List (BitVec 32) :=
  let d := x.desc
  (gradRow (ixFmt d) (ixN d) b (wordAt d 120)).map (fun v =>
    let y := if (opd x 3).len = 0 then v else f32Mul v w
    if leAt d 119 1 = 1 then f32Div y (f32OfNat n) else y)

/-- Are the indices of a bag, `n` of them from `i` on, all rows of the table? No part of a bag with one that is not is applied
(R195), so they are judged before the bag's first addition (log entry 102). -/
def bagRows (j : Nat) (x : JobSt) : Nat → Nat → State → BagRes × State
  | 0, _, s => (.ok [], s)
  | n + 1, i, s =>
    match listRead j 1 (4 * i) 4 s with
    | (.blocked, s1) => (.wait, s1)
    | (.err st _, s1) => (.err i st, s1)
    | (.ok b, s1) => if ixRows x ≤ leAt b 0 4 then (.err i .errFormat, s1) else bagRows j x n (i + 1) s1

/-- SCATTER_ADD on from index `stage`. -/
def scatterFrom (j : Nat) (offs : List Nat) : Nat → State → State
  | 0, s => s
  | n + 1, s =>
    match getJob? s j with
    | none => s
    | some x =>
      let d := x.desc
      let i := x.stage
      let row := elemBytes (ixFmt d) (ixN d)
      if ixCount x ≤ i then endJobResult j .ok i s
      else
        let b := bagOf offs i
        let bag := if i = offs.getD b 0 then offs.getD (b + 1) 0 - i else 0
        match bagRows j x bag i s with
        | (.wait, s0) => s0
        | (.err k st, s0) => endJob j st (detail 2 k) i 0 s0
        | (.ok _, s0) =>
          match indexAt j x i s0 with
          | (.error none, s1) => s1
          | (.error (some st), s1) => endJob j st (detail 2 i) i 0 s1
          | (.ok (r, w), s1) =>
            if ixRows x ≤ r then endJob j .errFormat (detail 2 i) i 0 s1
            else
              match opRead j 0 4 (opd x 4) (b * row) row (b * row) s1 with
              | (.blocked, s2) => s2
              | (.err st off, s2) => endJob j st (detail 3 (off / 64 * 64)) i 0 s2
              | (.ok g, s2) =>
                match reduceRow j x (opd x 0) (r * ixStride d)
                    (scatterAddends x g w (offs.getD (b + 1) 0 - offs.getD b 0)) false s2 with
                | (.blocked, s3) => s3
                | (.err st _, s3) => endJob j st (detail 2 i) i 0 s3
                | (.ok _, s3) =>
                  let s4 := setStage j (i + 1) (dropRemote j (pbump x.part 0x6620 4 1 s3))
                  if tileShared s4 j then s4 else scatterFrom j offs n s4

/-- SCATTER_ADD (R196). -/
def execScatterAdd (job : Nat) (s : State) : Out :=
  .next (match runningJob? s job 0x22 with
    | none => s
    | some x =>
      withOffsets job x (scatterCheck s x) (fun offs s => scatterFrom job offs (ixCount x + 1) s) s)

/-! ## EXPERT_STREAM (R197-R201) -/

def exMask (d : Bytes) : Nat := leAt d 64 8
def exWin (d : Bytes) : Nat := leAt d 72 1 % 4
def exKey (d : Bytes) : Nat := leAt d 76 4

/-- The dispatch checks of EXPERT_STREAM. -/
def expertCheck (s : State) (x : JobSt) : Option (Status × Nat) :=
  let d := x.desc
  firstFail (rsvdChecks d [32, 48] ++
    [(exMask d == 0, .errFormat, 64), (decide (3 < leAt d 72 1), .errFormat, 72), (decide (1 < leAt d 73 1), .errFormat, 73),
     (decide (1000 < leAt d 74 2), .errFormat, 74), ((d.drop 80).any (· != 0), .errFormat, 80)] ++
    vaChecks d [32, 48] ++
    [((opd x 0).len % 32 != 0, .errAlign, 40), (!targetLocal s x, .errPermission, 32),
     (!membersGranted s x.part (exMask d) (exWin d), .errPermission, 64),
     (decide ((opd x 0).len < 32), .errFormat, 40), (decide ((opd x 1).len < (opd x 0).len), .errFormat, 56),
     (!extentsIn (opd x 1) (exMask d) (exWin d), .errFormat, 48)])

/-- Does a job match a group's first job (R198)? -/
def expertMatches (a b : JobSt) : Bool :=
  exKey a.desc == exKey b.desc && exWin a.desc == exWin b.desc && (opd a 0).len == (opd b 0).len &&
  (opd a 0).exts == (opd b 0).exts &&
  (opd a 1).exts.map (fun e => (e.addr, e.len)) == (opd b 1).exts.map (fun e => (e.addr, e.len))

/-- The group a job may join: open, of its partition, matching its first job. -/
def openGroupFor (s : State) (x : JobSt) : Option Nat :=
  (s.work.groups.find? (fun e => !e.2.closed && e.2.part == x.part && decide (s.ptime < e.2.closeAt) &&
    (match getJob? s e.1 with | some f => expertMatches f x | none => false))).map (·.1)

/-- The group a job belongs to. -/
def groupOf (s : State) (j : Nat) : Option (Nat × ExpGroup) := s.work.groups.find? (fun e => e.2.jobs.contains j)

def putGroup (k : Nat) (g : ExpGroup) (s : State) : State :=
  { s with work := { s.work with groups := smPut k g s.work.groups } }

def updGroup (k : Nat) (f : ExpGroup → ExpGroup) (s : State) : State :=
  { s with work := { s.work with groups := smAlter k f s.work.groups } }

/-- The coalescing window of a job in µs: 0 where it is sent at once. -/
def expertWindow (s : State) (x : JobSt) : Nat :=
  if leAt x.desc 73 1 = 1 then 0
  else if leAt x.desc 74 2 = 0 then obj s 0x2620 0 else leAt x.desc 74 2

/-- A job at its dispatch: it joins an open group, opens one, or becomes a group of its own (R198). -/
def expertDispatch (j : Nat) (x : JobSt) (s : State) : State :=
  let s1 := pbump x.part 0x6620 5 1 s
  let us := expertWindow s x
  let g0 : ExpGroup := {
    part := x.part, jobs := [j], closeAt := x.started + us * 1000, closed := false, sent := 0
    outstanding := 0, skipped := 0, failed := 0, err := none }
  let opened := s.work.groups.filter (fun e => !e.2.closed)
  if us = 0 then putGroup j { g0 with closed := true } s1
  else
    match openGroupFor s x with
    | some k => updGroup k (fun g => { g with jobs := g.jobs ++ [j] }) (pbump x.part 0x6620 6 1 s1)
    | none =>
      if obj s 0x4620 (x.part + 1) ≤ (opened.filter (fun e => e.2.part == x.part)).length ∨ 64 ≤ opened.length then
        putGroup j { g0 with closed := true } s1
      else putGroup j g0 s1

/-- A job is out of its group; a group without jobs is gone. -/
def leaveGroup (j : Nat) (s : State) : State :=
  { s with work := { s.work with groups :=
      (s.work.groups.map (fun e => (e.1, { e.2 with jobs := e.2.jobs.filter (· != j) }))).filter (fun e => !e.2.jobs.isEmpty) } }

/-- The members of a mask that still have to acknowledge something of a group. -/
def owingMembers (s : State) (k mask win : Nat) : List Nat :=
  (mcMembers mask win).filter (fun e =>
    s.fabric.waiting.any (fun o => o.job == some k) || s.fabric.mcOut.any (fun m => m.2.job == k && m.2.members.contains e))

/-- The number of a job's members that have been delivered the whole blob of `len` bytes (R200). -/
def delivered (s : State) (k : Nat) (x : JobSt) (g : ExpGroup) (len : Nat) : Nat :=
  let win := exWin x.desc
  if 32 * g.sent < len then 0
  else ((mcMembers (exMask x.desc) win).filter (fun e =>
    !(owingMembers s k (exMask x.desc) win).contains e && !bitOf g.skipped e)).length

/-- The members of a job's mask that have received none of the data, or are skipped (R181, R200). -/
def groupSkipped (x : JobSt) (g : ExpGroup) : Nat :=
  if g.sent = 0 then exMask x.desc else windowBits g.skipped (exWin x.desc) &&& exMask x.desc

/-- End every job of a group with one status: DETAIL as given, SKIPPED where R181 says so, else of its open layout; RESULT the
members delivered (R182, R200). -/
def failGroup (k : Nat) (g : ExpGroup) (st : Status) (det : Option Nat) (s : State) : State :=
  let len := match getJob? s k with | some f => (opd f 0).len | none => 0
  let s1 := { s with work := { s.work with groups := smErase k s.work.groups } }
  g.jobs.foldl (fun s1 j =>
    match getJob? s j with
    | none => s1
    | some x =>
      let n := delivered s k x g len
      if skippedStatus st then endJob j st (groupSkipped x g) n 0 s1
      else match det with | some d => endJob j st d n 0 s1 | none => endJobResult j st n s1) s1

/-- The source block of groups is withdrawn: every job of a group that reads from it ends FENCED (R201). -/
def fenceGroups (p : Nat) (holds : JobSt → Bool) (s : State) : State :=
  s.work.groups.foldl (fun s e =>
    match getJob? s e.1 with
    | some x => if e.2.part = p ∧ holds x = true then failGroup e.1 e.2 .fenced none s else s
    | none => s) s

/-- The mask of a group: the OR of its jobs' masks. -/
def groupMask (s : State) (g : ExpGroup) : Nat :=
  g.jobs.foldl (fun m j => match getJob? s j with | some x => m ||| exMask x.desc | none => m) 0

/-- Send the blob on from the sectors sent, with the group mask (R199, R201). -/
def expertFrom (k : Nat) : Nat → State → State
  | 0, s => s
  | n + 1, s =>
    match getJob? s k, smFind? k s.work.groups with
    | some x, some g =>
      let off := 32 * g.sent
      let len := (opd x 0).len
      if len ≤ off then s
      else
        let m := min 256 (len - off)
        match opRead k 0 0 (opd x 0) off m off s with
        | (.blocked, s1) => s1
        | (.err st at_, s1) => failGroup k g st (some (detail 3 (at_ / 64 * 64))) s1
        | (.ok b, s1) =>
          match mcWrite k 2 (groupMask s g) (exWin x.desc) (opd x 1) off b s1 with
          | (false, s2) => s2
          | (true, s2) => expertFrom k n (updGroup k (fun g => { g with sent := g.sent + m / 32 }) s2)
    | _, _ => s

/-- Is a member of a mask still to acknowledge something of a group? -/
def groupOwes (s : State) (k mask win : Nat) : Bool := !(owingMembers s k mask win).isEmpty

/-- The end of a job of a closed group whose blob has been sent (R200). -/
def expertEnd (j k : Nat) (x : JobSt) (g : ExpGroup) (len : Nat) (s : State) : State :=
  let win := exWin x.desc
  let mask := exMask x.desc
  if 32 * g.sent < len then s
  else if g.err.isSome then failGroup k g (g.err.getD .errKey) none s
  else if groupOwes s k mask win then s
  else
    let sk := windowBits g.skipped win &&& mask
    let bad := windowBits g.failed win &&& mask
    leaveGroup j (endJob j (mcOutcome mask sk bad) sk (ones64 mask - ones64 sk) 0 (pbump x.part 0x6620 7 (ones64 sk) s))

/-- A closed group goes on, and a job of it ends if it can. -/
def expertRun (j k : Nat) (s : State) : State :=
  let s1 := match getJob? s k with
    | some first => expertFrom k ((opd first 0).len / 32 + 1) s
    | none => s
  match getJob? s1 j, smFind? k s1.work.groups with
  | some x, some g => if x.phase = .running then expertEnd j k x g (opd x 0).len s1 else s1
  | _, _ => s1

/-- EXPERT_STREAM: at its dispatch the job joins or opens a group; later the group goes on (R198-R200). -/
def execExpertStream (job : Nat) (s : State) : Out :=
  .next (match runningJob? s job 0x40 with
    | none => s
    | some x =>
      match groupOf s job with
      | some (k, g) => if g.closed then expertRun job k s else s
      | none =>
        match expertCheck s x with
        | some (st, off) => endJobDetail job st (detail 0 off) s
        | none =>
          let s1 := expertDispatch job x s
          match smFind? job s1.work.groups with
          | some g => if g.closed then expertRun job job s1 else s1
          | none => s1)

/-- A group's window has passed: it closes, and the blob is read (R198, R199). -/
def execExpertGroupClose (group : Nat) (s : State) : Out :=
  .next (match smFind? group s.work.groups with
    | none => s
    | some g =>
      if g.closed || decide (s.ptime < g.closeAt) || fencing s g.part then s
      else expertRun group group (updGroup group (fun g => { g with closed := true }) s))

end Sys2Proof.Machine
end

