-- ==== Sys2Proof/Machine/Partition.lean ====
section
/-!
DEFINITION. Partitions (spec/16 R351-R357, R368; spec/17 R376): commands, grants, bindings, key-slot runs, what a destroyed
partition leaves to be filled.
-/
namespace Sys2Proof.Machine

/-! ## Key slots of a run (R357, R359) -/

def keyFirst (v : Nat) : Nat := field v 7 0
def keyCount (v : Nat) : Nat := field v 15 8
def partKeys (s : State) (p : Nat) : Nat := obj s 0x2112 (p + 1)

/-- Empty a key slot: both keys cleared (R359). -/
def revokeSlot (k : Nat) (s : State) : State := updSlot k (fun x => { x with state := 0, current := 0, previous := 0 }) s

/-- Revoke every slot of a partition's run (R368 step 1). -/
def revokeRun (p : Nat) (s : State) : State :=
  ((List.range (keyCount (partKeys s p))).map (keyFirst (partKeys s p) + ·)).foldl (fun s k => revokeSlot k s) s

/-! ## Blobs (R369) -/

/-- A blob command ends: its TOKEN, the chunk at fault in bits 15:8 (log entry 27) and its status. -/
def blobEnd (st : Status) (chunk : Nat) (s : State) : State :=
  match s.sec.blob with
  | none => s
  | some b =>
    setObj 0x7031 0 (b.token % 65536 * 65536 + chunk % 256 * 256 + statusCode st)
      { s with sec := { s.sec with blob := none } }

/-- The blocks that a blob command names. -/
def blobBlocks (b : BlobSt) : List Nat :=
  ((List.range (b.srcLen / 2 ^ 28 + 2)).map (b.src / 2 ^ 28 + ·)).filter (fun k => decide (k * 2 ^ 28 < b.src + b.srcLen)) ++
  ((List.range (b.dstLen / 2 ^ 28 + 2)).map (b.dst / 2 ^ 28 + ·)).filter (fun k => decide (k * 2 ^ 28 < b.dst + b.dstLen))

/-- A DESTROY of a partition or the withdrawal of blocks ends a running unwrap with FENCED. -/
def blobFence (hit : BlobSt → Bool) (s : State) : State :=
  match s.sec.blob with
  | some b => if hit b then blobEnd .fenced 0 s else s
  | none => s

/-! ## PART_CMD (R351, R352) -/

/-- A partition command completes: STATUS, and SEQ rises. -/
def partDone (st : Status) (s : State) : State :=
  setObj 0x2101 0 ((field (obj s 0x2101 0) 31 16 + 1) % 65536 * 65536 + statusCode st) s

/-- Does Table 16-2 permit an OP in a state? -/
def partPermits (op st : Nat) : Bool :=
  match op with
  | 1 => st == 0
  | 2 => st == 1
  | 3 => st == 2
  | 4 => st == 1 || st == 2
  | _ => st == 2

/-- A command that has passed its checks. -/
def partPerform (op p : Nat) (s : State) : State :=
  let run (cause : Nat) (cmd : FenceCmd) (s : State) : State :=
    startFence p cause cmd true { s with work := { s.work with cmdRunning := true } }
  match op with
  | 1 => partDone .ok (setPartState p 1 0 s)
  | 2 => partDone .ok (setPartState p 2 0 s)
  | 3 => run 2 .hold s
  | 4 => run 3 .destroy (blobFence (fun b => b.part == some p || (blobBlocks b).any (fun k => partRight s p k != 0)) (revokeRun p s))
  | _ => run 1 .reset s

/-- A write of PART_CMD: the status it is answered with (R351). -/
def opPartCmd (b : Bytes) (s : State) : Status × State :=
  let op := leAt b 0 1
  let p := leAt b 1 1
  let refuse (st : Status) : Status × State := (st, partDone st s)
  if s.work.cmdRunning = true ∨ s.ready = false then (.retryQueueFull, s)
  else if op = 0 ∨ 5 < op ∨ (slice b 2 14).any (· != 0) = true then refuse .errFormat
  else if geomParts s ≤ p ∨ partPermits op (partState s p) = false ∨ (op = 1 ∧ s.power.closing = true) then refuse .errPermission
  else (.ok, partPerform op p s)

/-- The 16 bytes of a command with an OP. -/
def partCmdBytes (op : Nat) (b : Bytes) : Bytes := splice (slice b 0 16) 0 (leBytes 1 op)

/-- PART_CMD CREATE (R351). -/
def execPartCmdCreate (cmd : Bytes) (s : State) : Out := .next (answerFm 0x2100 0 (opPartCmd (partCmdBytes 1 cmd) s))
/-- PART_CMD START (R351). -/
def execPartCmdStart (cmd : Bytes) (s : State) : Out := .next (answerFm 0x2100 0 (opPartCmd (partCmdBytes 2 cmd) s))
/-- PART_CMD HOLD (R351). -/
def execPartCmdHold (cmd : Bytes) (s : State) : Out := .next (answerFm 0x2100 0 (opPartCmd (partCmdBytes 3 cmd) s))
/-- PART_CMD DESTROY (R368). -/
def execPartCmdDestroy (cmd : Bytes) (s : State) : Out := .next (answerFm 0x2100 0 (opPartCmd (partCmdBytes 4 cmd) s))
/-- PART_CMD RESET (R374). -/
def execPartCmdReset (cmd : Bytes) (s : State) : Out := .next (answerFm 0x2100 0 (opPartCmd (partCmdBytes 5 cmd) s))

/-- A write of PART_SELF_RESET by a partition's driver (R376). -/
def opSelfReset (p v : Nat) (s : State) : Status × State :=
  if v ≠ 1 then (.errFormat, s)
  else if s.work.cmdRunning = true ∨ s.ready = false ∨ partState s p ≠ 2 then (.ok, s)
  else (.ok, startFence p 4 .reset true { s with work := { s.work with cmdRunning := true } })

/-- PART_SELF_RESET is written. -/
def execPartSelfReset (part value : Nat) (s : State) : Out := .next (answerCmd (opSelfReset part value s))

/-! ## Grants (R353-R355) -/

/-- Every block number a grant table has room for. -/
def allBlocks : List Nat := List.range 3584

/-- Does a block drain or fill (R353, R368)? -/
def blockBusy (s : State) (b : Nat) : Bool :=
  s.work.fills.any (fun f => f.1 == b) || s.work.parts.any (fun e => e.2.drains.any (fun d => d.block == b))

/-- Does a job hold extents in a block, write or atomic ones only when `w` (R353)? -/
def holdsBlock (s : State) (x : JobSt) (b : Nat) (w : Bool) : Bool :=
  x.operands.any (fun o => (!w || o.kind != .read) &&
    o.exts.any (fun e => e.ep == ownEp s && decide (e.len ≠ 0) && decide (e.addr / 2 ^ 28 ≤ b) && decide (b ≤ (e.addr + e.len - 1) / 2 ^ 28)))

/-- Complete with FENCED the sealed jobs of a partition that hold such extents and have not started. -/
def fenceSealed (p b : Nat) (w : Bool) (s : State) : State :=
  s.work.jobs.foldl (fun s e =>
    if e.2.part = p ∧ e.2.phase = .sealed ∧ holdsBlock s e.2 b w = true then endJobFree e.1 .fenced 0 s else s) s

/-- Does a job's first operand, the SRC of an EXPERT_STREAM, lie in a block? -/
def readsBlock (s : State) (b : Nat) (x : JobSt) : Bool :=
  (opd x 0).exts.any (fun e => e.ep == ownEp s && decide (e.len ≠ 0) && decide (e.addr / 2 ^ 28 ≤ b) &&
    decide (b ≤ (e.addr + e.len - 1) / 2 ^ 28))

/-- A write of PART_BLOCKS (R353): rights given at once, a right taken away at once with its drain, a right lowered after
its drain. -/
def opPartBlocks (p v : Nat) (s : State) : Status × State :=
  let old := obj s 0x2110 (p + 1)
  let pairs := (List.range 3584).filter (fun b => rightIn v b != rightIn old b)
  let other (b : Nat) : Bool := (List.range 64).any (fun q => q != p && partRight s q b == 2)
  if geomParts s ≤ p then (.errPermission, s)
  else if v >>> 7168 ≠ 0 ∨ allBlocks.any (fun b => rightIn v b == 3) = true then (.errFormat, s)
  else if allBlocks.any (fun b => rightIn v b != 0 && (decide (geomBlocks s ≤ b) || (rightIn v b == 2 && other b))) = true then
    (.errPermission, s)
  else if pairs.any (blockBusy s) = true then (.retryQueueFull, s)
  else
    let lower := pairs.filter (fun b => rightIn v b == 1 && rightIn old b == 2)
    let gone := pairs.filter (fun b => rightIn v b == 0)
    let kept := lower.foldl (fun v b => putField v (2 * b + 1) (2 * b) 2) v
    let s1 := setObj 0x2110 (p + 1) kept s
    let s2 := updPart p (fun x => { x with
      drains := x.drains ++ gone.map (fun b => { block := b, right := 0 }) ++ lower.map (fun b => { block := b, right := 1 }) }) s1
    let s3 := gone.foldl (fun s b => fenceGroups p (readsBlock s b) (fenceSealed p b false s)) s2
    let s4 := lower.foldl (fun s b => fenceSealed p b true s) s3
    (.ok, if gone.isEmpty then s4 else blobFence (fun b => (blobBlocks b).any gone.contains) s4)

/-- PART_BLOCKS is written. -/
def execPartBlocksWrite (part value : Nat) (s : State) : Out := .next (answerFm 0x2110 (part + 1) (opPartBlocks part value s))

/-- A block that has lost a grant: filled when no grant and no region remains on it (R368). -/
def fillIfFree (b : Nat) (part : Option Nat) (s : State) : State :=
  if blockGranted s b || (regionOfBlock? s b).isSome || s.work.fills.any (fun f => f.1 == b) then s
  else { s with work := { s.work with fills := s.work.fills ++ [(b, part)] } }

/-- The drain of a withdrawn or lowered block ends, once the partition is under no fence (R385) and no job holds such an
extent any more; jobs sealed meanwhile that have not started end FENCED. -/
def execBlockWithdrawalDrainEnd (part block : Nat) (s : State) : Out :=
  .next (match (getPart s part).drains.find? (fun d => d.block == block) with
    | none => s
    | some d =>
      let w := d.right == 1
      if fencing s part then s
      else if s.work.jobs.any (fun e => e.2.part == part && holdsBlock s e.2 block w) then fenceSealed part block w s
      else
        let s1 := updPart part (fun x => { x with drains := x.drains.filter (fun d => d.block != block) }) s
        if w then setObj 0x2110 (part + 1) (putField (obj s 0x2110 (part + 1)) (2 * block + 1) (2 * block) 1) s1
        else fillIfFree block none s1)

/-- The zero fill of a withdrawn block ends: R100's INIT bit, R368's count; not while a copy of a line is awaited. -/
def fillDone (b : Nat) (s : State) : State :=
  let x := fillBlock b s
  if x.1 then bump 0x3111 0 { x.2 with work := { x.2.work with fills := x.2.work.fills.filter (fun f => f.1 != b) } } else x.2

/-- The fill of a withdrawn block ends (R368). -/
def execWithdrawnBlockFillDone (block : Nat) (s : State) : Out :=
  .next (if s.work.fills.contains (block, none) then fillDone block s else s)

/-- The last sanitising fill of a destroyed partition ends: every block is zero, and it becomes FREE (R368 steps 4, 5). -/
def execSanitisingFillDone (part : Nat) (s : State) : Out :=
  .next (if partState s part = 4 then
      let s1 := (s.work.fills.filter (fun f => f.2 == some part)).foldl (fun s f => fillDone f.1 s) s
      if s1.work.fills.any (fun f => f.2 == some part) then s1 else setPartState part 0 0 s1
    else s)

/-- A write of PART_EP_GRANT (R354). -/
def opPartEpGrant (p v : Nat) (s : State) : Status × State :=
  if geomParts s ≤ p then (.errPermission, s)
  else if v >>> 256 ≠ 0 then (.errFormat, s) else (.ok, setObj 0x2111 (p + 1) v s)

/-- Set a source endpoint's grant table. -/
def setEpGrant (e v : Nat) (s : State) : State := if e < 128 then setObj 0x2120 (e + 1) v s else setObj 0x2121 (e - 127) v s

/-- A write of a source endpoint's grant table (R355, R368, R33). -/
def opEpGrant (e v : Nat) (s : State) : Status × State :=
  if v >>> 7296 ≠ 0 ∨ (List.range 3648).any (fun i => rightIn v i == 3) = true then (.errFormat, s)
  else if allBlocks.any (fun b => decide (geomBlocks s ≤ b) && rightIn v b != 0) = true ∨
      (List.range 64).any (fun p => decide (geomParts s ≤ p) && rightIn v (3584 + p) != 0) = true then (.errPermission, s)
  else if allBlocks.any (fun b => rightIn v b != rightIn (epGrant s e) b && blockBusy s b) = true then (.retryQueueFull, s)
  else (.ok, setEpGrant e v s)

/-- A write of EP_PARTITION (R356). -/
def opEpPartition (v : Nat) (s : State) : Status × State :=
  if v >>> 2048 ≠ 0 then (.errFormat, s)
  else if (List.range 256).any (fun e =>
      field v (8 * e + 7) (8 * e) != 0xFF && decide (geomParts s ≤ field v (8 * e + 7) (8 * e))) = true then (.errPermission, s)
  else (.ok, setObj 0x2122 0 v s)

/-- EP_PARTITION is written. -/
def execEpPartitionWrite (value : Nat) (s : State) : Out := .next (answerFm 0x2122 0 (opEpPartition value s))

/-- A write of PART_KEYS (R357). -/
def opPartKeys (p v : Nat) (s : State) : Status × State :=
  let old := partKeys s p
  let overlaps (q : Nat) : Bool :=
    let o := partKeys s q
    q != p && decide (keyCount o ≠ 0) && decide (keyCount v ≠ 0) &&
    decide (keyFirst o < keyFirst v + keyCount v) && decide (keyFirst v < keyFirst o + keyCount o)
  if geomParts s ≤ p then (.errPermission, s)
  else if 2 ^ 25 ≤ v ∨ (field v 23 16 ≠ 0xFF ∧ keyCount v ≤ field v 23 16) then (.errFormat, s)
  else if (keyCount v ≠ 0 ∧ 0xF0 < keyFirst v + keyCount v) ∨ (List.range 64).any overlaps = true ∨
      (v % 2 ^ 24 ≠ old % 2 ^ 24 ∧ partHeld s p = false) then (.errPermission, s)
  else (.ok, setObj 0x2112 (p + 1) v s)

/-- PART_KEYS is written. -/
def execPartKeysWrite (part value : Nat) (s : State) : Out := .next (answerFm 0x2112 (part + 1) (opPartKeys part value s))

end Sys2Proof.Machine
end

