-- ==== Sys2Proof/Machine/Security.lean ====
section
/-!
DEFINITION. Keys, attestation and weight blobs (spec/16 R356-R369).
-/
namespace Sys2Proof.Machine

/-! ## Wrapped keys (R359) -/

/-- A 32-byte string as a key. -/
def keyOf (b : Bytes) : BitVec 256 := BitVec.ofNat 256 (leAt b 0 32)

/-- The KEK: the first 32 bytes of SHA-384 over Z, a label and bytes of the command or blob (R359). -/
def kekOf (epub label bound : Bytes) : Option (BitVec 256) :=
  (kaShared epub).map (fun z => keyOf (slice (sha384 (z ++ label ++ bound)) 0 32))

/-- Open a wrapped key: nonce of 12 zero bytes, the same bytes as additional data. -/
def unwrapKey (epub label bound wkey tag : Bytes) : Option (BitVec 256) :=
  match kekOf epub label bound with
  | some kek => (gcmOpen kek (zeros 12) bound wkey tag).map keyOf
  | none => none

/-- ASCII labels: DXWKW1, DXWBL1, DXWFM1. -/
def labelKey : Bytes := leBytes 6 0x31574B575844
def labelBlob : Bytes := leBytes 6 0x314C42575844
def labelFm : Bytes := leBytes 6 0x314D46575844

/-- The unwrapped key of a command of Table 16-4, if its checks hold. -/
def commandKey (label cmd : Bytes) : Option (BitVec 256) :=
  unwrapKey (slice cmd 8 97) label (slice cmd 0 8) (slice cmd 112 32) (slice cmd 144 16)

/-- KEY_SLOT_STATUS: STATUS, and SEQ rises. -/
def keyDone (st : Status) (s : State) : State :=
  setObj 0x7021 0 ((field (obj s 0x7021 0) 31 16 + 1) % 65536 * 65536 + statusCode st) s

/-- The partition whose run holds a slot. -/
def slotPart? (s : State) (k : Nat) : Option Nat :=
  (List.range 64).find? (fun p => decide (keyFirst (partKeys s p) ≤ k) && decide (k < keyFirst (partKeys s p) + keyCount (partKeys s p)))

/-- What a command does to its slot, or its refusal; `by_` is the partition driver that writes it, none for FM. -/
def keySlotRun (by_ : Option Nat) (cmd : Bytes) (s : State) : Status × State :=
  let op := leAt cmd 0 1
  let k := leAt cmd 1 1
  let part := by_.getD 0xFF
  let epoch := leAt cmd 2 2
  if op = 0 ∨ 3 < op ∨ (op ≠ 3 ∧ ((slice cmd 105 7).any (· != 0) || (slice cmd 160 16).any (· != 0)) = true) then (.errFormat, s)
  else if 0xF0 ≤ k ∨ obj s 0x1110 0 ≤ k ∨ (by_.isSome = true ∧ slotPart? s k ≠ by_) then (.errPermission, s)
  else if s.power.debug = 2 ∨ leAt cmd 4 4 ≠ Config.serial.toNat % 2 ^ 32 then (.errKey, s)
  else
    match op with
    | 3 => (.ok, revokeSlot k s)
    | _ =>
      match commandKey labelKey cmd with
      | none => (.errKey, s)
      | some key =>
        (.ok, updSlot k (fun x =>
          if op = 1 then { state := 1, part := part, epoch := epoch, current := key, previous := 0 }
          else { state := 2, part := part, epoch := epoch, current := key, previous := x.current }) s)

/-- A write of KEY_SLOT_CMD: the status it is answered with and reports. -/
def opKeySlot (by_ : Option Nat) (cmd : Bytes) (s : State) : Status × State :=
  let r := keySlotRun by_ cmd s
  let s1 := keyDone r.1 r.2
  (r.1, match r.1, slotPart? s (leAt cmd 1 1) with
    | .ok, some p => pbump p 0x6120 2 1 s1
    | _, _ => s1)

/-- The 176 bytes of a command with an OP. -/
def keyCmdBytes (op : Nat) (b : Bytes) : Bytes := splice (slice b 0 176) 0 (leBytes 1 op)

/-- KEY_SLOT_CMD INSTALL (R359). -/
def execInstall (driver : Option Nat) (cmd : Bytes) (s : State) : Out := .next (answerBy driver 0x7020 (opKeySlot driver (keyCmdBytes 1 cmd) s))
/-- KEY_SLOT_CMD ROLL (R359). -/
def execRoll (driver : Option Nat) (cmd : Bytes) (s : State) : Out := .next (answerBy driver 0x7020 (opKeySlot driver (keyCmdBytes 2 cmd) s))
/-- KEY_SLOT_CMD REVOKE (R359). -/
def execRevoke (driver : Option Nat) (cmd : Bytes) (s : State) : Out := .next (answerBy driver 0x7020 (opKeySlot driver (keyCmdBytes 3 cmd) s))

/-- KEY_ROLL_US after a roll, PREVIOUS is cleared (R359). -/
def execKeyRollExpiry (slot : Nat) (s : State) : Out :=
  .next (if (getSlot s slot).state = 2 then updSlot slot (fun x => { x with state := 1, previous := 0 }) s else s)

/-! ## Attestation (R365, R366) -/

/-- A write of ATTESTATION_REQUEST. -/
def opAttest (by_ : Option Nat) (req : Bytes) (s : State) : Status × State :=
  let scope := leAt req 32 1
  let part := leAt req 33 1
  if 1 < scope ∨ leAt req 34 2 ≠ 0 ∨ req.length ≠ 36 then (.errFormat, s)
  else if (by_.isSome = true ∧ (scope = 0 ∨ by_ ≠ some part)) ∨ (scope = 1 ∧ geomParts s ≤ part) then (.errPermission, s)
  else (.ok, { s with sec := { s.sec with attest := some (slice req 0 32, scope, if scope = 0 then 0xFF else part) } })

/-- ATTESTATION_REQUEST is written. -/
def execAttestationRequest (driver : Option Nat) (req : Bytes) (s : State) : Out := .next (answerBy driver 0x7010 (opAttest driver req s))

/-- The QUEUE_ASSIGN fields of a partition. -/
def queueAssignOf (s : State) (p : Nat) : Nat := (getPart s p).qFirst + (getPart s p).qCount * 2 ^ 12 + p * 2 ^ 24

/-- The configuration record of a partition (R366; log entry 28). -/
def configRecord (s : State) (p : Nat) : Bytes :=
  leBytes 896 (obj s 0x2110 (p + 1)) ++ leBytes 32 (obj s 0x2111 (p + 1)) ++ leBytes 4 (partKeys s p) ++
  leBytes 8 ((partTiles s p).foldl (fun m t => putBit m t true) 0) ++
  leBytes 4 (queueAssignOf s p) ++ leBytes 8 (syncRange s p) ++
  leBytes 1 (obj s 0x2610 (p + 1)) ++ leBytes 1 (obj s 0x2630 (p + 1)) ++
  ((List.range (keyCount (partKeys s p))).map (fun i => leBytes 2 (getSlot s (keyFirst (partKeys s p) + i)).epoch)).flatten ++
  leBytes 32 ((List.range 256).foldl (fun m e => if epPartition s e = p then putBit m e true else m) 0)

/-- FIRMWARE_DIGESTS (R441). -/
def firmwareDigests (s : State) : Bytes :=
  let d := match s.power.image with
    | some i => slice i 32 96 ++ slice i 6 1
    | none => zeros 97
  leBytes 48 Config.romDigest.toNat ++ d ++ leBytes 1 s.mram.rollback ++ zeros 14

/-- The report of Table 16-6. -/
def attestReport (s : State) (nonce : Bytes) (scope part : Nat) : Bytes :=
  let slot := if scope = 1 then liveSlot? s part else none
  let config := if scope = 1 then configRecord s part
    else ((List.range 64).map (configRecord s)).flatten ++ leBytes 256 (obj s 0x2122 0)
  let body := leBytes 2 1 ++ leBytes 1 scope ++ leBytes 1 part ++ leBytes 1 s.power.debug ++ zeros 3 ++ slice nonce 0 32 ++
    leBytes 8 s.ptime ++ leBytes 8 Config.serial.toNat ++ leBytes 4 s.mram.hours ++ leBytes 4 s.mram.rollback ++
    slice (firmwareDigests s) 0 96 ++ slice (sha384 config) 0 48 ++
    (match slot with | some k => slice (aes256 k.current (zeros 16)) 0 8 ++ leBytes 2 k.epoch | none => zeros 10) ++
    zeros 6 ++ slice kaPubkey 0 97 ++ zeros 31
  body ++ slice (attestSign s.fresh body) 0 96

/-- The report of the last request accepted is ready (R365). -/
def execAttestationReportReady (s : State) : Out :=
  .next (match s.sec.attest with
    | some (nonce, scope, part) =>
      setObj 0x7011 0 (leAt (attestReport s nonce scope part) 0 448) { s with fresh := s.fresh + 1, sec := { s.sec with attest := none } }
    | none => s)

/-! ## Weight blobs (R369) -/

/-- Read bytes of the pool through Bassoon. -/
def bassoonRead (pa len : Nat) (s : State) : MemResult × State :=
  if len = 0 then (.ok [], s)
  else
    match tryMem .blob .bassoon (.read (pa / 64 * 64) ((pa % 64 + len + 63) / 64 * 64)) s with
    | (.ok d, s1) => (.ok (slice d (pa % 64) len), s1)
    | r => r

/-- Is the header of a blob one of Table 16-7 that fits its source and destination? -/
def blobForm (h : Bytes) (srcLen dstLen : Nat) : Bool :=
  let n := leAt h 6 2
  let l := leAt h 16 1
  leAt h 0 4 == 0x314C4257 && leAt h 4 2 == 1 && decide (1 ≤ n) && decide (n ≤ 64) && decide (12 ≤ l) && decide (l ≤ 24) &&
  (slice h 17 15).all (· == 0) && (slice h 129 31).all (· == 0) && decide (leAt h 8 8 ≤ dstLen) &&
  decide (160 + 64 * n + leAt h 8 8 + 64 * ((leAt h 8 8 + 2 ^ l - 1) / 2 ^ l) ≤ srcLen)

/-- This module's entry among the devices. -/
def blobEntry? (h : Bytes) : Option Nat :=
  (List.range (leAt h 6 2)).find? (fun i => slice h (160 + 64 * i) 16 == slice (sha384 kaPubkey) 0 16)

/-- Steps 1 to 3 of R369 on the blob's header; none while it has to wait. -/
def blobOpen (b : BlobSt) (s : State) : Option (Except Status BlobSt) × State :=
  match bassoonRead b.src (min b.srcLen 4256) s with
  | (.blocked, s1) => (none, s1)
  | (.err st, s1) => (some (.error st), s1)
  | (.ok h, s1) =>
    if b.srcLen < 160 ∨ blobForm h b.srcLen b.dstLen = false then (some (.error .errFormat), s1)
    else
      match blobEntry? h with
      | none => (some (.error .errKey), s1)
      | some i =>
        let bound := slice h 0 129
        match unwrapKey (slice h 32 97) labelBlob bound (slice h (176 + 64 * i) 32) (slice h (208 + 64 * i) 16) with
        | none => (some (.error .errKey), s1)
        | some k =>
          (some (.ok { b with plen := leAt h 8 8, chunkLog2 := leAt h 16 1, chunksAt := 160 + 64 * leAt h 6 2, key := some k, aad := bound }), s1)

/-- The blob is open in full: OK, and the count of its partition (Table 16-8). -/
def blobDone (b : BlobSt) (s : State) : State :=
  let s1 := blobEnd .ok 0 s
  match b.part with
  | some p => pbump p 0x6120 3 1 s1
  | none => s1

/-- Keep an unwrap that goes on; one with no chunk left is done. -/
def blobKeep (b : BlobSt) (s : State) : State :=
  let s1 := { s with sec := { s.sec with blob := some b } }
  if b.key.isSome ∧ b.plen ≤ b.next * 2 ^ b.chunkLog2 then blobDone b s1 else s1

/-- A write of BLOB_UNWRAP_CMD (R369, R367). -/
def opBlob (by_ : Option Nat) (cmd : Bytes) (s : State) : Status × State :=
  let b : BlobSt := { part := by_, token := leAt cmd 28 2, src := leAt cmd 0 8, srcLen := leAt cmd 8 8, dst := leAt cmd 16 8, dstLen := leAt cmd 24 4, plen := 0, chunkLog2 := 0, chunksAt := 0, key := none, aad := [], next := 0 }
  let status (st : Status) (s : State) : State := setObj 0x7031 0 (b.token * 65536 + statusCode st) s
  let inPool (a l : Nat) : Bool := decide (a + l ≤ geomBlocks s * 2 ^ 28)
  let held (right : Nat) (a l : Nat) : Bool :=
    match by_ with
    | none => true
    | some p => ((List.range (l / 2 ^ 28 + 2)).map (a / 2 ^ 28 + ·)).all (fun k => decide (a + l ≤ k * 2 ^ 28) || decide (right ≤ partRight s p k))
  if leAt cmd 30 2 ≠ 0 ∨ cmd.length ≠ 32 then (.errFormat, s)
  else if s.sec.blob.isSome then (.retryQueueFull, s)
  else if inPool b.src b.srcLen = false ∨ inPool b.dst b.dstLen = false ∨ held 1 b.src b.srcLen = false ∨ held 2 b.dst b.dstLen = false then
    (.errPermission, status .errPermission s)
  else if s.power.debug = 2 then (.errKey, status .errKey s)
  else
    match blobOpen b s with
    | (none, s1) => (.ok, blobKeep b s1)
    | (some (.error st), s1) => (st, status st s1)
    | (some (.ok b1), s1) => (.ok, blobKeep b1 s1)

/-- BLOB_UNWRAP_CMD is written. -/
def execBlobUnwrapCmd (driver : Option Nat) (cmd : Bytes) (s : State) : Out := .next (answerBy driver 0x7030 (opBlob driver cmd s))

/-- The decryption of the next chunk ends: its plaintext is written when its tag verifies (R369 step 4). -/
def blobChunk (b : BlobSt) (key : BitVec 256) (s : State) : State :=
  let size := 2 ^ b.chunkLog2
  let n := min size (b.plen - b.next * size)
  match bassoonRead (b.src + b.chunksAt + b.next * (size + 64)) (n + 16) s with
  | (.blocked, s1) => s1
  | (.err st, s1) => blobEnd st b.next s1
  | (.ok d, s1) =>
    match gcmOpen key (leBytes 8 b.next ++ zeros 4) b.aad (slice d 0 n) (slice d n 16) with
    | none => blobEnd .errKey b.next s1
    | some plain =>
      match tryMem .blob .bassoon (.write (b.dst + b.next * size) ((slice plain 0 n).map some)) s1 with
      | (.blocked, s2) => s2
      | (.err st, s2) => blobEnd st b.next s2
      | (.ok _, s2) => blobKeep { b with next := b.next + 1 } s2

/-- A chunk's decryption ends. -/
def execBlobChunkDone (s : State) : Out :=
  .next (match s.sec.blob with
    | none => s
    | some b =>
      match b.key with
      | some k => blobChunk b k s
      | none =>
        match blobOpen b s with
        | (none, s1) => s1
        | (some (.error st), s1) => blobEnd st 0 s1
        | (some (.ok b1), s1) => blobKeep b1 s1)

end Sys2Proof.Machine
end

