-- ==== Sys2Proof/Machine/Reset.lean ====
section
/-!
DEFINITION. What resets and losses of power do (spec/17 R383, R384; spec/19 R404, R406, R413; spec/21 R438; spec/16
R360, R368): objects that keep their values, islands that lose their state, the steps of a removal, starts.
-/
namespace Sys2Proof.Machine

/-! ## Objects (R438, Table 17-4) -/

/-- Keep the objects whose row satisfies a test; every other one takes its default. -/
def keepObjs (f : ObjRow → Bool) (s : State) : State :=
  { s with objs := s.objs.filter (fun e =>
      match objRow? ((e.1 % 2 ^ 24) / 256) (e.1 % 256) with
      | some r => f r
      | none => false) }

/-- What stands after a module reset: RWS objects, counters, the geometry, and the objects R438, R384 and R383 name. -/
def keptByReset (r : ObjRow) : Bool :=
  (match r.kind with | .rws => true | .counter => true | .counterRws => true | .const => true | _ => false) ||
  (decide (0x1100 ≤ r.index) && decide (r.index < 0x1200)) ||
  [0x2210, 0x3110, 0x3300, 0x3901, 0x4301, 0x6901].contains r.index

/-- What stands in M3 and after a protective shutdown, whose counters have been committed (Table 19-3, R406, R431). -/
def keptByPower (r : ObjRow) : Bool := r.kind == .rws || r.kind == .counterRws

/-- Commit an RWS counter to MRAM, unless the copies hold its value already. -/
def commitCounter (k : Nat) (s : State) : State :=
  let (p, i, u) := objOfKey k
  let v := pobj s p i u
  if (mramCopy p i u s.mram.copyA).value = v ∧ (mramCopy p i u s.mram.copyB).value = v then s else { s with mram := commitRws p i u v s.mram }

/-- Commit the RWS counters to MRAM (R431): those that count something, and those cleared since. -/
def commitCounters (s : State) : State :=
  (((s.objs.map (·.1) ++ s.mram.copyA.map (·.1)).eraseDups).filter (keyHas .counterRws)).foldl (fun s k => commitCounter k s) s

/-! ## Islands -/

/-- A partition's front end after its island's reset: its queue run, contexts, fence and drains stand. -/
def partAfterReset (x : PartSt) : PartSt :=
  { part0 with qFirst := x.qFirst, qCount := x.qCount, fence := x.fence, ctx := x.ctx, drains := x.drains }

/-- The mirror link starts anew; the copy, the last cycle and SIMPLEX stand. -/
def mirrorAfterReset (m : MirrorSt) : MirrorSt :=
  { State.reset.buddy.mirror with simplex := m.simplex, cycle := m.cycle, copy := m.copy }

/-- The CXL ports that train at a start: those out of reset, with the 100 MHz reference there (R407, R452). -/
def cxlUp (s : State) : BitVec 4 := if s.power.ref100 = true then ~~~s.cxl.perst else 0

/-- Every island but the management island is reset (R383, Table 17-4, R257, R360): jobs, queues, tiles, caches, Piccolo,
the fabric, the scheduler, lanes and links lose their state; DRAM, metadata, regions and block maps stand. -/
def islandsReset (s : State) : State :=
  { s with
    ready := false
    dram := { s.dram with refresh := [], dqs := [], rowCe := [], chanUe := [], refusedRows := [] }
    coh := { State.reset.coh with tilesUp := s.coh.tilesUp }
    hosts := { s.hosts with
      regions := s.hosts.regions.map (fun e => (e.1, { e.2 with ops := [] }))
      pub := s.hosts.pub.map (fun e => (e.1, { e.2 with busy := false }))
      snoops := [], answered := [], waiting := [], recalls := [], cmdRunning := false }
    cxl := { s.cxl with trained := cxlUp s, creditHeld := 15, gated := 0, lanes := [], ide := [] }
    work := { State.reset.work with
      parts := s.work.parts.map (fun e => (e.1, partAfterReset e.2)), nextJob := s.work.nextJob, fills := s.work.fills }
    tiles := []
    sync := State.reset.sync
    fabric := State.reset.fabric
    sched := []
    lanes := []
    eyeCmd := none
    links := []
    rings := []
    sec := { s.sec with slots := [], attest := none, blob := none }
    buddy := { s.buddy with mirror := mirrorAfterReset s.buddy.mirror }
    mgmt := { s.mgmt with unlocks := [], windows := [] } }

/-- The DRAM and what lies in it are lost (R100, R161, R406): INIT bits, summary-valid map, metadata, the copy kept for
the buddy, the verified image; the module holds no role. -/
def dramLost (s : State) : State :=
  { s with
    dram := State.reset.dram
    hosts := { State.reset.hosts with nextReq := s.hosts.nextReq, nextRecall := s.hosts.nextRecall }
    work := { State.reset.work with nextJob := s.work.nextJob }
    coh := State.reset.coh
    buddy := { State.reset.buddy with phases := s.buddy.phases }
    power := { s.power with image := none, images := [], netImage := [], mbImage := [], trained := false } }

/-! ## Starts (R413) -/

/-- A start enters a phase: BRINGUP_STATUS and a Lovage record of it (Table 20-7; log entry 16). -/
def enterPhase (n : Nat) (s : State) : State :=
  lovageNote 0x0101 (leBytes 1 n ++ leBytes 1 s.power.kind) { s with power := { s.power with phase := n } }

/-- An array by its number in the fuse data. -/
def sramArrayOf (n : Nat) : SramArray := if n = 0 then .cacheData else if n = 1 then .cacheTag else .filter

/-- The boot ROM repairs the SRAM rows that the fuse data and the repair record name, before any island leaves reset (R389,
phase 2 of Table 19-5). -/
def bootRom (s : State) : State :=
  let fused := Config.fuseRepairs.map (fun r => ({ array := sramArrayOf r.1, unit := r.2.1, row := r.2.2 } : SramRow))
  enterPhase 2 { s with power := { s.power with sramFixed := fused ++ s.mram.sramRows } }

/-- A cold start begins: the 25 MHz reference is qualified, the main stage comes on, the boot ROM tests the phases, and the
image is fetched, unless the TAP holds the module in reset (R435); the phases of Table 19-5 whose end no command reports pass at once (log entry 32). -/
def coldStart (phases : Nat) (s : State) : State :=
  let s1 := { s with
    buddy := { s.buddy with phases := min phases 26 }
    cxl := { s.cxl with trained := cxlUp s, creditHeld := 15, lanes := [], ide := [] }
    power := { s.power with mainOn := true, shutdown := 0, kind := 1, state := 0, closing := false, trained := false,
                            image := none, images := [], wave := 0 } }
  let s2 := enterPhase 1 (bump 0x3A02 1 s1)
  if s2.power.ref25 && !s2.mgmt.jtagHold then enterPhase 3 (bootRom s2) else s2

/-- A warm start goes on with the retained image, once its reference and the TAP let it (R407, R414, R435). -/
def warmGoOn (s : State) : State :=
  if s.power.warmWait || s.mgmt.jtagHold then s
  else
    match s.power.image with
    | some i => enterPhase 4 { s with power := { s.power with images := [i], image := none } }
    | none => enterPhase 3 s

/-- Record a fence, reset or hang in FENCE_LAST (Table 17-7). -/
def fenceLast (domain part cause port : Nat) (s : State) : State :=
  setObj 0x3901 0 (leAt (leBytes 8 s.ptime ++ leBytes 1 domain ++ leBytes 1 part ++ leBytes 1 cause ++ leBytes 1 port) 0 16) s

/-- A line's vector is unknown from now on: HINT 31, counted (R68). A correction that this meets is logged as Bassoon's (log
entry 97). -/
def unknownVector (line : Nat) (s : State) : State :=
  bump 0x3221 0 (setTag .bassoon line (fun t => mkTag (tagPoison t) 3 31) s)

/-- After an IMMEDIATE reset a line whose vector was held only in the directory cache has an unknown vector (R383). -/
def forgetVectors (s : State) : State :=
  s.hosts.dirCache.foldl (fun s e => if (smFind? e.1 s.hosts.dirOver).isSome then s else unknownVector e.1 s)
    { s with hosts := { s.hosts with dirCache := [] } }

/-- One vector of the directory cache goes to the overflow area, counted; a line for which there is no room has an unknown
vector from then on (R68). -/
def spillVector (line : Nat) (v : BitVec 32) (s : State) : State :=
  if (smFind? line s.hosts.dirOver).isSome || decide (s.hosts.dirOver.length < 16777216) then
    bump 0x3220 0 { s with hosts := { s.hosts with dirOver := smPut line v s.hosts.dirOver } }
  else unknownVector line s

/-- The directory cache is written to the overflow area (R68, R383, R410). -/
def spillDirectory (s : State) : State :=
  s.hosts.dirCache.foldl (fun s e => spillVector e.1 e.2 s) { s with hosts := { s.hosts with dirCache := [] } }

/-- A module reset (R383): the event, the DRAM in self-refresh, every other island reset, objects at their defaults but
for those kept, and a warm start; a cold start that had not yet trained its DRAM begins anew. With the main stage off
there is nothing to reset. -/
def moduleReset (cause : Nat) (s : State) : State :=
  let s1 := raiseEvent 0x0080 (leBytes 1 cause) { s with power := { s.power with orderly := false } }
  if s.power.mainOn = false then s1
  else
    let s2 := keepObjs keptByReset (islandsReset (forgetVectors { s1 with dram := { s1.dram with selfRefresh := true } }))
    let s3 := { s2 with power := { s2.power with
      busy := false, target := 0, state := 0, closing := false, tileGate := 0, nlGate := 0, cxlGate := 0, resetCause := cause
      wave := 0, warmWait := cause == 6 && !s2.power.ref25, debug := obj s2 0x7040 0 } }
    if s.power.kind = 2 ∨ 7 ≤ s.power.phase then warmGoOn (bootRom (bump 0x3A02 2 { s3 with power := { s3.power with kind := 2 } }))
    else coldStart s3.buddy.phases (dramLost s3)

/-- A protective shutdown (R404, R406): the roles are released, the black box and the counters committed, the main
stage switched off. -/
def protectiveShutdown (cause : Nat) (s : State) : State :=
  let hot := max s.power.junction s.power.stack
  let s1 := bump 0x3002 4 (releaseRoles s)
  let s2 := raiseEvent 0x0073 (leBytes 1 cause ++ leBytes 2 s.power.vin ++ leBytes 1 hot) s1
  let s3 := commitCounters { s2 with mram := { s2.mram with
    lastShutdown := leAt (leBytes 8 s2.ptime ++ leBytes 1 cause ++ leBytes 2 s2.power.vin ++ leBytes 1 hot) 0 16 } }
  let s4 := dramLost (keepObjs keptByPower (islandsReset s3))
  enterPhase 0x0B { s4 with
    cxl := { s4.cxl with trained := 0 }
    power := { s4.power with
      mainOn := false, shutdown := cause, pfail := true, pfailHeld := true, dip := false, busy := false, state := 0, target := 0
      closing := false, tileGate := 0, nlGate := 0, cxlGate := 0, orderly := false, warmWait := false, wave := 0 } }

/-! ## Removal of a partition (R368) -/

/-- The endpoints bound to a partition. -/
def boundEps (s : State) (p : Nat) : List Nat := (List.range 256).filter (fun e => epPartition s e == p)

/-- Steps 2 and 3 of R368 once the fence is over: endpoint grants, tiles, queues, MSI-X table, synchronisation range,
keys and grants are cleared; the blocks left without grant and region are to be filled. -/
def destroyClear (p : Nat) (s : State) : State :=
  let eps := boundEps s p
  let lost := allBlocks.filter (fun b => partRight s p b != 0 || eps.any (fun e => rightIn (epGrant s e) b != 0) ||
    (getPart s p).drains.any (fun d => d.block == b))
  let s1 := eps.foldl (fun s e => setObj 0x2122 0 (putField (obj s 0x2122 0) (8 * e + 7) (8 * e) 0xFF) (setEpGrant e 0 s)) s
  let s2 := (partTiles s p).foldl (fun s t => setObj 0x2600 (t + 1) 0xFF (zeroTile t s)) s1
  let x := getPart s2 p
  let s3 := updPart p (fun _ => { part0 with ctx := x.ctx }) (clearQueues x.qFirst x.qCount s2)
  let s4 := setObj 0x2700 (p + 1) 0 (syncFree (syncRange s3 p) s3)
  let s5 := setObj 0x2112 (p + 1) 0x00FF0000 (setObj 0x2111 (p + 1) 0 (setObj 0x2110 (p + 1) 0 s4))
  lost.foldl (fun s b => fillIfFree b (some p) s) s5

/-- PART_RESET_STATUS: the time in units of 2^24 ns, COUNT rises, CAUSE; and PART_RESETS (R377, Table 17-7). -/
def resetStatus (p cause : Nat) (s : State) : State :=
  let v := pobj s p 0x6901 0
  pbump p 0x6902 1 1 (setPobj p 0x6901 0
    (s.ptime / 2 ^ 24 * 2 ^ 24 % 2 ^ 64 + (field v 23 8 + 1) % 65536 * 256 + cause) s)

/-- Where a warm start places a partition (R384). -/
def placePart (p : Nat) (s : State) : State :=
  let st := partState s p
  let closed (s : State) : State := closeContexts p (updPart p (fun x => { x with fence := none }) s)
  let destroying : Bool := match (getPart s p).fence with | some f => f.cmd == .destroy | none => false
  if st = 0 then s
  else if st = 4 then setPartState p 4 0 s
  else if st = 3 ∧ destroying = true then setPartState p 4 0 (destroyClear p (revokeRun p (closed s)))
  else setPartState p 1 7 (resetStatus p 7 (closed s))

/-- Every partition is placed, and regions under release take back their lines anew (R384, R64). -/
def placeAll (s : State) : State :=
  let s1 := (List.range 64).foldl (fun s p => placePart p s) s
  s1.hosts.regions.foldl (fun s e =>
    if e.2.state = .releasing then (startRecall (.release e.1) (trackedLines s (regionBlocks e.2)) allHosts s).2 else s) s1

end Sys2Proof.Machine
end

