-- ==== Sys2Proof/Machine/Fence.lean ====
section
/-!
DEFINITION. Fences and watchdogs (spec/17 R371-R385): the answer and confirm phases of a partition fence, heartbeats, port
starvation, the two kinds of module reset.
-/
namespace Sys2Proof.Machine

/-! ## The answer phase (R372-R375) -/

/-- Requests of a partition that are not answered. -/
def openReqs (s : State) (p : Nat) : List (Nat × OutReq) := s.fabric.reqs.filter (fun e => e.2.part == p)

/-- Accesses of a partition's jobs that wait at their homes (R372). -/
def openLocal (s : State) (p : Nat) : Nat := (s.hosts.waiting.filter (fun r => r.reply == .left p)).length

/-- Discard the state of a partition's unanswered requests; their TAGs rest as after a timeout (R321, R372). -/
def abandonReqs (p : Nat) (s : State) : State :=
  let gone := openReqs s p
  let until_ := s.ptime + 2 * obj s 0x4423 0 * 1000
  { s with
    fabric := { s.fabric with
      reqs := s.fabric.reqs.filter (fun e => e.2.part != p)
      retired := gone.foldl (fun m e => smPut e.1 until_ m) s.fabric.retired }
    hosts := { s.hosts with waiting := s.hosts.waiting.map (fun r => if r.reply == .left p then { r with reply := .left 0xFF } else r) } }

/-- The end of a job under a fence: PARTITION_RESET unless it has ended already (R374). -/
def fencedJob (s : State) (x : JobSt) : JobSt :=
  match x.phase with
  | .ended => x
  | _ =>
    { x with
      phase := .ended, status := .partitionReset, detail := (Config.freeValue s.fresh).toNat
      result := (Config.freeValue (s.fresh + 1)).toNat % 2 ^ 32, reason := 0 }

/-- Write or hold the record of a job the fence has ended; without a record the job is only gone (R374, R375). -/
def fenceRetire (withRecord : Bool) (e : Nat × JobSt) (s : State) : State :=
  if !withRecord then { s with work := { s.work with jobs := smErase e.1 s.work.jobs } }
  else
    let x := fencedJob s e.2
    let r := retireJob e.1 x { s with fresh := s.fresh + 2 }
    if r.1 then r.2 else jobGone e.1 x (holdRecord x.part x.queue (recordBytes r.2 x) (dIrq x.desc) r.2)

/-- A partition's jobs in the order in which the fence ends them: those that have ended, those running, those sealed. -/
def fenceOrder (s : State) (p : Nat) : List (Nat × JobSt) :=
  let mine (ph : JobPhase) : List (Nat × JobSt) := s.work.jobs.filter (fun e => e.2.part == p && e.2.phase == ph)
  mine .ended ++ mine .running ++ mine .sealed

/-- HEAD := TAIL in each queue of a partition; a descriptor fetch under way is discarded (R375). -/
def resetHeads (p : Nat) (s : State) : State :=
  (List.range (getPart s p).qCount).foldl (fun s i =>
    updQueue ((getPart s p).qFirst + i) (fun q => { q with head := q.tail, fetching := false, fetched := none, copied := none }) s) s

/-- The answer phase: Piccolo's answers of the refuse phase have ended their jobs before any other job ends (R256); what is unanswered is abandoned, every job ends, heads move, the tiles leave the domain. -/
def fenceAnswer (p : Nat) (f : FenceSt) (s : State) : State :=
  let s := syncFlush s
  let records := f.cmd != .destroy && f.cmd != .moduleReset
  let s1 := { (abandonReqs p (resetNodes p s)) with
    work := { s.work with groups := s.work.groups.filter (fun g => g.2.part != p) } }
  let s1 := updPart p (fun x => { x with di := [] }) s1
  let s2 := (fenceOrder s1 p).foldl (fun s e => fenceRetire records e s) s1
  let s3 := (partTiles s p).foldl (fun s t => leaveDomain t s) (resetHeads p s2)
  updPart p (fun x => { x with fence := some { f with answered := true } }) s3

/-- An ORDERLY reset whose fences have all been answered finishes (R383). -/
def finishOrderly (s : State) : State :=
  if s.power.orderly && !s.work.parts.any (fun e => match e.2.fence with | some f => !f.answered | none => false) then
    moduleReset 1 (spillDirectory s)
  else s

/-- Do issued streams of a partition's programs still run (R210)? -/
def streamsRun (s : State) (p : Nat) : Bool := (partTiles s p).any (fun t => !(getTile s t).streams.isEmpty)

/-- Every outstanding request of the domain has completed, every issued stream among them, and the answer phase runs (R372); a tile-domain failure holds
the drain (R385). -/
def execFenceDrainEnd (part : Nat) (s : State) : Out :=
  .next (match (getPart s part).fence with
    | none => s
    | some f =>
      if f.answered || s.coh.failure.isSome || !(openReqs s part).isEmpty || openLocal s part != 0 || streamsRun s part then s
      else wake (finishOrderly (fenceAnswer part f s)))

/-- The drain budget expires: what remains is abandoned and counted (R373). -/
def execFenceDrainBudgetExpiry (part : Nat) (s : State) : Out :=
  .next (match (getPart s part).fence with
    | none => s
    | some f =>
      if f.answered || s.coh.failure.isSome then s
      else
        let n := (openReqs s part).length + openLocal s part
        let s1 := bump 0x3900 2 s
        let s2 := if n = 0 then s1 else pbump 0 0x3900 3 n s1
        wake (finishOrderly (fenceAnswer part f s2)))

/-! ## The confirm phase (R374, R377) -/

/-- Discard the packets of every open context of a partition and close them all, each GEN incremented once: the GEN of a
context that a CTX_CLOSE was closing already is (R374, R378). -/
def closeAll (p : Nat) (s : State) : State :=
  ((getPart s p).ctx.filter (fun e => e.2.closing.isSome)).foldl (fun s e => updCtx p e.1 (fun c => { c with gen := e.2.gen }) s)
    (closeContexts p ((getPart s p).ctx.foldl (fun s e => if e.2.isOpen then dropStale p e.1 s else s) s))

/-- Clear what a fence clears of its partition (R374, R53, R47, R256). -/
def fenceClear (p : Nat) (s : State) : State :=
  let s1 := (partTiles s p).foldl (fun s t => clearRegs true t s) (closeAll p s)
  syncFree (syncRange s1 p) (updPart p (fun x => { x with
    di := [], acceptCount := 0, doneCount := 0, lastToken := 0, lastRefusal := 0, xcache := [], walks := [], fence := none }) s1)

/-- The fence confirms: state, PART_RESET_STATUS, counts, FENCE_LAST, the event, PART_CMD_STATUS, RESET_VECTOR (R352,
R377). -/
def fenceDone (p : Nat) (f : FenceSt) (s : State) : State :=
  let s1 := fenceClear p s
  let s2 := if f.cmd = .destroy then destroyClear p s1 else s1
  let st := match f.cmd with | .hold => 1 | .destroy => 4 | _ => 2
  let s3 := bump 0x3900 1 (fenceLast 2 p f.cause 0xFF (resetStatus p f.cause (setPartState p st f.cause s2)))
  let s4 := if f.asCommand then { s3 with work := { s3.work with cmdRunning := false } } else s3
  let s5 := if f.asCommand && f.cause != 4 then partDone .ok s4 else s4
  if f.cmd = .destroy then s5 else signalVector p (field (getPart s5 p).vectors 23 16) s5

/-- FENCE_CONFIRM: once the partition's tiles have written back their lines (R374); no fence confirms under a module
reset (R385). -/
def execFenceConfirm (part : Nat) (s : State) : Out :=
  .next (match (getPart s part).fence with
    | none => s
    | some f =>
      if !f.answered || f.cmd == .moduleReset || s.power.orderly || s.coh.failure.isSome then s
      else if (partTiles s part).any (fun t => !(tileLines s t).isEmpty) then
        (partTiles s part).foldl (fun s t => leaveDomain t s) s
      else wake (fenceDone part f s))

/-! ## Tiles (R30, R381) -/

/-- A physical tile is marked FAILED: in the domain it fails the domain, else a spare takes its number (R381, R387). -/
def failTile (ptile cause : Nat) (s : State) : State :=
  let s1 := { s with
    mram := { s.mram with failedTiles := if s.mram.failedTiles.contains ptile then s.mram.failedTiles else s.mram.failedTiles ++ [ptile] }
    coh := { s.coh with tilesUp := s.coh.tilesUp.filter (· != ptile) } }
  match (List.range (geomTiles s)).find? (fun t => tilePhys s t == ptile && tileState s t != 2) with
  | none => setObj 0x3804 0 (freeTiles s1).length s1
  | some t =>
    if inDomain s t then domainFail cause ptile 0 (setObj 0x3601 (t + 1) 2 s1)
    else spareTile t (setObj 0x3601 (t + 1) 2 s1)

/-- A tile's heartbeat arrives (R381): the time to its timeout starts again; nothing else depends on it. -/
def execTileHeartbeat (ptile : Nat) (s : State) : Out :=
  .next (if s.coh.tilesUp.contains ptile then { s with coh := { s.coh with beats := smPut ptile s.ptime s.coh.beats } } else s)

/-- No heartbeat for TILE_HEARTBEAT_US: the tile is FAILED (R381). -/
def execTileHeartbeatTimeout (ptile : Nat) (s : State) : Out :=
  .next (if s.coh.tilesUp.contains ptile && decide (smGet 0 ptile s.coh.beats + obj s 0x4901 0 * 1000 ≤ s.ptime) then
      failTile ptile 7 (bump 0x3900 4 s)
    else s)

/-- A tile's clock loses lock (R30). -/
def execTileClockLockLoss (ptile : Nat) (s : State) : Out :=
  .next (if s.coh.tilesUp.contains ptile then failTile ptile 7 s else s)

/-! ## Starvation (R382) -/

/-- The report of a starvation: the port (CXL ports from 16), the class, 0xFF where there is none. -/
def starved (port cls : Nat) (s : State) : State :=
  raiseEvent 0x0051 (leBytes 1 port ++ leBytes 1 cls) (bump 0x3900 5 s)

/-- The endpoint that the expected topology names at an accelerator port: the one routed to that port alone. -/
def portEndpoints (s : State) (port : Nat) : List Nat :=
  (List.range 256).filter (fun e => routeValid (routeOf s e) && field (routeOf s e) 13 0 == 2 ^ port)

/-- Set or clear FENCED in a route entry. -/
def setFenced (e : Nat) (b : Bool) (s : State) : State :=
  if e < 128 then setObj 0x2420 (e + 1) (putBit (routeOf s e) 36 b) s else setObj 0x2421 (e - 127) (putBit (routeOf s e) 36 b) s

/-- A Narlin egress port starves in a class (R382). -/
def execPortStarvation (port tc : Nat) (s : State) : Out :=
  .next (if 14 ≤ port ∨ 4 ≤ tc ∨ linkUp s port = false then s
    else
      let s1 := starved port tc s
      if 12 ≤ port then wake (startBringup port s1)
      else
        let eps := portEndpoints s1 port
        let s2 := eps.foldl (fun s e => syncFenceEp e (setFenced e true s)) s1
        let s3 := startBringup port s2
        wake (eps.foldl (fun s e =>
          let p := epPartition s e
          if p ≠ 0xFF ∧ partState s p = 2 then
            startFence p 6 .watchdog false (fenceLast 5 p 6 port s)
          else s) s3))

/-- A CXL egress port starves: reported and counted, nothing is reset (R382). -/
def execCxlPortStarvation (port : Nat) (s : State) : Out :=
  .next (if 4 ≤ port ∨ s.cxl.trained.getLsbD port = false then s else starved (16 + port) 0xFF s)

/-! ## Module resets (R383) -/

/-- An ORDERLY reset begins: no new work, the roles released, every partition fenced at once with CAUSE 0x07. -/
def orderlyReset (s : State) : State :=
  let s1 := releaseRoles { s with ready := false, power := { s.power with orderly := true } }
  let s2 := (List.range 64).foldl (fun s p =>
    if partState s p = 1 ∨ partState s p = 2 then startFence p 7 .moduleReset false s else s) s1
  finishOrderly s2

/-- MODULE_RESET_CMD ORDERLY; during one it changes nothing. -/
def execModuleResetOrderly (s : State) : Out :=
  .next (if s.power.mainOn = false ∨ s.power.orderly = true then s else orderlyReset s)

/-- An IMMEDIATE module reset, by its cause: 2 the command, 3 Fife, 4 JTAG, 5 a fatal error, 6 the 25 MHz reference; one
that meets an ORDERLY reset takes its place. -/
def execModuleResetImmediate (cause : Nat) (s : State) : Out :=
  .next (if 2 ≤ cause ∧ cause ≤ 6 then moduleReset cause s else s)

/-- A write of MODULE_RESET_CMD. -/
def opModuleReset (v : Nat) (s : State) : Status × State :=
  if v = 1 then (.ok, if s.power.mainOn = false ∨ s.power.orderly = true then s else orderlyReset s)
  else if v = 2 then (.ok, moduleReset 2 s)
  else (.errFormat, s)

end Sys2Proof.Machine
end

