-- ==== Sys2Proof/Machine/Power.lean ====
section
/-!
DEFINITION. The power input, references and power states (spec/19 R401-R412), the core-rail phases (spec/18 R388), the resets of
a CXL port (spec/17 R371, spec/22 R452), power-on and the loss of input power (spec/00 R18, spec/21 R438).
-/
namespace Sys2Proof.Machine

def updPower (f : PowerSt → PowerSt) (s : State) : State := { s with power := f s.power }

/-! ## The input (Table 19-1, R402); voltages in 10 mV -/

/-- A sample of the input: PFAIL_N and a dip below 36 V, a dip ridden through, the warning's end at 38 V, the first
sample above 60 V. -/
def execInputSample (vin : Nat) (s : State) : Out :=
  .next (
    if s.power.powered = false then s
    else
      let s1 := updPower (fun p => { p with vin := min vin 16383 }) s
      if vin < 3600 then updPower (fun p => { p with pfail := true, dip := p.dip || p.mainOn, ov := false }) s1
      else
        let s2 := if s.power.dip then bump 0x3002 1 (updPower (fun p => { p with dip := false }) s1) else s1
        let s3 := if 3800 ≤ vin then updPower (fun p => { p with uvWarn := false }) s2 else s2
        if vin ≤ 6000 then updPower (fun p => { p with ov := false }) s3
        else if s.power.ov then s3
        else bump 0x3002 3 (raiseEvent 0x0071 (leBytes 2 vin) (updPower (fun p => { p with ov := true }) s3)))

/-- 20 ms within 40-60 V with no start under way and no thermal shutdown in force: a cold start begins, with the phases
found healthy. -/
def execInputQualified (phases : Nat) (s : State) : Out :=
  .next (
    let p := s.power
    if p.powered = true ∧ 4000 ≤ p.vin ∧ p.vin ≤ 6000 ∧ p.mainOn = false ∧ p.shutdown ≠ 4 ∧ p.state ≠ 3 then coldStart phases s
    else s)

/-- 100 µs below 38 V. -/
def execUvWarning (s : State) : Out :=
  .next (if s.power.powered = true ∧ s.power.vin < 3800 ∧ s.power.uvWarn = false then
      bump 0x3002 2 (raiseEvent 0x0070 (leBytes 2 s.power.vin) (updPower (fun p => { p with uvWarn := true }) s))
    else s)

/-- PWR_UV_QUAL_US below 36 V. -/
def execUvQualificationExpiry (s : State) : Out :=
  .next (if s.power.mainOn = true ∧ s.power.dip = true ∧ s.power.vin < 3600 then protectiveShutdown 1 s else s)

/-- 100 ms above 60 V. -/
def execOvQualificationExpiry (s : State) : Out :=
  .next (if s.power.mainOn = true ∧ s.power.ov = true then protectiveShutdown 2 s else s)

/-- 10 ms at or above 38 V: PFAIL_N is released, but not from a protective shutdown until READY (R402). -/
def execPfailRelease (s : State) : Out :=
  .next (if s.power.powered = true ∧ 3800 ≤ s.power.vin ∧ s.power.pfailHeld = false then
      updPower (fun p => { p with pfail := false }) s
    else s)

/-- A core-rail phase fails (R388). -/
def execPhaseFailure (s : State) : Out :=
  .next (if s.power.mainOn = false ∨ s.buddy.phases = 0 then s
    else
      let n := s.buddy.phases - 1
      let s1 := bump 0x3803 4 (raiseEvent 0x0063 (leBytes 1 n) { s with buddy := { s.buddy with phases := n } })
      if n < 20 then protectiveShutdown 3 s1 else s1)

/-- Readings of the hottest junction and the hottest stack sensor (R405). -/
def execThermalSample (junction stack : Nat) (s : State) : Out :=
  .next (
    if s.power.powered = false then s
    else
      let warm : Bool := decide (obj s 0x4001 0 ≤ junction) || decide (95 ≤ stack)
      let s1 := updPower (fun p => { p with junction := min junction 255, stack := min stack 255, hot := warm }) s
      let s2 := if warm && !s.power.hot then
          bump 0x3002 5 (raiseEvent 0x0072 (leBytes 1 junction ++ leBytes 1 stack) s1)
        else s1
      if (110 ≤ junction ∨ 105 ≤ stack) ∧ s.power.mainOn = true then protectiveShutdown 4 s2 else s2)

/-! ## Power-on, loss of input power (R18, R432, R438, R401) -/

/-- The record that at least two copies of Lovage hold at a ring position, and how many hold it (R432). -/
def lovageMajority (s : State) (pos : Nat) : Option (Bytes × Nat) :=
  let sound (o : Option Bytes) : Option Bytes := o.filter (fun r => crc32 (slice r 0 60) == leAt r 60 4)
  let a := sound (smFind? pos s.lovage.a)
  let b := sound (smFind? pos s.lovage.b)
  let c := sound (smFind? pos s.lovage.c)
  match a, b, c with
  | some x, some y, some z => if x = y then some (x, if y = z then 3 else 2) else if x = z then some (x, 2) else if y = z then some (y, 2) else none
  | some x, some y, none => if x = y then some (x, 2) else none
  | some x, none, some z => if x = z then some (x, 2) else none
  | none, some y, some z => if y = z then some (y, 2) else none
  | _, _, _ => none

/-- Where Lovage goes on at power-on: after its newest record, or at the start of an empty ring. -/
def lovageNewest (s : State) : Option (Nat × Nat) :=
  (s.lovage.a.map (·.1) ++ s.lovage.b.map (·.1) ++ s.lovage.c.map (·.1)).eraseDups.foldl (fun best p =>
    match lovageMajority s p with
    | none => best
    | some (r, _) =>
      let seq := leAt r 8 4
      match best with
      | none => some (p, seq)
      | some (q, sq) => if laterW 32 seq sq then some (p, seq) else some (q, sq)) none

/-- A copy that checks no more. -/
def upsetCopy (p i u : Nat) (m : SMap MramCopy) : SMap MramCopy :=
  let c := mramCopy p i u m
  smPut (objKey p i u) { c with crc := mramCrc (objWidth i u) c.epoch c.value + 1 } m

/-- MRAM copies have been upset while the module was without power. -/
def mramUpset (x : MramUpset) (s : State) : State :=
  { s with mram := { s.mram with
    copyA := if bitOf x.copies 0 then upsetCopy x.part x.index x.sub s.mram.copyA else s.mram.copyA
    copyB := if bitOf x.copies 1 then upsetCopy x.part x.index x.sub s.mram.copyB else s.mram.copyB } }

/-- A free value of `n` words of 64 bits. -/
def takeFreeWide : (n : Nat) → State → Nat × State
  | 0, s => (0, s)
  | n + 1, s =>
    let r := takeFreeWide n s
    let f := takeFree r.2
    (r.1 * 2 ^ 64 + f.1.toNat, f.2)

/-- Restore an RWS object from MRAM (R438). One of which both copies are lost takes its default, and Lovage says which. One
whose copies conflict is frozen, with a divergence fault, and its value is free until it is resolved; RECORD of the fault is
the object's index (R397; log entry 114). -/
def restoreRws (k : Nat) (s : State) : State :=
  let (p, i, u) := objOfKey k
  let put (v : Nat) (s : State) : State := { s with objs := smSet (objDefault i u) k v s.objs }
  match mramChoice s p i u with
  | .lost => lovageNote 0x0103 (leBytes 2 i ++ leBytes 1 u) (put (objDefault i u) s)
  | .value v => put v s
  | .conflict =>
    let a := mramCopy p i u s.mram.copyA
    let b := mramCopy p i u s.mram.copyB
    let f := takeFreeWide ((objWidth i u + 7) / 8) s
    divergence i a.epoch (leBytes (objWidth i u) a.value) (leBytes (objWidth i u) b.value)
      (put (f.1 % 256 ^ objWidth i u) f.2)

/-- Input power reaches the management island; `bad` names the MRAM copies of RWS objects that no longer check. -/
def execPowerOn (bad : List MramUpset) (s : State) : Out :=
  .next (
    if s.power.powered then s
    else
      let s1 := updPower (fun _ => power0) { s with ptime := 0 }
      let s2 := match lovageNewest s1 with
        | some (p, seq) => { s1 with lovage := { s1.lovage with next := (p + 1) % lovageRing, seq := (seq + 1) % 2 ^ 32 } }
        | none => { s1 with lovage := { s1.lovage with next := 0, seq := 0 } }
      let s3 := bad.foldl (fun s x => mramUpset x s) s2
      lovageNote 0x0100 [] ((rwsKeys s3).foldl (fun s k => restoreRws k s) s3))

/-- The input has stood below 24 V beyond the hold-up: everything but MRAM is lost; the next power-on restores what it holds. -/
def execInputPowerLoss (s : State) : Out :=
  .next (
    if s.power.powered = false then s
    else
      { State.reset with
        mram := s.mram, lovage := s.lovage, fresh := s.fresh, outbox := s.outbox
        pending := s.pending
        power := { power0 with powered := false, pfail := true, vin := s.power.vin } })

/-! ## CXL ports (R371, R452) -/

/-- A CXL port's own state is reset: its link, its queue of responses, the decoders of its LDs. -/
def cxlPortReset (port : Nat) (s : State) : State :=
  { s with
    cxl := { s.cxl with ide := smErase port s.cxl.ide }
    hosts := { s.hosts with hdm := s.hosts.hdm.filter (fun h => h / 128 != port) }
    sched := smErase (16 + port) s.sched }

/-- Is CXL.mem credit withheld on every port (R410, R420)? -/
def creditWithheld (s : State) : Bool := !s.ready || s.power.state == 2 || (s.power.busy && decide (2 ≤ s.power.target))

/-- A port trains: unless it is in reset or gated, and the module's main stage and the 100 MHz reference are there. -/
def cxlTrain (port : Nat) (s : State) : State :=
  if s.power.mainOn = true ∧ s.cxl.perst.getLsbD port = false ∧ s.cxl.gated.getLsbD port = false ∧ s.power.ref100 = true then
    { s with cxl := { s.cxl with
      trained := s.cxl.trained ||| (1#4 <<< port)
      creditHeld := if creditWithheld s then s.cxl.creditHeld ||| (1#4 <<< port) else s.cxl.creditHeld &&& ~~~(1#4 <<< port) } }
  else { s with cxl := { s.cxl with trained := s.cxl.trained &&& ~~~(1#4 <<< port) } }

/-- PERST_Np is asserted. -/
def execPerstAssert (port : Nat) (s : State) : Out :=
  .next (if 4 ≤ port then s
    else cxlPortReset port { s with cxl := { s.cxl with perst := s.cxl.perst ||| (1#4 <<< port), trained := s.cxl.trained &&& ~~~(1#4 <<< port) } })

/-- A port trains to a number of lanes: 16, or down to 8 or 4; narrower, it does not come up (R1, Table 0-1). -/
def cxlTrainTo (port lanes : Nat) (s : State) : State :=
  if lanes = 16 ∨ lanes = 8 ∨ lanes = 4 then
    cxlTrain port { s with cxl := { s.cxl with lanes := smSet 16 port lanes s.cxl.lanes } }
  else { s with cxl := { s.cxl with trained := s.cxl.trained &&& ~~~(1#4 <<< port) } }

/-- PERST_Np is released: the port trains, to the lanes its link gives it. -/
def execPerstRelease (up : CxlUp) (s : State) : Out :=
  .next (if 4 ≤ up.port then s
    else cxlTrainTo up.port up.lanes { s with cxl := { s.cxl with perst := s.cxl.perst &&& ~~~(1#4 <<< up.port) } })

/-- A link reset or hot reset of one CXL port. -/
def execCxlPortReset (up : CxlUp) (s : State) : Out :=
  .next (if 4 ≤ up.port then s else cxlTrainTo up.port up.lanes (cxlPortReset up.port s))

/-! ## References (R407) -/

/-- A reference is lost: 25, 100 or 156. -/
def execReferenceLoss (ref : Nat) (s : State) : Out :=
  .next (
    let p := s.power
    let lost (s : State) : State := bump 0x3002 6 (raiseEvent 0x0074 (leBytes 1 ref) s)
    if p.powered = false then s
    else if ref = 25 ∧ p.ref25 = true then
      let s1 := lost (updPower (fun p => { p with ref25 := false, degraded := true }) s)
      if p.mainOn = true then moduleReset 6 s1 else s1
    else if ref = 100 ∧ p.ref100 = true then
      lost (updPower (fun p => { p with ref100 := false }) { s with cxl := { s.cxl with trained := 0 } })
    else if ref = 156 ∧ p.ref156 = true then
      lost ((List.range 15).foldl (fun s i => leaveActive i s) (updPower (fun p => { p with ref156 := false }) s))
    else s)

/-- A reference is restored: a start that waits for it goes on, links come back. -/
def execReferenceRestored (ref : Nat) (s : State) : Out :=
  .next (
    let p := s.power
    if p.powered = false then s
    else if ref = 25 then
      let s1 := updPower (fun p => { p with ref25 := true, warmWait := false }) s
      if p.warmWait = true then warmGoOn s1
      else if p.mainOn = true ∧ p.phase = 1 ∧ s1.mgmt.jtagHold = false then enterPhase 3 (bootRom s1) else s1
    else if ref = 100 then (List.range 4).foldl (fun s i => cxlTrain i s) (updPower (fun p => { p with ref100 := true }) s)
    else if ref = 156 then
      let s1 := updPower (fun p => { p with ref156 := true }) s
      if p.ref156 = true then s1 else (List.range 15).foldl (fun s i => startBringup i s) s1
    else s)

/-! ## POWER_STATE_CMD (R408-R412) -/

/-- Are a command's gate fields and rsvd bytes as Table 19-4 has them? -/
def powerForm (cmd : Bytes) : Bool :=
  let m := leAt cmd 0 1
  cmd.length == 24 && decide (m ≤ 3) && leAt cmd 1 1 == 0 && leAt cmd 4 4 == 0 && leAt cmd 19 5 == 0 && decide (leAt cmd 16 2 < 2 ^ 14) &&
  decide (leAt cmd 18 1 < 16) && (m == 1 || (leAt cmd 8 8 == 0 && leAt cmd 16 3 == 0))

/-- The transitions of R408. -/
def powerPermits (from_ to_ : Nat) : Bool := from_ == 0 || from_ == 1 || (from_ == 2 && (to_ == 0 || to_ == 3)) || (from_ == 3 && to_ == 0)

/-- May the units of an M1 command be gated (R409, R33)? -/
def gatesOk (s : State) (tiles cxl : Nat) : Bool :=
  (onesBelow 64 tiles).all (fun t => decide (t < geomTiles s) && (tileOwner s t == 0xFF || decide (partState s (tileOwner s t) ≤ 1))) &&
  (onesBelow 4 cxl).all (fun c => (List.range 16).all (fun l =>
    match hostOfLd? s (16 * c + l) with
    | some h => hostState s h != 1
    | none => true))

/-- The conditions of a target state on the module. -/
def powerConds (s : State) (target tiles cxl : Nat) : Bool :=
  let noPart (most : Nat) : Bool := (List.range 64).all (fun p => decide (partState s p ≤ most))
  match target with
  | 0 => true
  | 1 => gatesOk s tiles cxl
  | 2 => noPart 1
  | _ => noPart 0 && s.hosts.regions.all (fun e => e.2.state == .unused) && s.buddy.own.code != 1 && s.buddy.other.code != 1 && s.dram.evac.isNone

/-- A tile on its way out of the domain takes no further job. -/
def clearTile (t : Nat) (s : State) : State :=
  if tileState s t = 0 then leaveDomain t (setObj 0x3601 (t + 1) 1 s) else s

/-- A command is accepted: BUSY, TOKEN; tiles begin to leave the domain; for M2 and M3 credit is withheld. -/
def powerAccept (target token tiles nl cxl : Nat) (s : State) : State :=
  let s1 := updPower (fun p => { p with
    busy := true, token := token, target := target, newTileGate := tiles, newNlGate := nl, newCxlGate := cxl, closing := p.closing || target == 3 }) s
  let s2 := (List.range (geomTiles s)).foldl (fun s t => if 2 ≤ target ∨ bitOf tiles t then clearTile t s else s) s1
  if 2 ≤ target then { s2 with cxl := { s2.cxl with creditHeld := 15 } } else s2

/-- A write of POWER_STATE_CMD; `wop`: it came over WOP. -/
def opPowerState (wop : Bool) (cmd : Bytes) (s : State) : Status × State :=
  let p := s.power
  let target := leAt cmd 0 1
  if !powerForm cmd then (.errFormat, s)
  else if p.shutdown = 4 ∧ p.mainOn = false then
    if wop = true ∧ p.powered = true ∧ target = 0 ∧ p.junction < 90 ∧ p.stack < 90 then
      let s1 := updPower (fun p => { p with shutdown := 0, token := leAt cmd 2 2, lastStatus := 0 }) s
      (.ok, if 4000 ≤ p.vin ∧ p.vin ≤ 6000 then coldStart s.buddy.phases s1 else s1)
    else (.errPermission, s)
  else if s.ready = false ∧ p.state ≠ 3 then (.errPermission, s)
  else if p.busy then (.retryQueueFull, s)
  else if !powerPermits p.state target || !powerConds s target (leAt cmd 8 8) (leAt cmd 18 1) then (.errPermission, s)
  else (.ok, powerAccept target (leAt cmd 2 2) (leAt cmd 8 8) (leAt cmd 16 2) (leAt cmd 18 1) s)

/-- The 24 bytes of a command with a STATE. -/
def powerBytes (m : Nat) (cmd : Bytes) : Bytes := splice (slice cmd 0 24) 0 (leBytes 1 m)

/-- May a mailbox's LD use 0xC103 (R427): its host's bit of MB_POWER_HOSTS? -/
def mbPowerOk (s : State) (ld : Nat) : Bool :=
  match hostOfLd? s ld with
  | some h => bitOf (obj s 0x2B04 0) h
  | none => false

/-- POWER_STATE_CMD over WOP, or by a mailbox's LD. -/
def powerVia (via : Option Nat) (cmd : Bytes) (s : State) : Status × State :=
  match via with
  | none => opPowerState true cmd s
  | some ld => if mbPowerOk s ld then opPowerState false cmd s else (.errPermission, s)

/-- POWER_STATE_CMD M0. -/
def execPowerStateM0 (via : Option Nat) (cmd : Bytes) (s : State) : Out := .next (answerBy via 0x2000 (powerVia via (powerBytes 0 cmd) s))
/-- POWER_STATE_CMD M1. -/
def execPowerStateM1 (via : Option Nat) (cmd : Bytes) (s : State) : Out := .next (answerBy via 0x2000 (powerVia via (powerBytes 1 cmd) s))
/-- POWER_STATE_CMD M2. -/
def execPowerStateM2 (via : Option Nat) (cmd : Bytes) (s : State) : Out := .next (answerBy via 0x2000 (powerVia via (powerBytes 2 cmd) s))
/-- POWER_STATE_CMD M3. -/
def execPowerStateM3 (via : Option Nat) (cmd : Bytes) (s : State) : Out := .next (answerBy via 0x2000 (powerVia via (powerBytes 3 cmd) s))

/-- A Narlin port is gated: DISABLED, its link down with cause 0x01. -/
def gateNl (port : Nat) (s : State) : State := startBringup port (updLane port (fun l => { l with off := true }) s)

/-- A port that is off comes up again. -/
def ungateNl (port : Nat) (s : State) : State :=
  if (getLane s port).off then startBringup port (updLane port (fun l => { l with off := false }) s) else s

/-- A tile comes up cleared, keeping its owner (R409, R412). -/
def ungateTile (t : Nat) (s : State) : State :=
  if tileState s t = 2 then s else zeroTile t (setObj 0x3601 (t + 1) 0 s)

/-- The masks of a transition to M0 or M1 take effect. -/
def applyGates (s : State) : State :=
  let p := s.power
  let s1 := (List.range (geomTiles s)).foldl (fun s t =>
    if bitOf p.newTileGate t then (if tileState s t = 2 then s else zeroTile t (setObj 0x3601 (t + 1) 4 s))
    else if tileState s t = 4 then ungateTile t s else s) s
  let s2 := (List.range 14).foldl (fun s i => if bitOf p.newNlGate i then gateNl i s else ungateNl i s) s1
  let s3 := { s2 with cxl := { s2.cxl with gated := BitVec.ofNat 4 p.newCxlGate } }
  let s4 := (List.range 4).foldl (fun s i =>
    if s3.cxl.gated.getLsbD i == s.cxl.gated.getLsbD i && s.cxl.trained.getLsbD i then s else cxlTrain i s) s3
  let s5 := { s4 with cxl := { s4.cxl with trained := s4.cxl.trained &&& ~~~s4.cxl.gated } }
  updPower (fun p => { p with tileGate := p.newTileGate, nlGate := p.newNlGate, cxlGate := p.newCxlGate }) s5

/-- Is everything at rest that M2 and M3 wait for (R410 steps 1, 2, 5)? -/
def atRest (s : State) : Bool :=
  s.coh.lines.isEmpty && s.coh.txns.isEmpty && s.hosts.snoops.isEmpty && s.hosts.waiting.isEmpty && s.hosts.recalls.isEmpty &&
  s.dram.evac.isNone && s.hosts.sweeps.isEmpty && s.work.fills.isEmpty && s.sec.blob.isNone &&
  s.hosts.regions.all (fun e => e.2.ops.isEmpty && e.2.state != .filling && e.2.state != .sanitising)

/-- Entry to M2 (R410 steps 4 to 7). -/
def enterRetain (s : State) : State :=
  let s1 := (List.range 15).foldl (fun s i => gateNl i s) s
  let s2 := (List.range (geomTiles s)).foldl (fun s t =>
    if tileState s t = 2 then s else zeroTile t (setObj 0x3601 (t + 1) 3 s)) s1
  let s3 := spillDirectory s2
  updPower (fun p => { p with tileGate := 0, nlGate := 0, cxlGate := 0 })
    { s3 with dram := { s3.dram with selfRefresh := true }, cxl := { s3.cxl with gated := 0, trained := 0 }, coh := { s3.coh with beats := [] } }

/-- Exit from M2 (R412): DRAM, tiles, credit, ports. -/
def leaveRetain (s : State) : State :=
  let s1 := (List.range (geomTiles s)).foldl (fun s t => ungateTile t s) { s with dram := { s.dram with selfRefresh := false } }
  let s2 := updPower (fun p => { p with state := 0, target := 0 })
    { s1 with coh := { s1.coh with beats := s1.coh.tilesUp.map (fun t => (t, s1.ptime)) } }
  let s3 := (List.range 4).foldl (fun s i => cxlTrain i s) s2
  let s4 := { s3 with cxl := { s3.cxl with creditHeld := 0 } }
  (List.range 15).foldl (fun s i => ungateNl i s) s4

/-- Entry to M3 after that of M2: the islands and the DRAM lose power (R411). -/
def enterHold (s : State) : State :=
  let s1 := dramLost (keepObjs keptByPower (islandsReset s))
  { s1 with cxl := { s1.cxl with trained := 0 }, power := { s1.power with mainOn := false } }

/-- The running transition ends: LAST_STATUS OK, BUSY cleared. -/
def powerDone (state : Nat) (s : State) : State :=
  updPower (fun p => { p with state := state, busy := false, lastStatus := 0, target := 0 }) s

/-- The tiles that a transition takes out of the domain put the lines that have come to rest since (R238, R409, R410). -/
def leaveTiles (ts : List Nat) (s : State) : State := ts.foldl (fun s t => leaveDomain t s) s

/-- POWER_TRANSITION_END: once what the transition waits for is at rest, its effect; an exit from M3 is a cold start. -/
def execPowerTransitionEnd (s : State) : Out :=
  .next (
    let p := s.power
    if p.busy = false then s
    else
      match p.target with
      | 2 => if atRest s then powerDone 2 (enterRetain s) else leaveTiles (List.range (geomTiles s)) s
      | 3 =>
        if atRest s then powerDone 3 (enterHold (if p.state = 2 then s else enterRetain s))
        else leaveTiles (List.range (geomTiles s)) s
      | t =>
        if p.state = 3 then coldStart s.buddy.phases (powerDone 0 s)
        else if p.state = 2 then powerDone 0 (leaveRetain s)
        else if (onesBelow 64 p.newTileGate).any (fun t => !(tileLines s t).isEmpty) then leaveTiles (onesBelow 64 p.newTileGate) s
        else wake (powerDone t (applyGates s)))

end Sys2Proof.Machine
end

