-- ==== Sys2Proof/Machine/Bringup.lean ====
section
/-!
DEFINITION. Starts (spec/19 R413-R420, spec/04 R85-R87, R100, R110-R112, spec/05 R115): the firmware image, tile waves and their
mapping, DRAM training and memory test, the topology check, READY.
-/
namespace Sys2Proof.Machine

/-! ## The firmware image (R416, R417, Table 19-6) -/

/-- The largest body a header permits. -/
def maxBody : Nat := 7340032

/-- Every 1 s without an image: an image request over WOP, naming the offset of the next byte (Table 20-4). -/
def execImageRequestTimer (s : State) : Out :=
  .next (if s.power.phase = 3 ∧ obj s 0x2A00 0 ≠ 2 then
      let off := s.power.netImage.length
      sendWop 6 0 (off % 65536) (off / 65536 % 256) 0xFF [] s
    else s)

/-- Is an image gathered over the network whole: its header, and the body that the header names? -/
def imageWhole (b : Bytes) : Bool :=
  decide (256 ≤ b.length) && (decide (256 + leAt b 8 4 ≤ b.length) || leAt b 8 4 == 0 || decide (maxBody < leAt b 8 4))

/-- An image's transfer is complete: it waits for its verification. -/
def imageDone (b : Bytes) (s : State) : State :=
  let s1 := updPower (fun p => { p with images := p.images ++ [b] }) s
  if s1.power.phase = 3 then enterPhase 4 s1 else s1

/-- IMAGE_DATA at an offset: the bytes that follow those already there. -/
def execImageData (offset : Nat) (data : Bytes) (s : State) : Out :=
  .next (
    let b := s.power.netImage ++ data
    if (s.power.phase ≠ 3 ∧ s.power.phase ≠ 4) ∨ obj s 0x2A00 0 = 2 ∨ offset ≠ s.power.netImage.length ∨ 1152 < data.length then s
    else if imageWhole b then imageDone b (updPower (fun p => { p with netImage := [] }) s)
    else updPower (fun p => { p with netImage := b }) s)

/-- Answer a mailbox command with a status and data. -/
def answerMailbox (ld : Nat) (r : (Status × Bytes) × State) : State :=
  send (.mailbox ld (leBytes 1 (statusCode r.1.1) ++ r.1.2)) r.2

/-- The mailbox command IMAGE_WRITE with its input (R427): OFFSET, FINAL, rsvd, image bytes. -/
def opImageWrite (input : Bytes) (s : State) : Status × State :=
  let off := leAt input 0 4
  let data := input.drop 8
  if s.ready = true ∨ obj s 0x2A00 0 = 1 then (.errPermission, s)
  else if input.length < 8 ∨ 4096 < input.length ∨ 1 < leAt input 4 1 ∨ 256 + maxBody < off + data.length then
    (.errFormat, s)
  else if s.power.phase ≠ 3 ∧ s.power.phase ≠ 4 then (.ok, s)
  else
    let old := s.power.mbImage ++ zeros (off - s.power.mbImage.length)
    let b := splice old off data
    if leAt input 4 1 = 1 then (.ok, imageDone b (updPower (fun p => { p with mbImage := [] }) s))
    else (.ok, updPower (fun p => { p with mbImage := b }) s)

/-- IMAGE_WRITE by a mailbox's LD. -/
def execImageWrite (ld : Nat) (input : Bytes) (s : State) : Out :=
  .next (if s.power.mainOn = false then s
    else
      let r := opImageWrite input s
      answerMailbox ld ((r.1, []), r.2))

/-- What the verification of an image finds: 0 accepted, 1 header, 2 signature, 3 digest, 4 SVN (R417). -/
def imageVerdict (rollback : Nat) (b : Bytes) : Nat :=
  let len := leAt b 8 4
  let header : Bool := decide (256 ≤ b.length) && leAt b 0 4 == 0x31574D46 && leAt b 4 2 == 1 && decide (leAt b 6 1 < 64) && leAt b 7 1 == 0 &&
    decide (1 ≤ len) && decide (len ≤ maxBody) && decide (b.length = 256 + len) && decide (leAt b 12 4 + leAt b 16 4 ≤ len) &&
    leAt b 20 12 == 0 && leAt b 128 32 == 0
  if !header then 1
  else if !releaseVerify (slice b 0 160) (slice b 160 96) then 2
  else if slice (sha384 (b.drop 256)) 0 48 ≠ slice b 32 48 then 3
  else if leAt b 6 1 < rollback then 4 else 0

/-- The boot ROM verifies the image completed first. -/
def execImageVerify (s : State) : Out :=
  .next (match s.power.phase, s.power.images with
    | 4, i :: rest =>
      let v := imageVerdict s.mram.rollback i
      if v = 0 then
        enterPhase 5 (updPower (fun p => { p with image := some i, images := [], netImage := [], mbImage := [], wave := 0 }) s)
      else
        let s1 := bump 0x3A02 3 (updPower (fun p => { p with fwReject := v, images := rest }) s)
        if rest.isEmpty then enterPhase 3 s1 else s1
    | _, _ => s)

/-- FW_ROLLBACK_COMMIT (R417). -/
def opRollback (v : Nat) (s : State) : Status × State :=
  match s.power.image with
  | some i => if v = leAt i 6 1 then (.ok, { s with mram := { s.mram with rollback := max s.mram.rollback v } }) else (.errPermission, s)
  | none => (.errPermission, s)

/-- FW_ROLLBACK_COMMIT is written. -/
def execFwRollbackCommit (value : Nat) (s : State) : Out := .next (answerExpert 0x4A00 (opRollback value) s)

/-! ## Tile waves and mapping (R415, R418, R115, R32, R33) -/

/-- The next wave of eight physical tiles is powered: `present` those that the fuses do not mark yield-lost, `passed` those
whose self-test succeeds at a cold start. -/
def execTileWave (present passed : Nat) (s : State) : Out :=
  .next (if s.power.phase ≠ 5 ∨ 9 ≤ s.power.wave then s
    else
      let w := s.power.wave
      let tiles := ((onesBelow 8 present).map (8 * w + ·)).filter (fun t => decide (t < 68) && !s.mram.failedTiles.contains t)
      let good := tiles.filter (fun t => s.power.kind == 2 || bitOf passed (t - 8 * w))
      { s with
        mram := { s.mram with failedTiles := s.mram.failedTiles ++ tiles.filter (fun t => !good.contains t) }
        coh := { s.coh with
          tilesUp := s.coh.tilesUp.filter (fun t => t / 8 != w) ++ good
          beats := good.foldl (fun m t => smPut t s.ptime m) s.coh.beats }
        power := { s.power with wave := w + 1 } })

/-- Table R115: the physical tiles of the logical tiles, in order, of the tiles that are up. -/
def tileMap (up : List Nat) : List Nat :=
  let ring (r : Nat) : List Nat := (List.range 68).filter (fun t => up.contains t && ringOfPhys t == r)
  let spares := [0, 1, 2, 3].flatMap (fun r => (ring r).drop 8)
  ((List.range 8).foldl (fun (acc : List Nat × List Nat) r =>
    let own := (ring r).take 8
    (acc.1 ++ own ++ acc.2.take (8 - own.length), acc.2.drop (8 - own.length))) ([], spares)).1

/-- The logical tiles are mapped and cleared; GEOM_TILES, GEOM_DECODE_CONTEXTS and the spares follow, and too few tiles raise
the event (R32, R33). -/
def mapTiles (s : State) : State :=
  let m := tileMap s.coh.tilesUp
  let s1 := (m.zip (List.range m.length)).foldl (fun s e =>
    zeroTile e.2 (setObj 0x3600 (e.2 + 1) (ringOfPhys e.1) (setObj 0x3602 (e.2 + 1) e.1 (setObj 0x3601 (e.2 + 1) 0 s)))) s
  let s2 := setObj 0x1103 0 (m.length * obj s1 0x1102 0) (setObj 0x1101 0 m.length s1)
  let s3 := setObj 0x3804 0 (freeTiles s2).length s2
  if m.length < 64 then raiseEvent 0x0002 (leBytes 2 m.length ++ leBytes 1 (geomStacks s3)) s3 else s3

/-- The tile section has been broadcast: `bad` are the physical tiles whose check failed twice (R418). -/
def execTileFirmwareDelivery (bad : List Nat) (s : State) : Out :=
  .next (if s.power.phase ≠ 5 ∨ s.power.wave < 9 then s
    else
      let gone := s.coh.tilesUp.filter bad.contains
      enterPhase 6 (mapTiles { s with
        mram := { s.mram with failedTiles := s.mram.failedTiles ++ gone.filter (fun t => !s.mram.failedTiles.contains t) }
        coh := { s.coh with tilesUp := s.coh.tilesUp.filter (fun t => !gone.contains t) } }))

/-! ## DRAM (R85-R87, R100, R110-R112) -/

/-- The CRC-32 of a training record, over its fields in the order of R86. -/
def trainCrc (t : TrainRec) : Nat :=
  crc32 (leBytes 1 t.stack ++ leBytes 1 t.chan ++ leBytes 8 t.deviceId ++ leBytes 2 t.rate ++ leBytes 2 (t.temperature % 65536).toNat ++
    (t.lanes.map (fun l => leBytes 2 l.ca ++ leBytes 2 l.gate ++ leBytes 2 l.rdDelay ++ leBytes 2 l.wrDelay ++ leBytes 2 l.vref)).flatten ++
    leBytes 4 t.epoch)

/-- Must a channel be trained in full at this start (R85, R87)? -/
def needsTraining (s : State) (r : ChanReport) : Bool :=
  s.power.kind == 1 || obj s 0x4301 0 == 1 ||
  match smFind? r.pchan s.mram.train with
  | none => true
  | some t =>
    t.crc != trainCrc t || t.deviceId != r.deviceId || t.rate != obj s 0x4300 0 ||
    decide (20 < max t.temperature r.temperature - min t.temperature r.temperature) || !r.patternOk

/-- Is a passing window, in steps of 1/64 UI, at least 0.30 UI wide (R85)? -/
def windowWide (first last : Nat) : Bool := decide (30 * 64 ≤ 100 * (last - first))

/-- Does full training succeed at a channel (R85): every step converges, and every byte lane's passing windows are wide
enough in both directions? -/
def channelTrains (r : ChanReport) : Bool :=
  r.converged == List.replicate 6 true && r.lanes.length == 2 &&
  r.lanes.all (fun l => windowWide l.rdFirst l.rdLast && windowWide l.wrFirst l.wrLast)

/-- The settings that training gives a byte lane: each delay at the centre of its passing window (R85). -/
def laneSettings (l : LaneEye) : LaneSettings :=
  { ca := l.ca, gate := l.gate, rdDelay := (l.rdFirst + l.rdLast) / 2, wrDelay := (l.wrFirst + l.wrLast) / 2, vref := l.vref }

/-- The channel's training record after full training (R86). -/
def trainRecord (r : ChanReport) (s : State) : TrainRec :=
  let epoch := match smFind? r.pchan s.mram.train with | some t => t.epoch + 1 | none => 1
  let t : TrainRec :=
    { stack := r.pchan / 4, chan := r.pchan % 4, deviceId := r.deviceId, rate := obj s 0x4300 0, temperature := r.temperature
      lanes := r.lanes.map laneSettings, epoch := epoch, crc := 0 }
  { t with crc := trainCrc t }

/-- The channel's training record goes to MRAM (R86). -/
def storeRecord (r : ChanReport) (s : State) : State :=
  { s with mram := { s.mram with train := smPut r.pchan (trainRecord r s) s.mram.train } }

/-- A stack is replaced at a start: no copy is made, the spare is zero-filled (R112); with no spare left its lines are lost
(R85). -/
def replaceAtStart (l : Nat) (s : State) : State :=
  let old := physStack s l
  let own : Option Evac := s.dram.evac.filter (fun e => e.lstack == l)
  let s1 := match own with
    | some e => { s with dram := { s.dram with evac := none, cells := s.dram.cells.filter (fun c => c.1 / 2 ^ 48 != e.spare) } }
    | none => s
  let taken := match s1.dram.evac with | some e => [e.spare] | none => []
  let dead (s : State) : State := { s with mram := { s.mram with deadStacks := s.mram.deadStacks.filter (· != old) ++ [old] } }
  match spareFor { s1 with mram := { s1.mram with deadStacks := s1.mram.deadStacks ++ taken } } old with
  | none => dead s1
  | some sp =>
    let st := obj s1 0x3300 0
    let s2 := setObj 0x3300 0 (if sp = 28 then putField st 7 0 l else putField st 15 8 l) (dead s1)
    { s2 with dram := { s2.dram with
      stackMap := smPut l sp s2.dram.stackMap
      lost := s2.dram.lost.filter (fun e => e.1 / 4096 != l)
      evacWait := s2.dram.evacWait.filter (· != l)
      cells := s2.dram.cells.filter (fun c => c.1 / 2 ^ 48 != old && c.1 / 2 ^ 48 != sp) } }

/-- GEOM_STACKS and GEOM_CHANNELS of a start: the logical stacks that a working stack serves; too few raise the event
(R32, R33). Where the lines of the others lie, and so the pool's size, stay as R81, R82 and R85 have them (log entry 98). -/
def countStacks (s : State) : State :=
  let n := ((List.range 32).filter (fun l => !s.mram.deadStacks.contains (physStack s l))).length
  let s1 := setObj 0x1108 0 (4 * n) (setObj 0x1107 0 n s)
  if n < 32 then raiseEvent 0x0002 (leBytes 2 (geomTiles s) ++ leBytes 1 n) s1 else s1

/-- Every port starts its bring-up. -/
def portsUp (s : State) : State :=
  (List.range 15).foldl (fun s i => startBringup i (updLane i (fun l => { l with off := false }) s)) s

/-- Training ends (R85-R87, R110): records, stacks with a failed channel, repaired rows; a warm start takes its metadata up
again, places its partitions, and goes on to the ports. -/
def execDramTrainingDone (reports : List ChanReport) (repaired : List (Nat × Nat)) (s : State) : Out :=
  .next (if s.power.phase ≠ 6 ∨ s.power.trained = true then s
    else
      let cold : Bool := s.power.kind == 1
      let full := reports.filter (needsTraining s)
      let s1 := (full.filter channelTrains).foldl (fun s r => storeRecord r s) s
      let failed := ((full.filter (fun r => !channelTrains r)).map (fun r => r.pchan / 4)).eraseDups
      let s2 := if cold then setObj 0x3300 0 0xFFFF { s1 with dram := { s1.dram with stackMap := [], evac := none, evacWait := [] } } else s1
      let idle := failed.filter (fun p => (lstackAt? s2 p).isNone && !s2.mram.deadStacks.contains p)
      let s3 := { s2 with mram := { s2.mram with deadStacks := s2.mram.deadStacks ++ idle } }
      let s4 := (List.range 32).foldl (fun s l =>
        if failed.contains (physStack s l) || (cold && s.mram.deadStacks.contains (physStack s l)) then replaceAtStart l s else s) s3
      let s5 := if cold then
          repaired.foldl (fun s e => if (remapRows s e.1).contains e.2 then setRemaps e.1 ((remapRows s e.1).filter (· != e.2)) s else s) s4
        else s4
      let s6 := countStacks <| updPower (fun p => { p with trained := true }) (setObj 0x4301 0 0 { s5 with dram := { s5.dram with selfRefresh := false } })
      if cold then s6 else portsUp (enterPhase 7 (placeAll s6)))

/-- The memory test and the zero fill end (R100). -/
def execMemoryTestDone (s : State) : Out :=
  .next (if s.power.phase = 6 ∧ s.power.kind = 1 ∧ s.power.trained = true then
      portsUp (enterPhase 7 { s with dram := { s.dram with cells := [], lost := [], summary := [], init := BitVec.allOnes 3584 } })
    else s)

/-! ## The topology check and READY (R419, R420) -/

/-- Is a port required and without a peer; does its peer differ from an entry that names one? -/
def portAbsent (s : State) (port : Nat) : Bool := bitOf (expectedEntry s port) 50 && !hasPeer (getLane s port)
def portMismatch (s : State) (port : Nat) : Bool :=
  hasPeer (getLane s port) && expectedEntry s port != 0 && !peerMatches s port

/-- A port whose peer differs is held (R273). -/
def holdPort (port : Nat) (s : State) : State :=
  if (getLane s port).state = 7 then s
  else updLane port (fun l => { l with state := 7, cause := 0 }) (leaveActive port s)

/-- A start that finds its buddy holding its own role becomes the standby for it, and says so (R398). -/
def rejoin (s : State) : State :=
  if s.buddy.buddyHolds = true ∧ s.buddy.own.code = 6 then
    mirrorPush 6 (roleCell 1 1 s.buddy.own.epoch) (updRole 1 (fun x => { x with code := 3 }) s)
  else s

/-- READY (R420): credit, the router, the event with the start's kind and PTIME; PFAIL_N may rise again (R402). -/
def declareReady (s : State) : State :=
  let s1 := enterPhase 0x0A { s with
    ready := true
    cxl := { s.cxl with creditHeld := 0 }
    power := { s.power with pfailHeld := false, pfail := s.power.pfail && decide (s.power.vin < 3800), state := 0 } }
  let s2 := raiseEvent 0x0001 (leBytes 1 s1.power.kind ++ leBytes 8 s1.ptime) s1
  let s3 := if s2.power.kind = 2 then fenceLast 8 0xFF s2.power.resetCause 0xFF s2 else s2
  wake (retryWaiting (rejoin s3))

/-- Every port is judged (R419). -/
def judgeTopology (s : State) : State :=
  let bad : Bool := (List.range 15).any (fun i => portAbsent s i || portMismatch s i)
  let s1 := (List.range 15).foldl (fun s i => if portMismatch s i then holdPort i s else s) s
  if bad then enterPhase 9 (reportTopology s1) else declareReady s1

/-- A write of TOPO_ACCEPT or EXPECTED_TOPOLOGY: the ports are judged again; after READY a port that is held by it is
reported (R273, R420). -/
def judgeAgain (s : State) : State :=
  if s.power.phase = 9 then judgeTopology s
  else
    let new : Bool := (List.range 15).any (fun i => portMismatch s i && (getLane s i).state != 7)
    let s1 := (List.range 15).foldl (fun s i => if portMismatch s i then holdPort i s else s) s
    if new && s.power.phase == 0x0A then reportTopology s1 else s1

/-- TOPOLOGY_CHECK: the required ports have exchanged, or TOPO_WAIT_MS has passed; and what the referee says of the own
role. -/
def execTopologyCheck (expired buddyHolds : Bool) (s : State) : Out :=
  .next (if s.power.phase ≠ 7 ∧ s.power.phase ≠ 8 then s
    else
      let s1 := { s with buddy := { s.buddy with buddyHolds := buddyHolds } }
      let s2 := if s.power.phase = 7 then enterPhase 8 s1 else s1
      if expired || !(List.range 15).any (portAbsent s2) then judgeTopology s2 else s2)

/-- A held port is released: one held in EXCHANGE goes on from there, one that has left a step or ACTIVE begins again at
DETECT (R272, R273, R419). -/
def releasePort (port : Nat) (s : State) : State :=
  if (getLane s port).state ≠ 7 then s
  else if (getLane s port).cfg.rxMap.isEmpty then exchangeDone port s
  else startBringup port s

/-- A write of TOPO_ACCEPT. -/
def opTopoAccept (mask : Nat) (s : State) : Status × State :=
  if 2 ^ 15 ≤ mask then (.errFormat, s)
  else
    let ports := onesBelow 15 mask
    let v := ports.foldl (fun v i => putField v (64 * i + 63) (64 * i) (discovered s i % 2 ^ 51)) (obj s 0x2A01 0)
    (.ok, judgeAgain (ports.foldl (fun s i => releasePort i s) (setObj 0x2A01 0 v s)))

/-- TOPO_ACCEPT is written. -/
def execTopoAccept (mask : Nat) (s : State) : Out := .next (answerFm 0x2A02 0 (opTopoAccept mask s))

/-- A write of EXPECTED_TOPOLOGY: held ports that it names are accepted. -/
def opExpected (v : Nat) (s : State) : Status × State :=
  if v >>> 960 ≠ 0 ∨ (List.range 15).any (fun i => field v (64 * i + 63) (64 * i + 51) != 0) = true then (.errFormat, s)
  else
    let s1 := setObj 0x2A01 0 v s
    let s2 := (List.range 15).foldl (fun s i => if peerMatches s i && (getLane s i).cause != 3 then releasePort i s else s) s1
    (.ok, judgeAgain s2)

/-- EXPECTED_TOPOLOGY is written. -/
def execExpectedTopologyWrite (value : Nat) (s : State) : Out := .next (answerFm 0x2A01 0 (opExpected value s))

end Sys2Proof.Machine
end

