-- ==== Sys2Proof/Machine/Hosts.lean ====
section
/-!
DEFINITION. Hosts over CXL (spec/02 R36-R38, spec/03 R59, R60, R69-R72, R77, R78): CXL.mem requests, decoders, snoop answers,
the host table and the death of a host.
-/
namespace Sys2Proof.Machine

/-- Can a host's request reach the module on a port: the link trained, not in reset or gated, and credit given? -/
def cxlOpen (s : State) (port : Nat) : Bool :=
  decide (port < 4) && s.cxl.trained.getLsbD port && !s.cxl.perst.getLsbD port && !s.cxl.gated.getLsbD port &&
  !s.cxl.creditHeld.getLsbD port

/-- Where a CXL.mem address leads (R36, R38, R59, R75). -/
inductive DpaTarget where
  | pool (host pa : Nat) (rw : Bool)
  | unmapped
deriving DecidableEq, Repr

/-- Decode a DPA of an LD. -/
def dpaTarget (s : State) (port ld dpa : Nat) : DpaTarget :=
  let g := port * 16 + ld
  match hostOfLd? s g with
  | none => .unmapped
  | some h =>
    if hostState s h ≠ 1 then .unmapped
    else
      match (if dpa / 2 ^ 28 < 8192 then smFind? (g * 8192 + dpa / 2 ^ 28) s.hosts.ldMap else none) with
      | none =>
        match buddyTarget s g (dpa / 2 ^ 28) with
        | some (b, rw) => .pool h (b * 2 ^ 28 + dpa % 2 ^ 28) rw
        | none => .unmapped
      | some e =>
        if e.kind = 1 ∧ (getPub s g).busy = true then .unmapped
        else .pool h (e.block * 2 ^ 28 + dpa % 2 ^ 28) e.rw

/-- A response that no memory group gave. -/
def plainAnswer (port : Nat) (sub : Nat) (m : Msg) (s : State) : State := enqueueLeaf (16 + port) sub 3 (.cxl m) s

/-- The subscriber of an LD's traffic: its host's, or node 64. -/
def ldSub (s : State) (port ld : Nat) : Nat :=
  match hostOfLd? s (port * 16 + ld) with
  | some h => hostSub s h
  | none => 64

/-- Put the token of an admitted request into its leaf at the line's memory-channel group (R336, R343, R345). -/
def memToken (line sub svc : Nat) (paced : Bool) (outPort : Nat) (s : State) : State :=
  enqueueLeaf (memPort line) sub svc (.mem line paced outPort) s

/-- A CXL.mem read (R38, R59, R69, R392). -/
def cxlRead (excl : Bool) (port ld dpa tag : Nat) (s : State) : State :=
  if !cxlOpen s port then s
  else
    match dpaTarget s port ld dpa with
    | .unmapped =>
      plainAnswer port (ldSub s port ld) (.hostData port ld tag (zeros 64) true .none 0) (bump 0x3230 (16 * port + ld + 1) s)
    | .pool h pa _ =>
      if !servesBlock s pa then plainAnswer port (hostSub s h) (.hostData port ld tag (zeros 64) true .none 0) s
      else
        let line := pa / 64
        wake (submit (.host h) (.hostRead h excl (line * 64)) (.host port ld tag) (memToken line (hostSub s h) 3 false 0 s))

/-- The write data of a CXL.mem write with byte enables. -/
def beBytes (be : BitVec 64) (data : Bytes) : List (Option Byte) :=
  (List.range 64).map (fun i => if be.getLsbD i then some (data.getD i 0) else none)

/-- A CXL.mem write (R38, R59, R71, R72). -/
def cxlWrite (port ld dpa tag : Nat) (keep : Bool) (be : BitVec 64) (data : Bytes) (s : State) : State :=
  if !cxlOpen s port then s
  else
    let done (sub : Nat) (s : State) : State := plainAnswer port sub (.hostDone port ld tag 0) s
    match dpaTarget s port ld dpa with
    | .unmapped => done (ldSub s port ld) (bump 0x3230 (16 * port + ld + 1) s)
    | .pool h pa rw =>
      if !rw then done (hostSub s h) (bump 0x3231 (16 * port + ld + 1) s)
      else if !servesBlock s pa then done (hostSub s h) s
      else
        let line := pa / 64
        wake (submit (.host h) (.hostWrite h keep (line * 64) (beBytes be data)) (.host port ld tag)
          (memToken line (hostSub s h) 3 false 0 s))

/-- CXL_MEM_READ_SHARED (R69). -/
def execCxlMemReadShared (port ld dpa tag : Nat) (s : State) : Out := .next (cxlRead false port ld dpa tag s)
/-- CXL_MEM_READ_EXCLUSIVE (R69, R72). -/
def execCxlMemReadExclusive (port ld dpa tag : Nat) (s : State) : Out := .next (cxlRead true port ld dpa tag s)
/-- CXL_MEM_WRITE (R38, R71). -/
def execCxlMemWrite (port ld dpa tag : Nat) (keep : Bool) (be : BitVec 64) (data : Bytes) (s : State) : Out :=
  .next (cxlWrite port ld dpa tag keep be data s)

/-- HDM_DECODER_COMMIT (R37): accepted with an interleave of one way only. -/
def execHdmDecoderCommit (port ld dec ways : Nat) (s : State) : Out :=
  let k := (port * 16 + ld) * 8 + dec
  .next (send (.hdmCommit port ld dec (ways == 1))
    (if ways = 1 then { s with hosts := { s.hosts with hdm := k :: s.hosts.hdm.filter (· != k) } }
     else { s with hosts := { s.hosts with hdm := s.hosts.hdm.filter (· != k) } }))

/-- BISNP_RESPONSE (R70): the host's answer to an outstanding snoop. -/
def execBisnpResponse (host line : Nat) (gaveUp : Bool) (data : Option Bytes) (s : State) : Out :=
  .next (wake (answerSnoop host line gaveUp data s))

/-- Has the module an outstanding snoop to a host for a line? -/
def snoopOut (s : State) (host line : Nat) : Bool :=
  match smFind? line s.hosts.snoops with
  | some sn => sn.hosts.contains host
  | none => false

/-- BICONFLICT (R70): the handshake is answered; the snoop completes before the host's request, which waits behind it
as any access to the line does. -/
def execBiconflict (host line : Nat) (s : State) : Out :=
  .next (if snoopOut s host line then send (.biConflictAck host line) s else s)

/-! ## The death of a host (R77, R78) -/

/-- Declare a LIVE host dead (R76, R77). -/
def hostDeath (h cause : Nat) (s : State) : State :=
  let v := hostEntry s h
  let lds := ldsOfEntry v
  let blocks := ((s.hosts.ldMap.filter (fun e => lds.contains (e.1 / 8192))).map (fun e => e.2.block) ++
    ((s.buddy.mirror.copy.map (fun e => 4096 + e.1 >>> 22)).eraseDups).filter (hostMapsBlock s h)).eraseDups
  let s1 := setObj 0x2210 (h + 1) (putField v 1 0 2) s
  let out := (s1.hosts.snoops.filter (fun e => e.2.hosts.contains h)).map (fun e => e.1)
  let s2 := out.foldl (fun s line => answerSnoop h line true none (resolveDead line s)) s1
  let s3 := abandonPublishes lds { s2 with hosts := { s2.hosts with sweeps := s2.hosts.sweeps ++ [(h, blocks)] } }
  wake (raiseEvent 0x0010 (leBytes 1 h ++ leBytes 1 (field v 31 24) ++ leBytes 1 cause ++ leBytes 8 s.ptime) s3)

/-- A write of HOST_DECLARE_DEAD: the status it is answered with (R77). -/
def declareDead (h : Nat) (s : State) : Status × State :=
  if geomHosts s ≤ h then (.errPermission, s)
  else if hostState s h = 0 then (.errPermission, s)
  else if hostState s h = 2 then (.ok, s)
  else (.ok, hostDeath h 0 s)

/-- HOST_DECLARE_DEAD (R77). -/
def execHostDeclareDead (host : Nat) (s : State) : Out := .next (answerFm 0x2202 0 (declareDead host s))

/-- BI_TIMEOUT (R71): the host is declared dead. -/
def execBiTimeout (host line : Nat) (s : State) : Out :=
  .next (if snoopOut s host line then
      (if hostState s host = 1 then hostDeath host 1 (bump 0x3211 (host + 1) s) else s)
    else s)

/-- DEAD_HOST_SWEEP_END (R78): every line the sweep covers is resolved, and the entry is ABSENT. -/
def execDeadHostSweepEnd (host : Nat) (s : State) : Out :=
  .next (match s.hosts.sweeps.find? (fun e => e.1 == host) with
    | none => s
    | some (_, blocks) =>
      let lines := keptLines s blocks
      let s1 := lines.foldl (fun s l => resolveDead l s) s
      let v := hostEntry s1 host
      let s2 := setObj 0x2210 (host + 1) (putField (putField v 1 0 0) 21 2 0) s1
      raiseEvent 0x0011 (leBytes 1 host ++ leBytes 1 (field v 31 24) ++ leBytes 8 s.ptime)
        { s2 with hosts := { s2.hosts with sweeps := s2.hosts.sweeps.filter (fun e => e.1 != host) } })

/-- A write of a host table entry: the status it is answered with (R59, R60). -/
def hostTableWrite (h v : Nat) (s : State) : Status × State :=
  let old := hostEntry s h
  if geomHosts s ≤ h then (.errPermission, s)
  else if field v 1 0 = 3 ∨ field v 23 22 ≠ 0 ∨ 2 ^ 64 ≤ v then (.errFormat, s)
  else if field v 1 0 = 2 ∨ field old 1 0 ≠ 0 then (.errPermission, s)
  else if (ldsOfEntry v).any (fun ld => (List.range 32).any (fun g => g != h && entryBinds (hostEntry s g) ld)) then
    (.errPermission, s)
  else
    let inc := if field v 1 0 = 1 then (field old 31 24 + 1) % 256 else field old 31 24
    (.ok, setObj 0x2210 (h + 1) (putField v 31 24 inc) s)

/-- HOST_TABLE_WRITE (R60). -/
def execHostTableWrite (host value : Nat) (s : State) : Out := .next (answerFm 0x2210 (host + 1) (hostTableWrite host value s))

end Sys2Proof.Machine
end

