-- ==== Sys2Proof/Machine/Route.lean ====
section
/-!
DEFINITION. Writes of the route table and of NF_OWN_ENDPOINT (spec/14 R313, R325; spec/11 R258).
-/
namespace Sys2Proof.Machine

/-- May a value stand in a route entry (R313)? -/
def routeOk (v : Nat) : Bool :=
  v >>> 53 == 0 && !bitOf v 15 && field v 35 34 == 0 && field v 39 38 == 0 &&
  (!routeValid v || routeLocal v ||
    (decide (routeEscPort v ≤ 13) && decide (64 ≤ routeRxwin v) && decide (routeRxwin v ≤ 4096)))

/-- The module's send and receive state for an endpoint takes its initial values (R313, R317). -/
def clearStreams (e : Nat) (s : State) : State :=
  let others {α : Type} (m : SMap α) : SMap α := m.filter (fun x => x.1 / 4 != e)
  { s with fabric := { s.fabric with
    send := others s.fabric.send, recv := others s.fabric.recv, recvMc := others s.fabric.recvMc
    sendCell := smErase e s.fabric.sendCell, recvCell := smErase e s.fabric.recvCell } }

/-- Set the route entry of an endpoint. -/
def setRoute (e v : Nat) (s : State) : State := if e < 128 then setObj 0x2420 (e + 1) v s else setObj 0x2421 (e - 127) v s

/-- A write of the route entry of an endpoint: sequence state begins anew when VALID rises, Piccolo withdraws what a
newly fenced endpoint holds, and what waits for a route is tried again. -/
def opRoute (e v : Nat) (s : State) : Status × State :=
  if 256 ≤ e then (.errFormat, s)
  else if !routeOk v then (.errFormat, s)
  else
    let old := routeOf s e
    let s1 := setRoute e v s
    let s2 := if routeValid v && !routeValid old then clearStreams e s1 else s1
    let s3 := if routeFenced v && !routeFenced old then syncFenceEp e s2 else s2
    (.ok, wake (retryWaiting s3))

/-- ROUTE_ENTRY_WRITE. -/
def execRouteEntryWrite (endpoint value : Nat) (s : State) : Out := .next (answerFm (if endpoint < 128 then 0x2420 else 0x2421) (endpoint % 128 + 1) (opRoute endpoint value s))

/-- A write of NF_OWN_ENDPOINT: only while no link is UP. -/
def opOwnEndpoint (v : Nat) (s : State) : Status × State :=
  if 256 ≤ v then (.errFormat, s)
  else if (List.range 14).any (linkUp s) then (.errPermission, s)
  else (.ok, setObj 0x2422 0 v s)

/-- NF_OWN_ENDPOINT_WRITE. -/
def execNfOwnEndpointWrite (value : Nat) (s : State) : Out := .next (answerFm 0x2422 0 (opOwnEndpoint value s))

end Sys2Proof.Machine
end

