-- ==== Sys2Proof/Machine/Objects.lean ====
section
/-!
DEFINITION. The object dictionary engine (spec/20 R421-R423, R429-R433, R439-R441; spec/21): reach of the roles, checks,
what a read returns, what a write does; the FM key, expert unlocks, Lovage.
-/
namespace Sys2Proof.Machine

/-! ## Reach (R422, Table 20-2) -/

/-- The partition a role drives. -/
def roleDriver : Role → Option Nat
  | .pd p => some p
  | _ => none

/-- The window of partitions. -/
def inWindow (index : Nat) : Bool := decide (0x6000 ≤ index) && decide (index < 0x7000)

/-- May a role read an object? -/
def mayRead (r : Role) (index sub : Nat) : Bool :=
  let between (lo hi : Nat) : Bool := decide (lo ≤ index) && decide (index ≤ hi)
  match r with
  | .fm => true
  | .pd _ => between 0x1000 0x1FFF || inWindow index || between 0x7000 0x7002 || [0x7011, 0x7021, 0x7031, 0x7041].contains index
  | .mon => between 0x1000 0x5FFF || between 0x7000 0x7002 || index == 0x7041 || between 0x8000 0x8FFF
  | .any => between 0x1000 0x1FFF || between 0x7000 0x7002 || ((index == 0x3000 || index == 0x3A00) && sub == 0)

/-- The monitor may write only in DEBUG_STATE 1 or 2 (R367). -/
def debugging (s : State) : Bool := s.power.debug == 1 || s.power.debug == 2

/-- May a role write an object? The monitor reaches the unlocks of groups 3 and 4 only (R429); FM_KEY_CMD is open to every
role while the module is unclaimed (R424). -/
def mayWrite (s : State) (r : Role) (row : ObjRow) (sub : Nat) : Bool :=
  match row.writers, r with
  | .any, .fm => true
  | .any, _ => s.mram.fmKey.isNone
  | .pd, .pd _ => true
  | .pd, _ => false
  | _, .fm => true
  | .fmPd, .pd _ => true
  | .fmMon, .mon => debugging s && (row.index != 0x2B00 || sub == 4 || sub == 5)
  | _, _ => false

/-! ## Expert unlocks (R12, R429) -/

/-- A write of an EXPERT_UNLOCK entry: 0xE0C1 unlocks for EXPERT_UNLOCK_S of powered time, 0 locks. -/
def opUnlock (mon : Bool) (group v : Nat) (s : State) : Status × State :=
  let set (m : SMap Nat) : State := { s with mgmt := { s.mgmt with unlocks := m } }
  if v = 0xE0C1 then (.ok, set (smPut (unlockKey group mon) (s.ptime + obj s 0x4B00 0 * 1000000000) s.mgmt.unlocks))
  else if v = 0 then (.ok, set (smErase (unlockKey group mon) s.mgmt.unlocks))
  else (.errFormat, s)

/-! ## The FM key (R424) -/

/-- A write of FM_KEY_CMD: the layout of Table 16-4 with OP 1 and SLOT 0; the counters start again at 0. -/
def opFmKey (cmd : Bytes) (s : State) : Status × State :=
  if leAt cmd 0 1 ≠ 1 ∨ leAt cmd 1 1 ≠ 0 ∨ ((slice cmd 105 7).any (· != 0) || (slice cmd 160 16).any (· != 0)) = true then (.errFormat, s)
  else if leAt cmd 4 4 ≠ Config.serial.toNat % 2 ^ 32 then (.errKey, s)
  else
    match commandKey labelFm cmd with
    | none => (.errKey, s)
    | some k => (.ok, { s with mram := { s.mram with fmKey := some k, fmCtr := 0 }, mgmt := { s.mgmt with ctr := 0 } })

/-! ## Lovage (R432, R433) -/

/-- LOVAGE_STATUS. -/
def lovageStatus (s : State) : Nat :=
  (if s.lovage.count = 0 then 0 else (s.lovage.seq + 2 ^ 32 - 1) % 2 ^ 32) + b2n s.lovage.frozen * 2 ^ 32

/-- The ring position of the record with a SEQ, if it is still there. -/
def lovagePos? (s : State) (seq : Nat) : Option Nat :=
  let back := (s.lovage.seq + 2 ^ 32 - seq % 2 ^ 32) % 2 ^ 32
  if 1 ≤ back ∧ back ≤ s.lovage.count then some ((s.lovage.next + lovageRing - back) % lovageRing) else none

/-- FLAGS and the 64 bytes of the record with a SEQ: by majority, or copy A with DIVERGENT, or ABSENT. -/
def lovageRead (s : State) (seq : Nat) : Nat × Bytes :=
  match lovagePos? s seq with
  | none => (8, zeros 64)
  | some p =>
    match lovageMajority s p with
    | some (r, n) => (n, slice r 0 64)
    | none => (4, slice (smGet [] p s.lovage.a) 0 64)

/-- The three copies of the record with a SEQ, each with the flags of the whole. -/
def lovageCopies (s : State) (seq : Nat) : List (Nat × Bytes) :=
  let f := (lovageRead s seq).1
  match lovagePos? s seq with
  | none => [(8, zeros 64), (8, zeros 64), (8, zeros 64)]
  | some p => [s.lovage.a, s.lovage.b, s.lovage.c].map (fun m => (f, slice (smGet [] p m) 0 64))

/-- LOVAGE_RESULT with records. -/
def lovageResult (rs : List (Nat × Bytes)) (s : State) : State :=
  setObj 0x8001 0 (leAt ([0] ++ leBytes 1 rs.length ++ zeros 14 ++ slice (rs.map (fun r => BitVec.ofNat 8 r.1)) 0 16 ++
    (rs.map (·.2)).flatten) 0 1056) s

/-- A write of LOVAGE_CONTROL. -/
def opLovage (mon : Bool) (cmd : Bytes) (s : State) : Status × State :=
  let op := leAt cmd 0 1
  let n := leAt cmd 1 1
  let seq := leAt cmd 4 4
  let set (f : LovageSt → LovageSt) : Status × State := (.ok, lovageResult [] { s with lovage := f s.lovage })
  if op = 0 ∨ 5 < op ∨ leAt cmd 2 2 ≠ 0 ∨ (op = 1 ∧ (n = 0 ∨ 16 < n)) then (.errFormat, s)
  else
    match op with
    | 1 => (.ok, lovageResult ((List.range n).map (fun i => lovageRead s (seq + i))) s)
    | 2 => (.ok, lovageResult (lovageCopies s seq) s)
    | 3 => set (fun l => { l with frozen := true })
    | 4 => set (fun l => { l with frozen := false })
    | _ =>
      if mon = true ∨ unlocked s 9 false = false then (.errPermission, s)
      else set (fun l => { l with a := [], b := [], c := [], next := 0, count := 0 })

/-! ## What a read returns -/

/-- DEVICE_IDENTITY (R440). -/
def deviceIdentity : Bytes :=
  leBytes 2 0xD3A7 ++ leBytes 2 0x0896 ++ leBytes 1 Config.stepping.toNat ++ leBytes 1 1 ++ zeros 2 ++ leBytes 8 Config.serial.toNat ++
  leBytes 6 Config.macAddress.toNat ++ zeros 2 ++ leBytes 16 0x3639382D504D57 ++ zeros 24

/-- INPUT_STATUS (Table 19-7). -/
def inputStatus (p : PowerSt) : Nat :=
  p.vin % 2 ^ 14 + b2n p.uvWarn * 2 ^ 14 + b2n p.pfail * 2 ^ 15 + b2n p.ov * 2 ^ 16 + b2n p.ref25 * 2 ^ 18 + b2n p.ref100 * 2 ^ 19 +
  b2n p.ref156 * 2 ^ 20 + b2n p.degraded * 2 ^ 21

/-- POWER_STATE (Table 19-7). -/
def powerState (p : PowerSt) : Nat :=
  p.state % 4 + b2n p.busy * 4 + (p.shutdown % 8) * 2 ^ 4 + (p.lastStatus % 256) * 2 ^ 8 + (p.token % 65536) * 2 ^ 16

/-- BRINGUP_STATUS (Table 19-7). -/
def bringupStatus (p : PowerSt) : Nat := p.phase % 256 + (p.kind % 4) * 2 ^ 8 + (p.fwReject % 256) * 2 ^ 16

/-- MEM_EVAC_STATUS (R112). -/
def evacStatus (s : State) : Nat :=
  match s.dram.evac with
  | some e => 2 ^ 31 + e.lstack * 2 ^ 24 + e.ptr * 65536 / (112 * 2 ^ 30) % 65536
  | none => 0

/-- NL_LINK_STATUS (Table 13-6). -/
def linkStatus (k : LinkSt) : Nat := k.state % 4 + (k.cause % 256) * 2 ^ 8 + b2n k.rerouted * 2 ^ 16

/-- LEASE_STATUS (R391), of the module's own role. -/
def leaseStatus (s : State) : Nat :=
  let r := s.buddy.own
  min 65535 ((s.ptime - r.granted) / 1000000) + b2n r.late * 2 ^ 16 + (r.epoch % 2 ^ 32) * 2 ^ 32

/-- MIRROR_STATUS (R395). -/
def mirrorStatus (m : MirrorSt) : Nat := m.cycle % 2 ^ 48 + b2n m.simplex * 2 ^ 62 + b2n m.up * 2 ^ 63

/-- KEY_SLOT_TABLE (R358). -/
def keyTable (s : State) : Bytes :=
  ((List.range 256).map (fun k =>
    let x := getSlot s k
    leBytes 1 x.state ++ leBytes 1 x.part ++ leBytes 2 x.epoch)).flatten

/-- Packets held for reorder now. -/
def reorderHeld (s : State) : Nat := (s.fabric.recv.map (fun e => e.2.held.length)).foldl (· + ·) 0

/-- The value of an object that shows something the module keeps elsewhere. -/
def viewed (s : State) (p index sub : Nat) : Option Nat :=
  match index with
  | 0x1000 => some (ofLe deviceIdentity)
  | 0x1200 => some (ofLe (slice (firmwareDigests s) 0 160))
  | 0x2321 => some (obj s 0x2321 0 % 2 ^ 31 + b2n (s.dram.init.getLsbD (obj s 0x2321 0)) * 2 ^ 31)
  | 0x2B00 => if sub = 0 then none else some (b2n (unlocked s (sub - 1) false) + 2 * b2n (unlocked s (sub - 1) true))
  | 0x3000 => some (powerState s.power)
  | 0x3001 => some (inputStatus s.power)
  | 0x3003 => some (s.power.junction % 256 + (s.power.stack % 256) * 256)
  | 0x3004 => some s.mram.lastShutdown
  | 0x3120 => if sub = 0 then none else some (pobj s (sub - 1) 0x6100 0)
  | 0x3121 => if sub = 0 then none else some (pobj s (sub - 1) 0x6103 0)
  | 0x3301 => some (evacStatus s)
  | 0x3400 => if sub = 0 then none else some (portStatus (getLane s (sub - 1)))
  | 0x3430 => if sub = 0 then none else some (linkStatus (getLink s (sub - 1)))
  | 0x3441 => some (reorderHeld s)
  | 0x3501 => if sub = 0 then none else some (b2n (getSched s (sub - 1)).panic)
  | 0x3701 => some (waitsAll s)
  | 0x3800 => if sub = 0 then none else some (if sub = 1 then s.buddy.own.code else s.buddy.other.code)
  | 0x3801 => some (leaseStatus s)
  | 0x3802 => some (mirrorStatus s.buddy.mirror)
  | 0x3A00 => some (bringupStatus s.power)
  | 0x3A01 => some (ofLe (discoveredTable s))
  | 0x3B00 => some s.ptime
  | 0x3B01 => some s.mram.hours
  | 0x6101 => some (ownEp s)
  | 0x6102 => some (obj s 0x2111 (p + 1))
  | 0x6701 => some (syncRange s p)
  | 0x7000 => some (ofLe (slice attestPubkey 0 97))
  | 0x7001 => some (ofLe (slice attestEndorsement 0 96))
  | 0x7002 => some (ofLe (slice kaPubkey 0 97))
  | 0x7022 => some (ofLe (keyTable s))
  | 0x7041 => some s.power.debug
  | 0x7051 => some (b2n s.mram.fmKey.isSome)
  | 0x8002 => some (lovageStatus s)
  | _ => none

/-- The value an object reads as. -/
def objValue (s : State) (p index sub : Nat) : Nat := (viewed s p index sub).getD (pobj s p index sub)

/-- The partition whose object an access reaches (R439). -/
def windowOf (s : State) (r : Role) (index part : Nat) : Except Status Nat :=
  if !inWindow index then .ok 0
  else
    match r with
    | .pd p => .ok p
    | _ => if part = 0xFF ∨ geomParts s ≤ part then .error .errFormat else .ok part

/-- A read of an object (Table 20-3): its status and its bytes. -/
def objRead (r : Role) (index sub part : Nat) (s : State) : Status × Bytes :=
  match objRow? index sub with
  | none => (.errTranslate, [])
  | some row =>
    if mayRead r index sub = false ∨ row.kind = .wo then (.errPermission, [])
    else
      match windowOf s r index part with
      | .error e => (e, [])
      | .ok p => (.ok, leBytes row.width (objValue s p index sub))

/-! ## What a write does -/

/-- Does a value lie in the range its row states (Table 20-3)? -/
def valueOk (c : ObjCheck) (v : Nat) : Bool :=
  match c with
  | .any => true
  | .range lo hi => decide (lo ≤ v) && decide (v ≤ hi)
  | .rangeOr lo hi o => (decide (lo ≤ v) && decide (v ≤ hi)) || v == o
  | .oneOf vs => vs.contains v
  | .bits m => v &&& m == v

/-- Is every record of a shape one of R340: CAP at least 1 where RATE is not 0, rsvd bytes zero? -/
def shapesOk (n v : Nat) : Bool :=
  (List.range n).all (fun i =>
    field v (64 * i + 63) (64 * i + 48) == 0 && (field v (64 * i + 31) (64 * i) == 0 || field v (64 * i + 47) (64 * i + 32) != 0))

/-- The checks of a value against other objects (Tables 14-8, 15-6) and of its parts. -/
def relationOk (s : State) (index v : Nat) : Bool :=
  match index with
  | 0x2503 => (List.range 256).all (fun e => decide (field v (8 * e + 7) (8 * e) ≤ 64))
  | 0x4422 => decide (v < obj s 0x4423 0)
  | 0x4423 => decide (obj s 0x4422 0 < v)
  | 0x4424 => decide (obj s 0x4425 0 < v)
  | 0x4425 => decide (v < obj s 0x4424 0)
  | 0x4500 => shapesOk 3 v
  | 0x4501 => shapesOk 12 v
  | 0x4504 => decide (v < obj s 0x4505 0)
  | 0x4505 => decide (obj s 0x4504 0 < v)
  | _ => true

/-- Events waiting are sent while they may be; once there is room, one EVENTS_LOST event carries the count (R426). -/
def flushEvents (s : State) : State :=
  let s1 := (List.range 8).foldl (fun s _ => sendEvent s) s
  if s1.mgmt.lost = 0 ∨ 256 ≤ s1.mgmt.events.length then s1
  else raiseEvent 0x0005 (leBytes 8 s1.mgmt.lost) { s1 with mgmt := { s1.mgmt with lost := 0 } }

/-- A counter takes a write of zero only (R16). -/
def counterWrite (p index sub v : Nat) (s : State) : Status × State :=
  if v = 0 then (.ok, setPobj p index sub 0 s) else (.errFormat, s)

/-- An object that has no behaviour of its own is stored; a forced preset is taken by the lanes, and a new CAP by the credits, at
once (R267, R342). -/
def plainWrite (p index sub v : Nat) (s : State) : Status × State :=
  if !relationOk s index v then (.errFormat, s)
  else
    let s1 := setPobj p index sub v s
    (.ok, if index = 0x2B01 then flushEvents s1 else if index = 0x4405 then sendAllTaps (sub - 1) s1
      else if index = 0x4500 ∨ index = 0x4501 then capCredits (sub - 1) s1 else s1)

/-- What a write of a checked value does; `wop`: it came over WOP. -/
def objPerform (wop : Bool) (r : Role) (row : ObjRow) (p index sub v : Nat) (d : Bytes) (s : State) : Status × State :=
  if row.kind = .counter ∨ row.kind = .counterRws then counterWrite p index sub v s
  else
    match index with
    | 0x2000 => opPowerState wop d s
    | 0x2100 => opPartCmd d s
    | 0x2110 => opPartBlocks (sub - 1) v s
    | 0x2111 => opPartEpGrant (sub - 1) v s
    | 0x2112 => opPartKeys (sub - 1) v s
    | 0x2120 => opEpGrant (sub - 1) v s
    | 0x2121 => opEpGrant (sub + 127) v s
    | 0x2122 => opEpPartition v s
    | 0x2200 => regionCmd d s
    | 0x2202 => declareDead v s
    | 0x2210 => hostTableWrite (sub - 1) v s
    | 0x2320 => blockMarkInit v s
    | 0x2321 => blockInitQuery v s
    | 0x2330 => spareStackCmd v s
    | 0x2400 => opPortEnable (sub - 1) v s
    | 0x2402 => opRetrain v s
    | 0x2420 => opRoute (sub - 1) v s
    | 0x2421 => opRoute (sub + 127) v s
    | 0x2422 => opOwnEndpoint v s
    | 0x2501 => opSubMin (sub - 1) v s
    | 0x2600 => opTileOwner (sub - 1) v s
    | 0x2601 => opQueueAssign v s
    | 0x2602 => opPartLd (sub - 1) v s
    | 0x2700 => opSyncRange (sub - 1) v s
    | 0x2801 => opRoleSwap v s
    | 0x2802 => opSpareTile v s
    | 0x2803 => opDivergence v s
    | 0x2900 => opModuleReset v s
    | 0x2A01 => opExpected v s
    | 0x2A02 => opTopoAccept v s
    | 0x2B00 => opUnlock (r == .mon) (sub - 1) v s
    | 0x4330 => chkCmd d s
    | 0x4400 => opEyeScan d s
    | 0x4407 => opLoopback d s
    | 0x4A00 => opRollback v s
    | 0x6100 => opPtRoot p v s
    | 0x6900 => opSelfReset p v s
    | 0x7010 => opAttest (roleDriver r) d s
    | 0x7020 => opKeySlot (roleDriver r) d s
    | 0x7030 => opBlob (roleDriver r) d s
    | 0x7050 => opFmKey d s
    | 0x8000 => opLovage (r == .mon) d s
    | _ => plainWrite p index sub v s

/-- The checks of a write in the order of Table 20-3, then R439's: its row, its partition. -/
def writeCheck (s : State) (r : Role) (index sub part : Nat) (d : Bytes) : Except Status (ObjRow × Nat) :=
  match objRow? index sub with
  | none => .error .errTranslate
  | some row =>
    if mayWrite s r row sub = false ∨ row.kind = .ro ∨ row.kind = .const then .error .errPermission
    else if row.expert = true ∧ unlocked s (expertGroup index) (r == .mon) = false then .error .errPermission
    else
      match windowOf s r index part with
      | .error e => .error e
      | .ok p =>
        if inWindow index = true ∧ partState s p = 0 then .error .errPermission
        else if d.length ≠ row.width ∨ valueOk row.check (ofLe d) = false then .error .errFormat
        else .ok (row, p)

/-- A write of an object: its status; nothing is performed unless it is OK, and one by FM or MON is recorded (Table 20-7). -/
def objWrite (wop : Bool) (r : Role) (index sub part : Nat) (d : Bytes) (s : State) : Status × State :=
  match writeCheck s r index sub part d with
  | .error e => (e, s)
  | .ok (row, p) =>
    let x := objPerform wop r row p index sub (ofLe d) d s
    match x.1, r with
    | .ok, .fm => (.ok, writeRecorded 0 index sub part x.2)
    | .ok, .mon => (.ok, writeRecorded 1 index sub part x.2)
    | _, _ => x

/-! ## Commands that are writes of one object -/

/-- OBJECT_WRITE (R423). -/
def execObjectWrite (role : Role) (index sub part : Nat) (data : Bytes) (s : State) : Out :=
  .next (answerCmd (objWrite false role index sub part data s))

/-- FM_KEY_CMD (R424). -/
def execFmKeyCmd (role : Role) (cmd : Bytes) (s : State) : Out := .next (answerCmd (objWrite false role 0x7050 0 0xFF cmd s))

/-- EXPERT_UNLOCK (R429). -/
def execExpertUnlock (role : Role) (group : Nat) (s : State) : Out :=
  .next (answerCmd (objWrite false role 0x2B00 (group + 1) 0xFF (leBytes 2 0xE0C1) s))

/-- EXPERT_LOCK (R429). -/
def execExpertLock (role : Role) (group : Nat) (s : State) : Out :=
  .next (answerCmd (objWrite false role 0x2B00 (group + 1) 0xFF (leBytes 2 0) s))

/-- EXPERT_UNLOCK_LAPSE (R429): the unlock's lifetime has passed. -/
def execExpertUnlockLapse (mon : Bool) (group : Nat) (s : State) : Out :=
  .next (match smFind? (unlockKey group mon) s.mgmt.unlocks with
    | some t => if s.ptime < t then s else { s with mgmt := { s.mgmt with unlocks := smErase (unlockKey group mon) s.mgmt.unlocks } }
    | none => s)

/-- The 8 bytes of a LOVAGE_CONTROL command. -/
def lovageCmd (op n seq : Nat) : Bytes := leBytes 1 op ++ leBytes 1 n ++ zeros 2 ++ leBytes 4 seq

/-- LOVAGE_CONTROL READ (R433). -/
def execLovageRead (role : Role) (count seq : Nat) (s : State) : Out :=
  .next (answerCmd (objWrite false role 0x8000 0 0xFF (lovageCmd 1 count seq) s))
/-- LOVAGE_CONTROL READ_COPIES (R433). -/
def execLovageReadCopies (role : Role) (seq : Nat) (s : State) : Out :=
  .next (answerCmd (objWrite false role 0x8000 0 0xFF (lovageCmd 2 1 seq) s))
/-- LOVAGE_CONTROL FREEZE (R433). -/
def execLovageFreeze (role : Role) (s : State) : Out := .next (answerCmd (objWrite false role 0x8000 0 0xFF (lovageCmd 3 1 0) s))
/-- LOVAGE_CONTROL UNFREEZE (R433). -/
def execLovageUnfreeze (role : Role) (s : State) : Out := .next (answerCmd (objWrite false role 0x8000 0 0xFF (lovageCmd 4 1 0) s))
/-- LOVAGE_CONTROL CLEAR (R433). -/
def execLovageClear (role : Role) (s : State) : Out := .next (answerCmd (objWrite false role 0x8000 0 0xFF (lovageCmd 5 1 0) s))

end Sys2Proof.Machine
end

