-- ==== Sys2Proof/Machine/Mgmt.lean ====
section
/-!
DEFINITION. The paths to the object dictionary (spec/20 R421, R424-R428, R434, R435; spec/22 R451): WOP, events, the CXL
mailbox and the object window, MGMT cells, Fife, JTAG.
-/
namespace Sys2Proof.Machine

/-! ## WOP (R423, R425) -/

/-- Drop a WOP message unanswered, and count it (R425). -/
def wopDrop (s : State) : State := bump 0x3B02 1 s

/-- Answer a WOP request and keep the response among the last 16 (R425). -/
def wopAnswer (ctr : Nat) (tag : Bytes) (index sub part : Nat) (r : (Status × Bytes) × State) : State :=
  let m := wopMsg 3 (statusCode r.1.1) index sub part r.1.2 r.2
  send m { r.2 with mgmt := { r.2.mgmt with
    ctr := r.2.mgmt.ctr + 1
    responses := (r.2.mgmt.responses ++ [(ctr, tag, m)]).drop ((r.2.mgmt.responses.length + 1) - 16) } }

/-- A WOP request of a type arrives: without a tag it acts in role ANY, with one as FM once the tag verifies and CTR is
higher than any accepted before; a request already answered is answered again; everything else is dropped. -/
def wopRequest (type ctr index sub part : Nat) (data : Bytes) (tag : Option Bytes)
    (f : Role → Bytes → State → (Status × Bytes) × State) (s : State) : State :=
  match tag with
  | none => wopAnswer ctr [] index sub part (f .any data s)
  | some t =>
    match s.mgmt.responses.find? (fun r => r.1 == ctr && r.2.1 == t) with
    | some r => send r.2.2 s
    | none =>
      match s.mram.fmKey with
      | none => wopDrop s
      | some k =>
        if ctr ≤ s.mram.fmCtr then wopDrop s
        else
          match gcmOpen k (wopNonce 0 ctr) (wopHeader type 1 0 ctr 0 index sub part data.length) data t with
          | none => wopDrop s
          | some d => wopAnswer ctr t index sub part (f .fm d { s with mram := { s.mram with fmCtr := ctr } })

/-- WOP_READ. -/
def execWopRead (ctr index sub part : Nat) (tag : Option Bytes) (s : State) : Out :=
  .next (if s.power.powered = false then s
    else wopRequest 1 ctr index sub part [] tag (fun r _ s => (objRead r index sub part s, s)) s)

/-- WOP_WRITE. -/
def execWopWrite (ctr index sub part : Nat) (data : Bytes) (tag : Option Bytes) (s : State) : Out :=
  .next (if s.power.powered = false then s
    else wopRequest 2 ctr index sub part data tag (fun r d s =>
      let w := objWrite true r index sub part d s
      ((w.1, []), w.2)) s)

/-! ## Events (R426) -/

/-- EVENT_ACK with an event's CTR. -/
def execEventAck (ctr : Nat) (s : State) : Out :=
  .next (if s.mgmt.unacked.any (fun e => e.ctr == ctr) then
      flushEvents { s with mgmt := { s.mgmt with unacked := s.mgmt.unacked.filter (fun e => e.ctr != ctr) } }
    else s)

/-- Resend one event: a new message, whose CTR is from then on the event's. -/
def resendEvent (e : EventRec) (s : State) : State :=
  let s1 := sendWop 0x04 0 e.code 0 0xFF e.data s
  { s1 with mgmt := { s1.mgmt with unacked := s1.mgmt.unacked ++ [{ e with ctr := s1.mgmt.ctr }] } }

/-- EVENT_RESEND_TIMER: each unacknowledged event is resent, in the order in which they arose. -/
def execEventResendTimer (s : State) : Out :=
  .next (if s.power.powered = false then s
    else s.mgmt.unacked.foldl (fun s e => resendEvent e s) { s with mgmt := { s.mgmt with unacked := [] } })

/-! ## The CXL mailbox and the object window (R427) -/

/-- The role of an LD's mailbox and object window; 64 + port is the FM-owned LD of a port. -/
def ldRole (s : State) (ld : Nat) : Role :=
  if 64 ≤ ld then .fm
  else
    match (List.range 64).find? (fun p => (partLds s p).contains ld) with
    | some p => .pd p
    | none => .any

/-- OBJ_READ by a mailbox's LD. -/
def execObjRead (ld index sub part : Nat) (s : State) : Out :=
  .next (if s.power.mainOn = false then s else answerMailbox ld (objRead (ldRole s ld) index sub part s, s))

/-- OBJ_WRITE by a mailbox's LD. -/
def execObjWrite (ld index sub part : Nat) (data : Bytes) (s : State) : Out :=
  .next (if s.power.mainOn = false then s
    else
      let r := objWrite false (ldRole s ld) index sub part data s
      answerMailbox ld ((r.1, []), r.2))

def win0 : ObjWin := { addr := 0, len := 0, token := 0, status := 0, busy := false, data := zeros 2048 }

/-- The registers of an LD's object window. -/
def getWin (s : State) (ld : Nat) : ObjWin := smGet win0 ld s.mgmt.windows

def setWin (ld : Nat) (w : ObjWin) (s : State) : State := { s with mgmt := { s.mgmt with windows := smSet win0 ld w s.mgmt.windows } }

/-- One operation of an object window on the registers as written, with its TOKEN: discarded while BUSY is 1. -/
def windowOp (ld token addr len : Nat) (data : Bytes) (f : Role → Nat → Nat → Nat → Nat → State → (Status × Bytes) × State)
    (s : State) : State :=
  if s.power.mainOn = false ∨ (getWin s ld).busy = true then s
  else
    let n := field len 11 0
    let r : (Status × Bytes) × State :=
      if n = 0 ∨ 2048 < n then ((.errFormat, []), s)
      else f (ldRole s ld) (field addr 15 0) (field addr 23 16) (field addr 31 24) n s
    setWin ld { addr := addr, len := len, token := token % 65536, status := statusCode r.1.1, busy := false
                data := slice (splice (slice data 0 2048) 0 r.1.2) 0 2048 } r.2

/-- OBJ_CTRL with OP read. -/
def execObjWindowRead (ld token addr len : Nat) (data : Bytes) (s : State) : Out :=
  .next (windowOp ld token addr len data (fun r index sub part n s =>
    let x := objRead r index sub part s
    (if x.1 = .ok ∧ x.2.length ≠ n then (.errFormat, []) else x, s)) s)

/-- OBJ_CTRL with OP write. -/
def execObjWindowWrite (ld token addr len : Nat) (data : Bytes) (s : State) : Out :=
  .next (windowOp ld token addr len data (fun r index sub part n s =>
    let x := objWrite false r index sub part (slice data 0 n) s
    ((x.1, []), x.2)) s)

/-! ## MGMT cells (R428) -/

/-- The role a source endpoint acts in. -/
def cellRole (s : State) (src : Nat) : Role := if epPartition s src = 0xFF then .any else .pd (epPartition s src)

/-- A response cell. -/
def mgmtAnswer (b : Bytes) (r : (Status × Bytes) × State) : State :=
  let s := r.2
  let src := leAt b 2 1
  let len := if r.1.2.isEmpty then leAt b 9 1 else r.1.2.length
  let cell := leBytes 1 0xC3 ++ leBytes 1 src ++ leBytes 1 (ownEp s) ++ [0, 3] ++ leBytes 1 (statusCode r.1.1) ++ slice b 6 3 ++
    leBytes 1 len ++ zeros 2 ++ slice b 12 4 ++ slice r.1.2 0 8 ++ zeros 8
  originate (outUnit (.cell cell) (epSub s src) 3 none) s

/-- An MGMT cell for the module: a read, a write, a response that answers nothing, or one with an OP or a LEN that R428 does
not list; rsvd bytes are ignored (R8). -/
def mgmtCell (b : Bytes) (s : State) : State :=
  let r := cellRole s (leAt b 2 1)
  let index := leAt b 6 2
  let sub := leAt b 8 1
  let n := leAt b 9 1
  if leAt b 4 1 = 3 then bump 0x3440 4 s
  else if leAt b 4 1 = 0 ∨ 3 < leAt b 4 1 ∨ n = 0 ∨ 8 < n then mgmtAnswer b ((.errFormat, []), s)
  else if leAt b 4 1 = 1 then
    let x := objRead r index sub 0xFF s
    mgmtAnswer b (if x.1 = .ok ∧ x.2.length ≠ n then (.errFormat, []) else x, s)
  else
    let x := objWrite false r index sub 0xFF (slice b 16 n) s
    mgmtAnswer b ((x.1, []), x.2)

/-- A cell's 32 bytes with an OP. -/
def cellOp (op : Nat) (b : Bytes) : Bytes := splice (slice b 0 32) 4 (leBytes 1 op)

/-- MGMT_CELL_READ. -/
def execMgmtCellRead (cell : Bytes) (s : State) : Out := .next (mgmtCell (cellOp 1 cell) s)
/-- MGMT_CELL_WRITE. -/
def execMgmtCellWrite (cell : Bytes) (s : State) : Out := .next (mgmtCell (cellOp 2 cell) s)

/-! ## Fife (R434) -/

/-- Does the firmware image run? Before it does, the boot ROM serves only the commands of Table 20-8 marked so. -/
def imageRuns (s : State) : Bool := s.power.image.isSome

/-- A Fife command: served while the island is powered, and by the boot ROM if it is one of the ROM's. -/
def fifeCmd (rom : Bool) (f : State → (Status × Bytes) × State) (s : State) : Out :=
  .next (if s.power.powered = true ∧ (rom || imageRuns s) = true then
      let r := f s
      send (.fife r.1.1 r.1.2) r.2
    else s)

/-- `status`: power state, BRINGUP_STATUS, INPUT_STATUS, PTIME. -/
def execFifeStatus (s : State) : Out :=
  fifeCmd true (fun s => ((.ok, leBytes 4 (powerState s.power) ++ leBytes 4 (bringupStatus s.power) ++ leBytes 4 (inputStatus s.power) ++
    leBytes 8 s.ptime), s)) s

/-- `get i.s`. -/
def execFifeGet (index sub : Nat) (s : State) : Out := fifeCmd false (fun s => (objRead .mon index sub 0xFF s, s)) s

/-- A Fife command that writes an object. -/
def fifeWrite (index sub : Nat) (data : Bytes) (s : State) : Out :=
  fifeCmd false (fun s =>
    let w := objWrite false .mon index sub 0xFF data s
    ((w.1, []), w.2)) s

/-- `set i.s bytes`. -/
def execFifeSet (index sub : Nat) (data : Bytes) (s : State) : Out := fifeWrite index sub data s

/-- `lovage n`: the newest n records, oldest of them first, each behind its flags. -/
def execFifeLovage (n : Nat) (s : State) : Out :=
  fifeCmd true (fun s =>
    if n = 0 ∨ 64 < n then ((.errFormat, []), s)
    else ((.ok, ((List.range n).map (fun i =>
      let r := lovageRead s (s.lovage.seq + 2 ^ 32 - (n - i))
      leBytes 1 r.1 ++ r.2)).flatten), s)) s

/-- `unlock g`. -/
def execFifeUnlock (group : Nat) (s : State) : Out := fifeWrite 0x2B00 (group + 1) (leBytes 2 0xE0C1) s
/-- `lock g`. -/
def execFifeLock (group : Nat) (s : State) : Out := fifeWrite 0x2B00 (group + 1) (leBytes 2 0) s

/-- `reset`: MODULE_RESET_CMD IMMEDIATE with cause 3, in DEBUG_STATE 1 or 2. -/
def execFifeReset (s : State) : Out :=
  fifeCmd true (fun s =>
    if debugging s then ((.ok, []), writeRecorded 1 0x2900 0 0xFF (moduleReset 3 s)) else ((.errPermission, []), s)) s

/-! ## JTAG and lands (R435, R451) -/

/-- What a test instruction drives: EXTEST and its 1149.6 forms the cells just updated, CLAMP those that SAMPLE/PRELOAD
left, HIGHZ nothing; a land whose control cell is 0 is not driven (R435, R446). -/
def landTest (t : TapTest) (c : Boundary) : Msg :=
  if t = .highz then .landTest t none none none
  else .landTest t (if c.pfailCtl then some c.pfailOut else none) (if c.uartTxdCtl then some c.uartTxdOut else none) (some c.tx)

/-- The boundary register as what is shifted in at TDI and what the lands and receivers show make it: free values, from the
n-th on (log entry 115). -/
def tapCells (n : Nat) : Boundary :=
  let w (i : Nat) : BitVec 64 := Config.freeValue (n + i)
  { uartTxdCtl := (w 0).getLsbD 0, uartTxdOut := (w 0).getLsbD 1, pfailCtl := (w 0).getLsbD 2, pfailOut := (w 0).getLsbD 3
    uartRxd := (w 0).getLsbD 4, claimClrN := (w 0).getLsbD 5, perstN := (w 0).extractLsb' 6 4
    refclk25 := (w 0).getLsbD 10, refclk100 := (w 0).getLsbD 11, refclk156 := (w 0).getLsbD 12
    tx := (w 1 ++ w 2 ++ w 3 ++ w 4).setWidth 209
    rx := (w 5 ++ w 6 ++ w 7 ++ w 8).setWidth 209 }

/-- Which of the five test instructions the TAP loads: a free value. -/
def tapTest (n : Nat) : TapTest :=
  match (Config.freeValue n).toNat % 5 with
  | 0 => .extest | 1 => .extestPulse | 2 => .extestTrain | 3 => .clamp | _ => .highz

/-- What the TAP holds instead when it lets the module go: a free value. -/
def tapQuiet (n : Nat) : TapQuiet :=
  match (Config.freeValue n).toNat % 5 with
  | 0 => .testLogicReset | 1 => .bypass | 2 => .idcode | 3 => .samplePreload | _ => .dxdbg

/-- A test instruction: an IMMEDIATE module reset, in which the TAP holds the module and drives its lands; `cells` is the
boundary register as it is updated and captured under one of the EXTEST instructions. -/
def loadTest (ins : TapTest) (cells : Boundary) (s : State) : State :=
  if s.power.powered = false then s
  else
    let c := if ins = .clamp ∨ ins = .highz then s.mgmt.cells else cells
    send (landTest ins c) (moduleReset 4 { s with mgmt := { s.mgmt with jtagHold := true, tap := .test ins, cells := c } })

/-- JTAG_TEST_INSTRUCTION. The row has no operand: which instruction is loaded and what is shifted in are free values. -/
def execJtagTestInstruction (s : State) : Out :=
  .next (loadTest (tapTest s.fresh) (tapCells (s.fresh + 1)) { s with fresh := s.fresh + 10 })

/-- An instruction that tests nothing: the lands are the module's own again, and the start that the TAP held goes on. SAMPLE/PRELOAD captures and
updates the cells; IDCODE answers the identity; DXDBG, which acts as BYPASS in DEBUG_STATE 0 alone, releases nothing in the others (R435). -/
def loadQuiet (ins : TapQuiet) (cells : Boundary) (s : State) : State :=
  if s.power.powered = false then s
  else
    let m1 := { s.mgmt with tap := .quiet ins, cells := if ins = .samplePreload then cells else s.mgmt.cells }
    let sq := match s.mgmt.tap with
      | .test _ => send .landsFree { s with mgmt := m1 }
      | .quiet _ => { s with mgmt := m1 }
    let s0 := if ins = .idcode then send (.idcode 0x0896D3A7) sq else sq
    let s1 := { s0 with mgmt := { s0.mgmt with jtagHold := false } }
    if ins = .dxdbg ∧ debugging s = true then s0
    else if s.mgmt.jtagHold = false ∨ s.power.mainOn = false then s1
    else if s.power.kind = 2 ∧ s.power.phase = 2 then warmGoOn s1
    else if s.power.kind = 1 ∧ s.power.phase = 1 ∧ s.power.ref25 = true then enterPhase 3 (bootRom s1)
    else s1

/-- JTAG_TEST_RELEASE, with the same free values. -/
def execJtagTestRelease (s : State) : Out :=
  .next (loadQuiet (tapQuiet s.fresh) (tapCells (s.fresh + 1)) { s with fresh := s.fresh + 10 })

/-- CLAIM_CLR_SAMPLE: the two samples of CLAIM_CLR_N at power-on; both low return the module to UNCLAIMED. -/
def execClaimClrSample (low1 low2 : Bool) (s : State) : Out :=
  .next (if low1 && low2 then { s with mram := { s.mram with fmKey := none, fmCtr := 0 } } else s)

end Sys2Proof.Machine
end

