-- ==== Sys2Proof/Machine/Fabric.lean ====
section
/-!
DEFINITION. Packets and cells that arrive at the module (spec/14 R311-R326, R460): their order restored, requests served,
acknowledgements and answers taken, multicast split, transit sent on; the timers of the fabric.
-/
namespace Sys2Proof.Machine

/-- Count a discard in NF_MALFORMED. -/
def malformed (s : State) : State := bump 0x3440 4 s

/-! ## Acknowledgements taken (R317, R319, R324, R325) -/

/-- SEQ_ACK: ACKED rises when ACK_PSN is later. -/
def takeAck (p : Packet) (s : State) : State :=
  let src := pkSrc p
  let ack := field p.hdr 79 64
  if bitOf p.hdr 82 then
    let st := smGet send0 src s.fabric.sendCell
    if laterW 8 (ack % 256) (st.acked % 256) then
      retryWaiting { s with fabric := { s.fabric with sendCell := smSet send0 src { st with acked := ack % 256 } s.fabric.sendCell } }
    else s
  else
    let k := streamKey src (field p.hdr 81 80)
    let st := smGet send0 k s.fabric.send
    if laterW 16 ack st.acked then
      retryWaiting { s with fabric := { s.fabric with send := smSet send0 k { st with acked := ack } s.fabric.send } }
    else s

/-- The MPSNs that MC_ACK or MC_SKIP covers. -/
def mcCovered (p : Packet) : List Nat := (onesBelow 32 (field p.hdr 111 80)).map (fun i => (field p.hdr 79 64 + i) % 65536)

/-- Classes in which an endpoint owes the acknowledgement of a covered MPSN: the packet does not name the class. -/
def mcClasses (s : State) (ns : List Nat) (e : Nat) : List Nat :=
  (List.range 4).filter (fun tc => ns.any (fun n =>
    match smFind? (tc * 65536 + n) s.fabric.mcOut with | some m => m.members.contains e | none => false))

/-- MC_ACK and MC_SKIP: the member is out of the covered packets; which class is meant is free where more than one can be. -/
def takeMc (skip : Bool) (p : Packet) (s : State) : State :=
  let e := field p.hdr 119 112
  let ns := mcCovered p
  let go (tc : Nat) (s : State) : State := retryWaiting (ns.foldl (fun s n => mcRemove tc n [e] skip s) s)
  match mcClasses s ns e with
  | [] => s
  | [tc] => go tc s
  | tc :: tcs =>
    let f := takeFree s
    go ((tc :: tcs).getD (f.1.toNat % (tcs.length + 1)) tc) f.2

/-! ## Answers (R310, R321, R331, R460) -/

/-- Does an answer's opcode fit the request it answers? An answer that reports an error may be COMP or a data response. -/
def answerFits (w : ReqFor) (opc : Nat) (st : Status) : Bool :=
  st != .ok ||
  (match w with
   | .jobRead .. => opc == 0x20
   | .queueFetch .. => opc == 0x20
   | .jobWrite .. => opc == 0x21
   | .record .. => opc == 0x21)

/-- Does an answer carry the generation of a context that has moved on (R132, R331)? The partition that counts it. -/
def staleFor (s : State) (w : ReqFor) (p : Packet) : Option Nat :=
  let of (j : Nat) : Option Nat :=
    match getJob? s j with
    | some x =>
      match dCtx? x.desc with
      | some k => if pkGv p && (getCtx s x.part k).gen != pkGen p then some x.part else none
      | none => none
    | none => none
  match w with
  | .jobRead j .. => of j
  | .jobWrite j .. => of j
  | _ => none

/-- The bytes of an answer's span: sectors that are not carried read as zeros (R307). -/
def spanBytes (p : Packet) : Bytes := ((spanSectors p).map (fun x => slice (x.getD []) 0 32)).flatten

/-- A request has been answered OK. -/
def answerOk (w : ReqFor) (p : Packet) (s : State) : State :=
  match w with
  | .jobRead j chan slot off lead len _ =>
    let d := slice (spanBytes p) lead len
    let put (m : SMap Byte) : SMap Byte :=
      (d.zip (List.range len)).foldl (fun m e => smPut (slot * 2 ^ 40 + off + e.2) e.1 m) m
    jobAnswered j chan none 0 (updJob j (fun x => { x with remote := put x.remote }) s)
  | .jobWrite j chan _ => jobAnswered j chan none 0 s
  | .queueFetch q head =>
    updQueue q (fun x => if x.fetching = true ∧ x.head = head then
      { x with fetching := false, fetched := some (.ok, slice (spanBytes p) 0 128) } else x) s
  | .record part vec => match vec with | some v => signalVector part v s | none => s

/-- An answer: matched by SRC and TAG, or by ORIG_DST and TAG when it is a proxy's. -/
def takeAnswer (count : Nat) (p : Packet) (s : State) : State :=
  let k := reqKey (if pkProxy p then pkOrigDst p else pkSrc p) (pkTag p)
  match smFind? k s.fabric.reqs with
  | none => malformed s
  | some r =>
    let st := statusOf (pkStatus p)
    let s1 := { s with fabric := { s.fabric with reqs := smErase k s.fabric.reqs } }
    let kp := exchangePart s (pkSrc p) r.part
    match (if pkProxy p then some p else openPacket s (some kp) count p) with
    | none => failFor r.who .errKey (countAuth (some kp) s1)
    | some q =>
      if !answerFits r.who (pkOpc p) st then malformed s
      else
        match staleFor s r.who p with
        | some part => failFor r.who .contextGone (pbump part 0x6902 2 1 s1)
        | none => if st = .ok then answerOk r.who q s1 else failFor r.who st s1

/-! ## Units in order (R311, R318-R320) -/

/-- What a delivered unit does, with the COUNT its place in the stream gives it. -/
def deliverUnit (count : Nat) (u : NlUnit) (s : State) : State :=
  match u with
  | .cell b =>
    if leAt b 0 1 = 0xC1 then syncCell b s else if leAt b 0 1 = 0xC3 then mgmtCell b s else malformed s
  | .pkt p =>
    if 1 ≤ pkOpc p ∧ pkOpc p ≤ 7 then serveReq (epGrants s (pkSrc p)) count p s
    else if pkOpc p = 0x10 then takeAck p s
    else if pkOpc p = 0x11 then takeMc false p s
    else if pkOpc p = 0x12 then takeMc true p s
    else if 0x20 ≤ pkOpc p ∧ pkOpc p ≤ 0x22 then takeAnswer count p s
    else malformed s

/-- A receive stream: of cells by source, of packets by source and class. -/
def getRecv (s : State) (cell : Bool) (k : Nat) : RecvStream := smGet recv0 k (if cell then s.fabric.recvCell else s.fabric.recv)

def setRecv (cell : Bool) (k : Nat) (r : RecvStream) (s : State) : State :=
  { s with fabric :=
    if cell then { s.fabric with recvCell := smSet recv0 k r s.fabric.recvCell }
    else { s.fabric with recv := smSet recv0 k r s.fabric.recv } }

/-- The key of a stream. -/
def recvKey (cell : Bool) (src tc : Nat) : Nat := if cell then src else streamKey src tc

/-- Numbers of a stream: 16 bits, 8 for cells. -/
def seqSpace (cell : Bool) : Nat := if cell then 256 else 65536

/-- Send SEQ_ACK with the last number delivered (R319). -/
def seqAck (cell : Bool) (src tc : Nat) (s : State) : State :=
  let k := recvKey cell src tc
  let r := getRecv s cell k
  controlPacket 0x10 src ((r.exp + seqSpace cell - 1) % seqSpace cell + (if cell then 0 else tc % 4 * 2 ^ 16) + b2n cell * 2 ^ 18)
    (setRecv cell k { r with unacked := 0 } s)

/-- Deliver the unit that has the number expected: EXP moves on, and every 256 deliveries are acknowledged. -/
def deliverNext (cell : Bool) (src tc : Nat) (u : NlUnit) (s : State) : State :=
  let k := recvKey cell src tc
  let r := getRecv s cell k
  let w := seqSpace cell
  let r1 := { r with
    exp := (r.exp + 1) % w, wraps := if r.exp + 1 = w then r.wraps + 1 else r.wraps, held := smErase r.exp r.held
    unacked := r.unacked + 1 }
  let s1 := deliverUnit (r.wraps * w + r.exp) u (setRecv cell k r1 s)
  if 256 ≤ (getRecv s1 cell k).unacked then seqAck cell src tc s1 else s1

/-- Deliver the held successors of what has been delivered. -/
def deliverHeld (cell : Bool) (src tc : Nat) : Nat → State → State
  | 0, s => s
  | n + 1, s =>
    let r := getRecv s cell (recvKey cell src tc)
    match smFind? r.exp r.held with
    | some u => deliverHeld cell src tc n (deliverNext cell src tc u s)
    | none => s

/-- A unit for this module with a number: delivered, held, a duplicate, or beyond the window (R311, R318). -/
def receiveUnit (cell : Bool) (src tc seq : Nat) (u : NlUnit) (s : State) : State :=
  let k := recvKey cell src tc
  let r := getRecv s cell k
  let w := seqSpace cell
  let d := (seq + w - r.exp % w) % w
  if d = 0 then deliverHeld cell src tc (r.held.length + 1) (deliverNext cell src tc u s)
  else if w / 2 ≤ d ∨ (smFind? seq r.held).isSome = true then seqAck cell src tc (bump 0x3440 1 s)
  else if (if cell then 63 else 4095) < d then malformed s
  else setRecv cell k { r with held := smPut seq u r.held } s

/-! ## Multicast at the destination (R323, R324) -/

/-- The COUNT of an MPSN, and the stream's highest number after it. -/
def mcCount (r : McRecv) (n : Nat) : Nat × McRecv :=
  if laterW 16 n r.highest then
    let w := if n < r.highest then r.wraps + 1 else r.wraps
    (w * 65536 + n, { r with highest := n, wraps := w })
  else ((if r.highest < n then r.wraps - 1 else r.wraps) * 65536 + n, r)

/-- MC_ACKs that cover some MPSNs, each 32 numbers wide. -/
def mcAcks (src : Nat) : Nat → List Nat → State → State
  | 0, _, s => s
  | _ + 1, [], s => s
  | fuel + 1, n :: ns, s =>
    let off (m : Nat) : Nat := (m + 65536 - n) % 65536
    let near := (n :: ns).filter (fun m => decide (off m < 32))
    mcAcks src fuel (ns.filter (fun m => decide (32 ≤ off m)))
      (mcReport 0x11 src n (near.foldl (fun b m => putBit b (off m) true) 0) (ownEp s) s)

/-- Acknowledge what a stream owes. -/
def mcAckNow (k src : Nat) (s : State) : State :=
  let r := smGet mcRecv0 k s.fabric.recvMc
  mcAcks src r.toAck.length r.toAck { s with fabric := { s.fabric with recvMc := smPut k { r with toAck := [] } s.fabric.recvMc } }

/-- The module's own copy of a multicast packet: new ones are performed as requests of the source, and acknowledged unless
they are refused, which MC_SKIP says. -/
def mcDeliver (p : Packet) (s : State) : State :=
  let k := streamKey (pkSrc p) (pkTc p)
  let r := smGet mcRecv0 k s.fabric.recvMc
  if r.recent.contains (pkPsn p) then bump 0x3440 1 s
  else
    let c := mcCount r (pkPsn p)
    let g := epGrants s (pkSrc p)
    let taken : Bool := match checkReq s g c.1 p with | .ok _ => true | .error _ => false
    let r1 := { c.2 with
      recent := (pkPsn p :: r.recent).take 4096, toAck := if taken then r.toAck ++ [pkPsn p] else r.toAck }
    let s1 := serveReq g c.1 p { s with fabric := { s.fabric with recvMc := smPut k r1 s.fabric.recvMc } }
    if 32 ≤ r1.toAck.length then mcAckNow k (pkSrc p) s1 else s1

/-- Opcodes that a multicast packet may have (R323). -/
def mcOpcode (opc : Nat) : Bool := opc == 0x03 || opc == 0x04 || opc == 0x07

/-- A multicast packet arrives: the copy of this module is delivered, those of the members behind other ports are sent on. -/
def mcArrive (port : Nat) (p : Packet) (s : State) : State :=
  match p.ext with
  | none => malformed s
  | some (mask, win) =>
    if !mcOpcode (pkOpc p) then malformed s
    else
      let members := mcMembers mask win
      let others := members.filter (fun e => !isLocal s e)
      let s1 := if members.any (isLocal s) then mcDeliver p s else s
      if others.isEmpty then s1
      else if !s.ready then mcSkipFor p others s1
      else
        let q := mcCopy (.pkt p) win others
        let o := { outUnit q (epSub s (pkSrc p)) 3 none with transit := true, inPort := port }
        forward port o s1

/-! ## Arrival -/

/-- A unit in transit (R314, R420): sent on by a module that is READY; before that a request is answered FENCED. -/
def transitUnit (port : Nat) (u : NlUnit) (s : State) : State :=
  if s.ready then
    forward port { outUnit u (epSub s (unitSrc u)) 3 none with transit := true, inPort := port } s
  else
    match u with
    | .pkt p => if opcIsRequest (pkOpc p) then proxyAnswer p (answerOpc (pkOpc p)) .fenced s else s
    | .cell _ => s

/-- A packet or cell has arrived on a port. -/
def unitArrive (port : Nat) (u : NlUnit) (s : State) : State :=
  match u with
  | .pkt p =>
    if pkMc p then mcArrive port p s
    else if isLocal s (pkDst p) then receiveUnit false (pkSrc p) (pkTc p) (pkPsn p) u s
    else transitUnit port u s
  | .cell b =>
    if isLocal s (leAt b 1 1) then receiveUnit true (leAt b 2 1) 3 (leAt b 3 1) u s else transitUnit port u s

/-- A packet of an opcode arrives on a port whose link is UP. -/
def packetOf (opc port : Nat) (p : Packet) (s : State) : Out :=
  .next (if linkUp s port = true ∧ pkOpc p = opc then unitArrive port (.pkt p) s else s)

/-- An ATOMIC of an AOP arrives. -/
def atomicPacket (aop port : Nat) (p : Packet) (s : State) : Out :=
  .next (if linkUp s port = true ∧ pkOpc p = 0x06 ∧ field p.hdr 111 108 = aop then unitArrive port (.pkt p) s else s)

/-- READ arrives (Table 14-5). -/
def execRead (port : Nat) (packet : Packet) (s : State) : Out := packetOf 0x01 port packet s
/-- READ_WORD arrives. -/
def execReadWord (port : Nat) (packet : Packet) (s : State) : Out := packetOf 0x02 port packet s
/-- WRITE arrives. -/
def execWrite (port : Nat) (packet : Packet) (s : State) : Out := packetOf 0x03 port packet s
/-- WRITE_BE arrives. -/
def execWriteBe (port : Nat) (packet : Packet) (s : State) : Out := packetOf 0x04 port packet s
/-- WRITE_POSTED arrives. -/
def execWritePosted (port : Nat) (packet : Packet) (s : State) : Out := packetOf 0x05 port packet s
/-- ATOMIC ADD arrives (R330). -/
def execAtomicAdd (port : Nat) (packet : Packet) (s : State) : Out := atomicPacket 0x0 port packet s
/-- ATOMIC FADD arrives. -/
def execAtomicFadd (port : Nat) (packet : Packet) (s : State) : Out := atomicPacket 0x1 port packet s
/-- ATOMIC SWAP arrives. -/
def execAtomicSwap (port : Nat) (packet : Packet) (s : State) : Out := atomicPacket 0x2 port packet s
/-- ATOMIC CAS arrives. -/
def execAtomicCas (port : Nat) (packet : Packet) (s : State) : Out := atomicPacket 0x3 port packet s
/-- ATOMIC UMIN arrives. -/
def execAtomicUmin (port : Nat) (packet : Packet) (s : State) : Out := atomicPacket 0x4 port packet s
/-- ATOMIC UMAX arrives. -/
def execAtomicUmax (port : Nat) (packet : Packet) (s : State) : Out := atomicPacket 0x5 port packet s
/-- ATOMIC SMIN arrives. -/
def execAtomicSmin (port : Nat) (packet : Packet) (s : State) : Out := atomicPacket 0x6 port packet s
/-- ATOMIC SMAX arrives. -/
def execAtomicSmax (port : Nat) (packet : Packet) (s : State) : Out := atomicPacket 0x7 port packet s
/-- ATOMIC AND arrives. -/
def execAtomicAnd (port : Nat) (packet : Packet) (s : State) : Out := atomicPacket 0x8 port packet s
/-- ATOMIC OR arrives. -/
def execAtomicOr (port : Nat) (packet : Packet) (s : State) : Out := atomicPacket 0x9 port packet s
/-- ATOMIC XOR arrives. -/
def execAtomicXor (port : Nat) (packet : Packet) (s : State) : Out := atomicPacket 0xA port packet s
/-- REDUCE_FADD arrives. -/
def execReduceFadd (port : Nat) (packet : Packet) (s : State) : Out := packetOf 0x07 port packet s
/-- SEQ_ACK arrives (R319). -/
def execSeqAck (port : Nat) (packet : Packet) (s : State) : Out := packetOf 0x10 port packet s
/-- MC_ACK arrives (R324). -/
def execMcAck (port : Nat) (packet : Packet) (s : State) : Out := packetOf 0x11 port packet s
/-- MC_SKIP arrives (R325). -/
def execMcSkip (port : Nat) (packet : Packet) (s : State) : Out := packetOf 0x12 port packet s
/-- READ_RESP arrives (R321). -/
def execReadResp (port : Nat) (packet : Packet) (s : State) : Out := packetOf 0x20 port packet s
/-- COMP arrives. -/
def execComp (port : Nat) (packet : Packet) (s : State) : Out := packetOf 0x21 port packet s
/-- ATOMIC_RESP arrives. -/
def execAtomicResp (port : Nat) (packet : Packet) (s : State) : Out := packetOf 0x22 port packet s

/-- TRANSIT_FORWARD (R314): a packet or cell for another endpoint, or a multicast packet, arrives. -/
def execTransitForward (port : Nat) (nlUnit : NlUnit) (s : State) : Out :=
  .next (if linkUp s port = false then s
    else
      match nlUnit with
      | .pkt p => if pkMc p || !isLocal s (pkDst p) then unitArrive port nlUnit s else s
      | .cell b => if isLocal s (leAt b 1 1) then s else unitArrive port nlUnit s)

/-! ## Timers -/

/-- SEQ_ACK_TIMER (R319): 1 µs after a delivery not yet acknowledged. -/
def execSeqAckTimer (cell : Bool) (source tc : Nat) (s : State) : Out :=
  .next (if (getRecv s cell (recvKey cell source tc)).unacked = 0 then s else seqAck cell source tc s)

/-- MC_ACK_TIMER (R324): 1 µs after an acceptance not yet acknowledged. -/
def execMcAckTimer (source tc : Nat) (s : State) : Out :=
  .next (if (smGet mcRecv0 (streamKey source tc) s.fabric.recvMc).toAck.isEmpty then s else mcAckNow (streamKey source tc) source s)

/-- The held number that comes first from EXP on. -/
def oldestHeld (r : RecvStream) (w : Nat) : Option Nat :=
  let d (n : Nat) : Nat := (n + w - r.exp % w) % w
  r.held.foldl (fun best e =>
    match best with
    | none => some e.1
    | some b => if d e.1 < d b then some e.1 else some b) none

/-- REORDER_TIMEOUT (R320): what is missing is lost, and delivery goes on from the oldest number held. -/
def execReorderTimeout (cell : Bool) (source tc : Nat) (s : State) : Out :=
  .next (
    let k := recvKey cell source tc
    let r := getRecv s cell k
    let w := seqSpace cell
    match oldestHeld r w with
    | none => s
    | some n =>
      let s1 := setRecv cell k { r with exp := n, wraps := if n < r.exp then r.wraps + 1 else r.wraps } s
      let s2 := raiseEvent 0x0032 (leBytes 1 source ++ leBytes 1 tc ++ leBytes 2 r.exp ++ leBytes 2 n) (bump 0x3440 2 s1)
      deliverHeld cell source tc (r.held.length + 1) s2)

/-- REQUEST_TIMEOUT (R321): the request ends with ERR_LINK, and its TAG rests for twice the time. -/
def execRequestTimeout (dst tag : Nat) (s : State) : Out :=
  .next (
    let k := reqKey dst tag
    match smFind? k s.fabric.reqs with
    | none => s
    | some r =>
      failFor r.who .errLink (bump 0x3440 3 { s with fabric := { s.fabric with
        reqs := smErase k s.fabric.reqs, retired := smPut k (s.ptime + 2 * obj s 0x4423 0 * 1000) s.fabric.retired } }))

/-- Does a unit wait at a fabric egress without a usable port of SPRAY: unicast, not marked, routed over port 12 or 13? -/
def waitsAtFabric (s : State) (o : Outgoing) (p : Packet) : Bool :=
  let r := routeOf s (pkDst p)
  !pkMc p && !pkEsc p && (field r 13 12 != 0 || field r 33 32 != 0) && choosePort s (pkDst p) (pkTc p) false o.transit == .wait

/-- ESC_WAIT_EXPIRY (R315): the waiting packet at a place of the list is marked ESC. -/
def execEscWaitExpiry (place : Nat) (s : State) : Out :=
  .next (match s.fabric.waiting[place]? with
    | some o =>
      match o.unit with
      | .pkt p =>
        if waitsAtFabric s o p then
          let q := { o with unit := .pkt { p with hdr := putBit p.hdr 10 true } }
          retryWaiting (bump 0x3440 7 { s with fabric := { s.fabric with waiting := s.fabric.waiting.set place q } })
        else s
      | .cell _ => s
    | none => s)

end Sys2Proof.Machine
end

