-- ==== Sys2Proof/Machine/Link.lean ====
section
/-!
DEFINITION. The commands of the link layer (spec/13) but for the receiving of a flit: flit times, timers, link-down.
-/
namespace Sys2Proof.Machine

/-- FLIT_TRANSMIT (R281, R290, R291, R302): one flit time; `pick` orders the classes that packets are taken from. -/
def execFlitTransmit (port pick : Nat) (s : State) : Out :=
  .next (
    let k := getLink s port
    if (getLane s port).state = 6 then loopTransmit port s
    else if (getLane s port).state ≠ 5 ∨ 13 < port then s
    else if k.state = 1 then
      let s1 := sendFlit port initPayload 2 k.seq 0 s
      let s2 := updLink port (fun k => { k with initSent := if k.initSeen then k.initSent + 1 else 0 }) s1
      let k2 := getLink s2 port
      if k2.peerSeen = true ∧ 16 ≤ k2.initSent then linkIsUp port s2 else s2
    else if k.state = 2 then sendUp port pick s
    else if k.laneOp = 4 ∧ 0 < k.laneLeft then
      let s1 := sendFlit port [] 1 0xFFF 0 s
      if (getLink s1 port).laneLeft = 0 then startBringup port s1 else s1
    else s)

/-- REPLAY_TIMER_EXPIRY (R298): a replay, or link-down at the replay limit; for the mirror port, its cells (R394). -/
def execReplayTimerExpiry (port : Nat) (s : State) : Out :=
  .next (
    if port = 14 then (if s.buddy.mirror.up then mirrorReplay s else s)
    else
      let k := getLink s port
      if k.state ≠ 2 ∨ k.replay.isEmpty = true then s
      else startReplay port s)

/-- LINK_INIT_TIMEOUT (R292). -/
def execLinkInitTimeout (port : Nat) (s : State) : Out :=
  .next (if (getLink s port).state = 1 then linkFail port 5 s else s)

/-- FLIT_LOCK_LOSS (R294). -/
def execFlitLockLoss (port : Nat) (s : State) : Out := .next (linkFail port 8 s)

/-- RETRAIN_REQ (R302): the peer asks for a retrain. -/
def execRetrainReq (port : Nat) (s : State) : Out := .next (linkFail port 6 s)

end Sys2Proof.Machine
end

