-- ==== Sys2Proof/Machine/Program.lean ====
section
/-!
DEFINITION. Tile programs (spec/09): instruction words, the check of an image, PROG_LOAD and PROG_RUN, issue, guards and
faults, scratch memory, streams.
-/
namespace Sys2Proof.Machine

/-! ## Instruction words (R212, Table 9-5) -/

def wOp (w : Nat) : Nat := field w 63 56
def wPn (w : Nat) : Bool := bitOf w 55
def wPg (w : Nat) : Nat := field w 54 52
def wRd (w : Nat) : Nat := field w 51 47
def wRa (w : Nat) : Nat := field w 46 42
def wRb (w : Nat) : Nat := field w 41 37
def wRc (w : Nat) : Nat := field w 36 32
def wFmt (w : Nat) : Nat := field w 31 28
def wMod (w : Nat) : Nat := field w 27 20
def wImm (w : Nat) : Nat := field w 31 0
def wDisp (w : Nat) : Nat := field w 17 0

/-- Opcode and guard of a word. -/
def encHead (op : Nat) (pn : Bool) (pg : Nat) : Nat := op * 2 ^ 56 + b2n pn * 2 ^ 55 + (pg % 8) * 2 ^ 52

/-- A word of format R. -/
def encR (op : Nat) (pn : Bool) (pg rd ra rb rc fmt mod_ : Nat) : Nat :=
  encHead op pn pg + (rd % 32) * 2 ^ 47 + (ra % 32) * 2 ^ 42 + (rb % 32) * 2 ^ 37 + (rc % 32) * 2 ^ 32 +
    (fmt % 16) * 2 ^ 28 + (mod_ % 256) * 2 ^ 20

/-- A word of format I. -/
def encI (op : Nat) (pn : Bool) (pg rd ra imm : Nat) : Nat :=
  encHead op pn pg + (rd % 32) * 2 ^ 47 + (ra % 32) * 2 ^ 42 + imm % 2 ^ 32

/-- A word of format M. -/
def encM (op : Nat) (pn : Bool) (pg rd ra rb fmt disp : Nat) : Nat :=
  encHead op pn pg + (rd % 32) * 2 ^ 47 + (ra % 32) * 2 ^ 42 + (rb % 32) * 2 ^ 37 + (fmt % 16) * 2 ^ 28 + disp % 2 ^ 18

/-- A word of format B. -/
def encB (op : Nat) (pn : Bool) (pg pt cond off : Nat) : Nat :=
  encHead op pn pg + (pt % 8) * 2 ^ 49 + (cond % 4) * 2 ^ 47 + off % 2 ^ 32

/-- A word of format S. -/
def encS (op : Nat) (pn : Bool) (pg sid opd_ ra rb rc pm red : Nat) : Nat :=
  encHead op pn pg + (sid % 16) * 2 ^ 48 + (opd_ % 4) * 2 ^ 46 + (ra % 32) * 2 ^ 41 + (rb % 32) * 2 ^ 36 +
    (rc % 32) * 2 ^ 31 + (pm % 8) * 2 ^ 28 + (red % 4) * 2 ^ 26

/-! ## The check of an image word (R206, Table 9-6) -/

/-- Fields of a format R word that must be 0: given which of RD, RA, RB, RC, FMT are used and which bits of MOD. -/
def formR (w : Nat) (rd ra rb rc fmt : Bool) (modMask : Nat) : Bool :=
  field w 19 0 == 0 && (rd || wRd w == 0) && (ra || wRa w == 0) && (rb || wRb w == 0) && (rc || wRc w == 0) &&
  (fmt || wFmt w == 0) && (wMod w &&& (255 - modMask)) == 0

def formI (w : Nat) (rd ra : Bool) (immMask : Nat) : Bool :=
  field w 41 32 == 0 && (rd || wRd w == 0) && (ra || wRa w == 0) && (wImm w &&& (2 ^ 32 - 1 - immMask)) == 0

/-- A predicate that a word names as a source, or as a destination. -/
def predOk (r : Nat) : Bool := decide (r < 8)
def predDst (r : Nat) : Bool := decide (1 ≤ r) && decide (r < 8)

/-- A format code of Table 6-1. -/
def fmtOk (c : Nat) : Bool := fmtBits c != 0

/-- Does an MMA name a pairing that R155 permits? -/
def pairingOk (a b : Nat) : Bool :=
  let fp8 (c : Nat) : Bool := c == 3 || c == 4
  (fp8 a && (fp8 b || b == 5)) || (a == 5 && fp8 b) || (a == 1 && b == 1) || (a == 2 && b == 2) || (fmtIsMx a && fmtIsMx b)

/-- The compare code, COND, SIZE and the like in MOD[22:20] and below. -/
def wCmp (w : Nat) : Nat := field w 22 20
def wSize (w : Nat) : Nat := field w 21 20
def wOpd (w : Nat) : Nat := field w 25 24

/-- Does a word pass R206? -/
def wordOk (w : Nat) : Bool :=
  match wOp w with
  | 0x00 => formI w false false 0
  | 0x01 => formR w false true true false false 1
  | 0x02 => field w 46 32 == 0
  | 0x10 | 0x11 | 0x12 | 0x13 | 0x14 | 0x15 | 0x16 | 0x17 | 0x18 => formR w true true true false false 0
  | 0x19 => formI w true true (2 ^ 32 - 1)
  | 0x1A | 0x1B => formI w true false (2 ^ 32 - 1)
  | 0x1C => formR w true true true false false 7 && predDst (wRd w) && decide (wCmp w ≤ 5)
  | 0x20 => formR w true true false false false 0x33
  | 0x21 => formR w false true true false false 0x33
  | 0x22 => formR w true true false false false 3
  | 0x23 => formR w false true true false false 3
  | 0x24 => field w 27 0 == 0
  | 0x25 => field w 25 0 == 0 && decide (field w 27 26 ≤ 1)
  | 0x26 => formI w false false 0xFFFF
  | 0x27 => formI w false false 0
  | 0x30 | 0x31 | 0x32 | 0x34 | 0x36 | 0x37 => formR w true true true false false 0
  | 0x33 => formR w true true true true false 0
  | 0x35 | 0x38 => formR w true true false false false 0
  | 0x39 => formR w true true true false false 7 && predDst (wRd w) && decide (wCmp w ≤ 5)
  | 0x3A => formR w true true true true false 0 && predOk (wRc w)
  | 0x3B => formR w true true false false false 3 && decide (wSize w ≤ 2)
  | 0x3C => formR w true true false false false 0
  | 0x3D => formI w true false (2 ^ 32 - 1)
  | 0x3E | 0x3F =>
    field w 36 32 == 0 && field w 27 18 == 0 && fmtOk (wFmt w) && (fmtIsMx (wFmt w) || wRb w == 0)
  | 0x40 => formI w true false 0 && decide (wRd w < 4)
  | 0x41 => formR w true true true true true 0xF0 && decide (wRd w < 4) && pairingOk (wFmt w) (field w 27 24)
  | 0x42 => formI w true true 7 && decide (wRa w < 4)
  | 0x43 => formI w true true 7 && decide (wRd w < 4)
  | 0x50 | 0x51 | 0x52 => formR w true true true false false 0 && predDst (wRd w) && predOk (wRa w) && predOk (wRb w)
  | 0x53 => formR w true true false false false 0 && predDst (wRd w) && predOk (wRa w)
  | 0x54 => formR w true true false false false 0 && predDst (wRd w)
  | 0x55 => formR w true true false false false 0 && predOk (wRa w)
  | 0x56 => formR w true true false false false 0 && predDst (wRd w)
  | _ => false

/-! ## PROG_LOAD (R205-R207, Table 9-3) -/

/-- The checks of the body. -/
def loadCheck (s : State) (x : JobSt) : Option (Status × Nat) :=
  let d := x.desc
  let len := leAt d 40 5
  firstFail [
    (opdRsvd d 32, .errFormat, 32),
    (decide (8192 < leAt d 48 2 + len / 8), .errFormat, 48),
    (leAt d 50 2 == 0, .errFormat, 50),
    ((d.drop 52).any (· != 0), .errFormat, 52),
    (leAt d 32 6 % 8 != 0, .errAlign, 32),
    (len % 8 != 0 || decide (len < 8) || decide (65536 < len), .errAlign, 40),
    (obj s 0x2630 (x.part + 1) == 0, .errPermission, 0)]

/-- How the reading and checking of an image ends. -/
inductive LoadRes where
  | ok (ws : List Nat)
  | badWord (i : Nat)
  | err (st : Status) (off : Nat)
  | blocked
deriving DecidableEq, Repr

/-- The words of an image's bytes, and the first of them that R206 refuses. -/
def imageWords (b : Bytes) : List Nat := (List.range (b.length / 8)).map (fun i => leAt b (8 * i) 8)
def badWord? (b : Bytes) : Option Nat := (imageWords b).findIdx? (fun w => !wordOk w)

/-- Read and check the image from byte `off` on, 256 bytes at a time, in ascending order: of a word that R206 refuses and a read
error the one at the lower offset ends the load (R206). -/
def loadWords (j : Nat) (x : JobSt) : Nat → Nat → List Nat → State → LoadRes × State
  | 0, _, acc, s => (.ok acc, s)
  | n + 1, off, acc, s =>
    let m := min 256 ((opd x 0).len - off)
    if m = 0 then (.ok acc, s)
    else
      match opRead j 0 0 (opd x 0) off m off s with
      | (.blocked, s1) => (.blocked, s1)
      | (.err st at_, s1) =>
        if (getJob? s1 j).any (fun x => jobOut x 0 != 0) then (.blocked, s1)
        else
          match opFetch j 0 0 (opd x 0) off ((at_ - off) / 8 * 8) off s1 with
          | (.ok b, s2) =>
            (match badWord? b with
            | some i => (.badWord (off / 8 + i), s2)
            | none => (.err st at_, s2))
          | (_, s2) => (.err st at_, s2)
      | (.ok b, s1) =>
        match badWord? b with
        | some i => (.badWord (off / 8 + i), s1)
        | none => loadWords j x n (off + m) (acc ++ imageWords b) s1

/-- The words of an image put into program memory. -/
def putProg (at_ : Nat) (ws : List Nat) (m : SMap (BitVec 64)) : SMap (BitVec 64) :=
  ((List.range ws.length).zip ws).foldl (fun m e => smSet 0 (at_ + e.1) (BitVec.ofNat 64 e.2) m) m

/-- PROG_LOAD (R206, R207). -/
def execProgLoad (job : Nat) (s : State) : Out :=
  .next (match runningJob? s job 0x50 with
    | none => s
    | some x =>
      match loadCheck s x with
      | some (st, off) => endJobDetail job st (detail 0 off) s
      | none =>
        match loadWords job x 256 0 [] s with
        | (.blocked, s1) => s1
        | (.badWord i, s1) => endJobDetail job .errFormat (detail 2 i) s1
        | (.err st off, s1) => endJobDetail job st (detail 3 off) s1
        | (.ok ws, s1) =>
          let s2 := updTile x.tile (fun y => { y with prog := putProg (leAt x.desc 48 2) ws y.prog }) s1
          endJobResult job .ok ws.length (pbump x.part 0x6630 1 1 (setObj 0x3610 (x.tile + 1) (leAt x.desc 50 2) s2)))

/-! ## The end of a program (R210, R211, R224, R225) -/

/-- A program has come to its end: a fault after HALT prevails, of two faults the first. -/
def setEnding (t : Nat) (st : Status) (det res : Nat) (s : State) : State :=
  updTile t (fun y => { y with ending := match y.ending with
    | some (e, d, r) => if e = .ok ∨ e = .partly then some (st, det, res) else some (e, d, r)
    | none => some (st, det, res) }) s

/-- Everything issued has ended: the job ends (R210); under a fence the fence ends it (R374). -/
def programOver (t : Nat) (s : State) : State :=
  let y := getTile s t
  match y.job, y.ending with
  | some j, some (st, det, res) =>
    match getJob? s j with
    | some x =>
      if y.streams.isEmpty ∧ jobOut x 1 = 0 ∧ fencing s x.part = false then
        let e : Status × Nat × Nat := match smFind? 1 x.remoteErr with
          | some (f, off) => if st = Status.ok ∨ st = Status.partly then (f, detail 3 off, 0) else (st, det, res)
          | none => (st, det, res)
        let s1 := if 0x30 ≤ statusCode e.1 then pbump x.part 0x6630 3 1 s else s
        endJob j e.1 e.2.1 e.2.2 0 (updTile t (fun y => { y with job := none, ending := none }) s1)
      else s
    | none => s
  | _, _ => s

/-- The status of a fault cause (Table 9-7). -/
def faultStatus (cause : Nat) : Status :=
  if cause = 5 then .errAlign else if cause = 6 ∨ cause = 7 then .errPermission else .errFormat

/-- A fault with a cause at a PC. -/
def programFault (t cause pc : Nat) (s : State) : State :=
  programOver t (setEnding t (faultStatus cause) (detail 1 (cause * 2 ^ 40 + pc % 8192)) 0 s)

/-- The place of a DATA fault: PC, operand, offset. -/
def dataPlace (pc opd_ off : Nat) : Nat := pc % 8192 * 2 ^ 48 + opd_ % 4 * 2 ^ 40 + off % 2 ^ 40

/-- A DATA fault. -/
def dataFault (t : Nat) (st : Status) (place : Nat) (s : State) : State :=
  programOver t (setEnding t st (detail 3 place) 0 s)

/-- Start a PROG_RUN's program on its tile (R203). -/
def startProgram (t j : Nat) (x : JobSt) (s : State) : State :=
  updTile t (fun y => { tile0 with
    scratch := y.scratch, prog := y.prog, job := some j, pc := leAt x.desc 96 2
    s := [(1, leAt x.desc 104 8), (2, leAt x.desc 112 8), (3, leAt x.desc 120 8), (4, t)].foldl
      (fun m e => smSet 0 e.1 (BitVec.ofNat 64 e.2) m) [] }) s

/-- PROG_RUN: the program of a dispatched job starts; later, its job ends once everything issued has (R203, R210). -/
def execProgRun (job : Nat) (s : State) : Out :=
  .next (match runningJob? s job 0x51 with
    | none => s
    | some x =>
      if x.stage = 0 then startProgram x.tile job x (setStage job 1 s)
      else if (getTile s x.tile).job = some job then programOver x.tile s
      else s)

/-! ## Registers, guards (R204) -/

def sReg (y : TileSt) (r : Nat) : BitVec 64 := smGet 0 r y.s
def vReg (y : TileSt) (r : Nat) : List (BitVec 32) := smGet (List.replicate 64 0) r y.v
def pReg (y : TileSt) (r : Nat) : BitVec 64 := if r = 0 then BitVec.allOnes 64 else smGet 0 r y.p
def accZero : List (BitVec 32) := List.replicate 512 0
def aReg (y : TileSt) (r : Nat) : List (BitVec 32) := smGet accZero r y.a

def setS (r : Nat) (v : BitVec 64) (y : TileSt) : TileSt := { y with s := smSet 0 r v y.s }
def setV (r : Nat) (v : List (BitVec 32)) (y : TileSt) : TileSt := { y with v := smSet (List.replicate 64 0) r v y.v }
def setP (r : Nat) (v : BitVec 64) (y : TileSt) : TileSt := if r = 0 then y else { y with p := smSet 0 r v y.p }
def setA (r : Nat) (v : List (BitVec 32)) (y : TileSt) : TileSt := { y with a := smSet accZero r v y.a }

/-- The guard lanes of a word. -/
def guardOf (y : TileSt) (w : Nat) : BitVec 64 := if wPn w then ~~~(pReg y (wPg w)) else pReg y (wPg w)

/-- Lanes written where the guard is 1. -/
def guardLanes (g : BitVec 64) (old new : List (BitVec 32)) : List (BitVec 32) :=
  (List.range 64).map (fun i => if g.getLsbD i then new.getD i 0 else old.getD i 0)

/-- Predicate lanes written where the guard is 1. -/
def guardBits (g old new : BitVec 64) : BitVec 64 := (new &&& g) ||| (old &&& ~~~g)

/-! ## Issue (R212, R220, R224) -/

/-- What an instruction does when it is issued. -/
inductive Issue where
  /-- its effect, and the next instruction -/
  | done (s : State)
  /-- a branch taken -/
  | jump (dest : Int) (s : State)
  /-- the sequencer is held; the state may hold requests it has made -/
  | hold (s : State)
  | fault (cause : Nat)
  /-- a DATA fault of an operand at an offset -/
  | data (st : Status) (opd_ off : Nat) (s : State)
  /-- HALT -/
  | ends (st : Status) (det res : Nat)

/-- The program that runs on a tile: its job and the tile. -/
def running? (s : State) (t : Nat) : Option (Nat × JobSt × TileSt) :=
  let y := getTile s t
  match y.job with
  | none => none
  | some j =>
    match runningJob? s j 0x51 with
    | none => none
    | some x => if x.tile = t ∧ y.ending = none then some (j, x, y) else none

/-- The next instruction, or the fault of an issue beyond the last one. -/
def goTo (t : Nat) (pc : Nat) (dest : Int) (s : State) : State :=
  if 0 ≤ dest ∧ dest < 8192 then updTile t (fun y => { y with pc := dest.toNat }) s
  else programFault t 1 pc s

/-- Issue the word at PC if it is `w`; `lanes`: the instruction applies its guard to its own lanes. -/
def issue (t w : Nat) (lanes : Bool) (f : Nat → JobSt → TileSt → State → Issue) (s : State) : State :=
  match running? s t with
  | none => s
  | some (j, x, y) =>
    match smFind? 1 x.remoteErr with
    | some (st, place) => dataFault t st place s
    | none =>
      if (smGet 0 y.pc y.prog).toNat ≠ w then s
      else if !lanes && guardOf y w == 0 then goTo t 8192 (y.pc + 1) s
      else
        match f j x y s with
        | .done s1 => goTo t 8192 (y.pc + 1) s1
        | .jump dest s1 => goTo t y.pc dest s1
        | .hold s1 => s1
        | .fault c => programFault t c y.pc s
        | .data st o off s1 => dataFault t st (dataPlace y.pc o off) s1
        | .ends st det res => programOver t (setEnding t st det res s)

/-- An instruction that changes the tile's registers and nothing else. -/
def issueRegs (t w : Nat) (lanes : Bool) (f : TileSt → TileSt) (s : State) : State :=
  issue t w lanes (fun _ _ _ s => .done (updTile t f s)) s

/-! ## Streams: their shape and places (R215, R216) -/

/-- The selected rows of a stream. -/
def streamRows (st : Stream) : List Nat := (List.range st.rows).filter (bitOf st.mask)

/-- The pieces of a stream in its operand: offset and length, cut at 64-byte lines, row by row. -/
def streamCuts (va off n : Nat) : Nat → List (Nat × Nat)
  | 0 => []
  | k + 1 =>
    if n = 0 then []
    else
      let m := min n (64 - (va + off) % 64)
      (off, m) :: streamCuts va (off + m) (n - m) k

/-- Row, offset in the operand, scratch address and length of every line piece of a stream. -/
def streamLines (x : JobSt) (st : Stream) : List (Nat × Nat × Nat) :=
  ((streamRows st).map (fun i =>
    let o := st.off + i * st.stride
    (streamCuts (opd x st.opd).va o st.rowBytes (st.rowBytes / 32 + 1)).map (fun c =>
      (c.1, st.scr + i * st.rowBytes + (c.1 - o), c.2)))).flatten

/-- Does an outstanding SST write a line of a local range? A later access of the job to it waits (R222). -/
def sstTouches (s : State) (x : JobSt) (y : TileSt) (ps : List Piece) : Bool :=
  y.streams.any (fun e => e.2.store && (streamRows e.2).any (fun i =>
    (pieces (opd x e.2.opd).exts (e.2.off + i * e.2.stride) e.2.rowBytes 0).any (fun q =>
      q.ep == ownEp s && ps.any (fun p => p.ep == q.ep && decide (p.addr / 64 ≤ (q.addr + q.len - 1) / 64) &&
        decide (q.addr / 64 ≤ (p.addr + p.len - 1) / 64)))))

/-! ## Scratch memory (R221) -/

/-- The values that outstanding SLDs have brought for a scratch byte. -/
def sldNew (y : TileSt) (a : Nat) : Bytes :=
  y.streams.filterMap (fun e =>
    (e.2.got.find? (fun g => decide (g.1 ≤ a) && decide (a < g.1 + g.2.length))).bind (fun g => g.2[a - g.1]?))

/-- Scratch bytes as an instruction reads them: a byte under an outstanding SLD holds its old or its new value, by a free
choice (R221; log entry 11). -/
def readScratch (y : TileSt) : Nat → Nat → State → Bytes × State
  | _, 0, s => ([], s)
  | a, n + 1, s =>
    let old := smGet 0 a y.scratch
    match sldNew y a with
    | [] =>
      let r := readScratch y (a + 1) n s
      (old :: r.1, r.2)
    | v :: vs =>
      let f := takeFree s
      let r := readScratch y (a + 1) n f.2
      ((old :: v :: vs).getD (f.1.toNat % (vs.length + 2)) old :: r.1, r.2)

/-- A line of an SLD: what has reached the tile, what its endpoint has sent, what its home holds. A line whose bytes will not come has
met the stream's error, in its own bytes where that was (R217, R225). -/
def sldLine (j sid : Nat) (st : Stream) (l : Nat × Nat × Nat) (s : State) : OpRes × State :=
  match st.got.find? (·.1 == l.2.1), getJob? s j with
  | some g, _ => (.ok g.2, s)
  | none, none => (.blocked, s)
  | none, some x =>
    match smFind? (16 + sid) x.remoteErr, (remoteMiss s x (16 + sid) (opd x st.opd) l.1 l.2.2).isEmpty with
    | some (e, a), false => (.err e (if l.1 ≤ a ∧ a < l.1 + l.2.2 then a else l.1), s)
    | _, _ => opFetch j (16 + sid) (16 + sid) (opd x st.opd) l.1 l.2.2 l.1 s

/-- Keep a line that an SLD has brought. -/
def keepLine (t sid : Nat) (l : Nat × Bytes) (s : State) : State :=
  updTile t (fun y => { y with streams := smAlter sid (fun st =>
    if st.got.any (·.1 == l.1) then st else { st with got := st.got ++ [l] }) y.streams }) s

/-- The lines of outstanding SLDs over a range of scratch that can be here by now reach the tile. -/
def sldCapture (t j : Nat) (x : JobSt) (a n : Nat) (s : State) : State :=
  (getTile s t).streams.foldl (fun s e =>
    if e.2.store then s
    else
      ((streamLines x e.2).filter (fun l => decide (l.2.1 < a + n) && decide (a < l.2.1 + l.2.2) &&
          (remoteMiss s x (16 + e.1) (opd x e.2.opd) l.1 l.2.2).isEmpty)).foldl (fun s l =>
        match sldLine j e.1 e.2 l s with
        | (.ok b, s1) => keepLine t e.1 (l.2.1, b) s1
        | (_, s1) => s1) s) s

/-- Read scratch bytes for an instruction of a job. -/
def scratchRead (t j : Nat) (x : JobSt) (a n : Nat) (s : State) : Bytes × State :=
  let s1 := sldCapture t j x a n s
  readScratch (getTile s1 t) a n s1

/-- Write scratch bytes; outstanding SLDs over them are noted, since either may prevail (R221). -/
def writeScratch (a : Nat) (bs : Bytes) (y : TileSt) : TileSt :=
  { y with
    scratch := ((List.range bs.length).zip bs).foldl (fun m e => smSet 0 (a + e.1) e.2 m) y.scratch
    streams := y.streams.map (fun e => (e.1, if e.2.store then e.2 else { e.2 with clash := (a, bs.length) :: e.2.clash })) }

/-- Bytes chosen, one by one, from two strings. -/
def mixBytes (which : Nat → Bool) : Nat → Bytes → Bytes → State → Bytes × State
  | i, a :: as, b :: bs, s =>
    if a = b ∨ which i = false then
      let r := mixBytes which (i + 1) as bs s
      (b :: r.1, r.2)
    else
      let f := takeFree s
      let r := mixBytes which (i + 1) as bs f.2
      ((if f.1.getLsbD 0 then a else b) :: r.1, r.2)
  | _, _, _, s => ([], s)

/-! ## The end of a stream (R217) -/

/-- A stream is over: out of the tile, its remote bytes and errors forgotten, its bytes counted. -/
def streamGone (t sid j part bytes : Nat) (s : State) : State :=
  pbump part 0x6630 4 bytes
    (updJob j (fun x => { x with
        remote := x.remote.filter (fun e => e.1 / 2 ^ 40 != 16 + sid)
        remoteErr := smErase (16 + sid) x.remoteErr })
      (updTile t (fun y => { y with streams := smErase sid y.streams }) s))

/-- The end of a stream with an error on a line, or without. -/
def streamOver (t sid j : Nat) (x : JobSt) (st : Stream) (bytes : Nat) (err : Option (Status × Nat)) (s : State) : State :=
  let s1 := streamGone t sid j x.part bytes s
  match err with
  | some (e, off) => dataFault t e (dataPlace st.pc st.opd off) s1
  | none => programOver t s1

/-- How far the reading of an SLD's lines comes. -/
structure SldRes where
  lines : List (Nat × Bytes)
  err : Option (Status × Nat)
  blocked : Bool
deriving DecidableEq, Repr

/-- The lines of an SLD, read in order up to the first error or the first that has to wait. -/
def sldRead (j sid : Nat) (st : Stream) : List (Nat × Nat × Nat) → State → SldRes × State
  | [], s => ({ lines := [], err := none, blocked := false }, s)
  | l :: r, s =>
    match sldLine j sid st l s with
    | (.blocked, s1) => ({ lines := [], err := none, blocked := true }, s1)
    | (.err e a, s1) => ({ lines := [], err := some (e, a), blocked := false }, s1)
    | (.ok b, s1) =>
      let q := sldRead j sid st r s1
      ({ q.1 with lines := (l.2.1, b) :: q.1.lines }, q.2)

/-- The requests of an SLD for its remote rows, in one go. -/
def sldAsk (j sid : Nat) (x : JobSt) (st : Stream) (s : State) : State :=
  (streamRows st).foldl (fun s i =>
    let o := st.off + i * st.stride
    (remoteMiss s x (16 + sid) (opd x st.opd) o st.rowBytes).foldl (fun s p => readRemote j x (16 + sid) (16 + sid) o o p s) s) s

/-- Put a line of an SLD into scratch: where something else has written since its issue, either may prevail. -/
def sldPut (t : Nat) (st : Stream) (l : Nat × Bytes) (s : State) : State :=
  let y := getTile s t
  let old := (List.range l.2.length).map (fun i => smGet 0 (l.1 + i) y.scratch)
  let both (i : Nat) : Bool := st.clash.any (fun c => decide (c.1 ≤ l.1 + i) && decide (l.1 + i < c.1 + c.2))
  let m := mixBytes both 0 old l.2 s
  updTile t (writeScratch l.1 m.1) m.2

/-- The end of an SLD: its remote rows are asked for and awaited, then its lines go to scratch up to the first error. -/
def sldEnd (t sid j : Nat) (x : JobSt) (st : Stream) (s : State) : State :=
  if jobOut x (16 + sid) ≠ 0 then s
  else if (smFind? (16 + sid) x.remoteErr).isNone ∧ (streamRows st).any (fun i =>
      !(remoteMiss s x (16 + sid) (opd x st.opd) (st.off + i * st.stride) st.rowBytes).isEmpty) then sldAsk j sid x st s
  else
    match sldRead j sid st (streamLines x st) s with
    | (r, s1) =>
      if r.blocked then r.lines.foldl (fun s l => keepLine t sid l s) s1
      else
        let bytes := (r.lines.map (fun l => l.2.length)).foldl (· + ·) 0
        let s2 := updTile t (fun y => { y with streams := smErase sid y.streams }) s1
        streamOver t sid j x st bytes r.err (r.lines.foldl (fun s l => sldPut t st l s) s2)

/-- The bytes an SST carries: what its scratch held at issue, or holds now, byte by byte (R221). -/
def sstBytes (t : Nat) (st : Stream) (s : State) : Bytes × State :=
  let y := getTile s t
  let now := (List.range (st.rows * st.rowBytes)).map (fun i => smGet 0 (st.scr + i) y.scratch)
  mixBytes (fun _ => true) 0 st.snap now s

/-- The accesses of an SST at the pool, in ascending row, with the operand offset of each. -/
def sstOps (s : State) (x : JobSt) (st : Stream) (bs : Bytes) : List (MemOp × Nat) :=
  ((streamLines x st).map (fun l =>
    let b := slice bs (l.2.1 - st.scr) l.2.2
    let ops := if st.red then
        reducePackets (opd x st.opd) l.1 ((List.range (l.2.2 / 4)).map (fun i => wordAt b (4 * i))) false
      else localWrites s (pieces (opd x st.opd).exts l.1 l.2.2 0) b
    ops.map (fun o => (o, l.1)))).flatten

/-- The remote writes of an SST. -/
def sstRemote (j sid : Nat) (x : JobSt) (st : Stream) (bs : Bytes) (s : State) : State :=
  (streamLines x st).foldl (fun s l =>
    ((pieces (opd x st.opd).exts l.1 l.2.2 0).filter (fun p => p.ep != ownEp s)).foldl (fun s p =>
      writeRemote j x (16 + sid) 2 (dataPlace st.pc st.opd l.1) p (slice bs (l.2.1 - st.scr) l.2.2) s) s) s

/-- The end of an SST: its writes at their homes and on their way; it ends when every answer is here. -/
def sstEnd (t sid j : Nat) (x : JobSt) (st : Stream) (s : State) : State :=
  let total := (streamRows st).length * st.rowBytes
  if st.sent then
    if jobOut x (16 + sid) ≠ 0 then s
    else
      match smFind? (16 + sid) x.remoteErr with
      | some (e, place) => dataFault t e place (streamGone t sid j x.part total s)
      | none => streamOver t sid j x st total none s
  else
    let b := sstBytes t st s
    let ops := sstOps b.2 x st b.1
    let a := prepAll (.job j) (ops.map (·.1)) b.2
    if !a.1 then a.2
    else
      match performAll (jobSrc x) (ops.map (·.1)) a.2 with
      | (.error (e, k), s1) => streamOver t sid j x st 0 (some (e, ((ops[k]?).map (·.2)).getD st.off)) s1
      | (.ok _, s1) =>
        let s1 := (streamRows st).foldl (fun s i =>
          ((pieces (opd x st.opd).exts (st.off + i * st.stride) st.rowBytes 0).filter (fun p => p.ep == ownEp s)).foldl
            (fun s p => memTokens x p.addr p.len s) s) s1
        let s2 := sstRemote j sid x st b.1 (updTile t (fun y => { y with streams := smPut sid { st with sent := true } y.streams }) s1)
        match getJob? s2 j with
        | some x2 => if jobOut x2 (16 + sid) = 0 then streamOver t sid j x st total none s2 else s2
        | none => s2

/-- A program that has issued streams: one that runs, and one whose partition a fence is draining, since each issued stream runs to
its end (R210). -/
def drainingJob? (s : State) (j : Nat) : Option JobSt :=
  match getJob? s j with
  | some x => if x.phase = .running ∧ dOpc x.desc = 0x51 ∧ s.coh.failure.isNone = true then some x else none
  | none => none

/-- An outstanding stream comes to its end (R210, R217). -/
def execStreamEnd (tile sid : Nat) (s : State) : Out :=
  .next (match (getTile s tile).job, smFind? sid (getTile s tile).streams with
    | some j, some st =>
      match drainingJob? s j with
      | some x => if st.store then sstEnd tile sid j x st s else sldEnd tile sid j x st s
      | none => s
    | _, _ => s)

end Sys2Proof.Machine
end

