-- ==== Sys2Proof/Machine/Receive.lean ====
section
/-!
DEFINITION. FLIT_RECEIVE (spec/13 R286-R301, spec/14 R305, R312): a flit is decoded and checked, its control field taken,
its slots assembled to packets and cells, and those handed to the router.
-/
namespace Sys2Proof.Machine

/-! ## Units from slots (R305, R311, R312) -/

/-- The sectors a packet carries, by its header (Table 14-1). -/
def carriedOf (hdr : Nat) : Nat :=
  let opc := field hdr 7 0
  if opc = 0x03 ∨ opc = 0x07 ∨ opc = 0x20 then (onesBelow 8 (field hdr 115 108)).length
  else if opc = 0x04 ∨ opc = 0x05 ∨ opc = 0x06 ∨ opc = 0x22 then 1 else 0

/-- The slots of the unit that a slot begins; none for an opcode that Table 14-1 does not list. -/
def unitLength (slot : Bytes) : Option Nat :=
  let opc := leAt slot 0 1
  if 0xC1 ≤ opc ∧ opc ≤ 0xC3 then some 2
  else if opcIsPacket opc then
    let h := leAt slot 0 16
    some (1 + b2n (bitOf h 11) + 2 * carriedOf h + b2n (bitOf h 12))
  else none

/-- A unit from the bytes of its slots. -/
def unitOf (b : Bytes) : NlUnit :=
  if 0xC1 ≤ leAt b 0 1 then .cell (slice b 0 32)
  else
    let h := leAt b 0 16
    let mc := bitOf h 11
    let at_ := if mc then 32 else 16
    let n := carriedOf h
    .pkt { hdr := h, ext := if mc then some (leAt b 16 8, leAt b 24 1 % 4) else none
           sectors := toSectors n (b.drop at_), auth := if bitOf h 12 then slice b (at_ + 32 * n) 16 else [] }

/-- A unit is whole: its credits return at once, and the router has it; with no buffer left for its class (a bit of `full`)
it is discarded and the link goes down (R289, R300, R301). -/
def unitDone (port full : Nat) (u : NlUnit) (s : State) : State :=
  let tc := unitTc u
  if bitOf full tc then linkFail port 4 (bump 0x3436 (port + 1) s)
  else
    unitArrive port u (updLink port (fun k => { k with
      freed := smUpd 0 (tc * 2) (fun c => (c + 1) % 4096) (smUpd 0 (tc * 2 + 1) (fun c => (c + unitData u) % 65536) k.freed) }) s)

/-- One slot of an accepted payload. -/
def takeSlot (port full : Nat) (start : Bool) (slot : Bytes) (s : State) : State :=
  let k := getLink s port
  if k.state = 0 then s
  else
    let slots := if start then [slot] else if k.rxSlots.isEmpty then [] else k.rxSlots ++ [slot]
    match slots.head? with
    | none => s
    | some h =>
      match unitLength h with
      | none => malformed (updLink port (fun k => { k with rxSlots := [] }) s)
      | some n =>
        if slots.length < n then updLink port (fun k => { k with rxSlots := slots }) s
        else unitDone port full (unitOf slots.flatten) (updLink port (fun k => { k with rxSlots := [] }) s)

/-- The 14 slots of an accepted payload. -/
def takePayload (port full pstart : Nat) (payload : Bytes) (s : State) : State :=
  (List.range 14).foldl (fun s i => takeSlot port full (bitOf pstart i) (slice payload (16 * i) 16) s) s

/-! ## The control field (R292, R293, R296-R300) -/

/-- RECOVER begins: NAK goes in the next flit sent. -/
def beginRecover (k : LinkSt) : LinkSt := if k.recover then k else { k with recover := true, nakDue := true }

/-- A bad flit; the 64th in a row is loss of flit lock (R294). -/
def badFlit (port : Nat) (s : State) : State :=
  let s1 := bump 0x3432 (port + 1) (updLink port (fun k => { beginRecover k with badRun := k.badRun + 1 }) s)
  if 64 ≤ (getLink s1 port).badRun then linkFail port 8 s1 else s1

/-- May an INIT flit's advertisement stand (R292)? -/
def advertOk (payload : Bytes) : Bool :=
  (List.range 4).all (fun tc =>
    decide (1 ≤ leAt payload (4 * tc) 2) && decide (leAt payload (4 * tc) 2 ≤ 2047) && decide (leAt payload (4 * tc + 2) 2 ≤ 32767))

/-- The peer's ACK frees held flits (R296); `none` is a protocol error. -/
def ackTaken (k : LinkSt) (a : Nat) : Option LinkSt :=
  if a = k.ackTaken then some k
  else if laterW 12 a k.ackTaken = false ∨ laterW 12 a k.seq = true then none
  else
    let left := k.replay.filter (fun f => laterW 12 f.seq a)
    some { k with ackTaken := a, replay := left, replays := if left.length < k.replay.length then 0 else k.replays }

/-- The returned credits are taken where they are later (R300). -/
def creditsTaken (c : Lctl) (k : LinkSt) : LinkSt :=
  let h := c.crTc * 2
  let put (n i v : Nat) (m : SMap Nat) : SMap Nat := if laterW n v (smGet 0 i m) then smSet 0 i v m else m
  { k with ret := put 16 (h + 1) c.crData (put 12 h c.crHdr k.ret) }

/-- LANE_OP is acted on in the first good flit that carries it; one that echoes the value and lane being sent is its answer,
and ends it (R290, R276, R302; log entry 113). -/
def laneOpTaken (port : Nat) (c : Lctl) (s : State) : State :=
  let k := getLink s port
  let answered : Bool := c.laneOp != 0 && c.laneOp == k.laneOp && c.laneArg == k.laneArg
  let s1 := updLink port (fun k => { k with
    peerOp := c.laneOp, peerArg := c.laneArg, laneLeft := if answered then 0 else k.laneLeft }) s
  if k.peerOp = c.laneOp ∧ k.peerArg = c.laneArg then s1
  else
    match c.laneOp with
    | 1 => onSpareReq port c.laneArg s1
    | 2 => onSpareDone port c.laneArg s1
    | 3 => onSpareAbort port c.laneArg s1
    | 4 => linkFail port 6 s1
    | _ => s1

/-- An INIT flit before UP: the peer's advertisement, and what it says it has seen (R291). -/
def initTaken (port : Nat) (c : Lctl) (payload : Bytes) (s : State) : State :=
  let adv : SMap Nat := (List.range 4).foldl (fun m tc =>
    smSet 0 (tc * 2 + 1) (leAt payload (4 * tc + 2) 2) (smSet 0 (tc * 2) (leAt payload (4 * tc) 2) m)) []
  let s1 := updLink port (fun k => { k with initSeen := true, peerSeen := k.peerSeen || c.initSeen, adv := adv }) s
  let k := getLink s1 port
  if k.peerSeen = true ∧ 16 ≤ k.initSent then linkIsUp port s1 else s1

/-- A DATA flit: the one expected, a duplicate, or one behind a gap (R293). -/
def dataTaken (port full : Nat) (c : Lctl) (payload : Bytes) (s : State) : State :=
  let exp := ((getLink s port).ack + 1) % 4096
  if c.fseq = exp then
    takePayload port full c.pstart payload (updLink port (fun k => { k with ack := c.fseq, recover := false }) s)
  else if laterW 12 exp c.fseq then bump 0x3435 (port + 1) s
  else updLink port beginRecover s

/-- A good flit (R293). -/
def goodFlit (port full : Nat) (c : Lctl) (payload : Bytes) (s : State) : State :=
  match ackTaken (getLink s port) c.ack with
  | none => linkFail port 3 s
  | some k =>
    let s1 := updLink port (fun _ => creditsTaken c k) s
    let s2 := if c.nak = true ∧ k.replay.isEmpty = false then startReplay port s1 else s1
    let s3 := if (getLink s2 port).state = 0 then s2 else laneOpTaken port c s2
    let k3 := getLink s3 port
    if k3.state = 0 then s3
    else if c.ftype = 0 then dataTaken port full c payload s3
    else if c.ftype = 2 ∧ k3.state = 1 then initTaken port c payload s3
    else s3

/-- While the spare is compared: do the bytes received on it agree with the corrected bytes of its lane (R276)? -/
def compareSpare (port : Nat) (l : LaneSt) (rx : Decided) (good : Option Bytes) (s : State) : State :=
  match l.rxReq, l.cfg.rxSpare with
  | some lane, some sp =>
    let b := (laneRecv (l.cfg.rate == 1) l.cfg.rxPrecode (l.rxScramble.getD lane 0) (l.rxLast.getD lane 0) 32 (laneValues l 32 rx sp)).1
    let same : Bool := match good with | some w => laneBytes 8 lane w == b | none => false
    updLane port (fun l => { l with agreed := (same :: l.agreed).take 64, compared := l.compared + 1 }) s
  | _, _ => s

/-- The FEC's corrections reach the lane layer, whatever becomes of the flit (R286). -/
def reportPlaces (port : Nat) (places : List Nat) (s : State) : State :=
  if places.isEmpty then s else noteCorrections port (places.map (· % 8)) s

/-- A decoded flit: its CRC and control field, then what it carries (R287, R288, R292, R293). -/
def takeFlit (port full : Nat) (w : Bytes) (places : List Nat) (s : State) : State :=
  match (if crc32 (w.take 236) == leAt w 236 4 then lctlOf (slice w 224 12) else none) with
  | none => badFlit port s
  | some c =>
    if c.ftype = 2 ∧ advertOk w = false then badFlit port s
    else
      let s1 := updLink port (fun k => { k with badRun := 0 }) s
      goodFlit port full c (w.take 224) (if places.isEmpty then s1 else bump 0x3431 (port + 1) s1)

/-- FLIT_RECEIVE: what the lanes decide in a flit time (R262-R265, R281, R286); `full` has a bit for each class with no
buffer space left. -/
def execFlitReceive (port full : Nat) (rx : Decided) (s : State) : Out :=
  .next (
    let l := getLane s port
    if l.state = 6 then loopReceive port rx s
    else if 13 < port ∨ l.state ≠ 5 then s
    else
      let u := unitReceived port 256 l rx
      let s1 := updLane port (fun _ => u.2) s
      if (getLink s port).state = 0 then s1
      else
        match flitDecode u.1 with
        | none => badFlit port (compareSpare port l rx none s1)
        | some (w, places) => takeFlit port full w places (reportPlaces port places (compareSpare port l rx (some w) s1)))

end Sys2Proof.Machine
end

