-- ==== Sys2Proof/Machine/Ticks.lean ====
section
/-!
DEFINITION. Counters and time (spec/00 R16, R18, R20; spec/04 R108, R111; spec/20 R431), and a reserved ring slot (spec/01 R26).
-/
namespace Sys2Proof.Machine

/-- COUNTER_CLEAR (R16): a write to a class S counter, of a partition's window where it lies there. -/
def execCounterClear (part index sub value : Nat) (s : State) : Out :=
  .next (match objRow? index sub with
    | some r =>
      if r.kind = .counter ∨ r.kind = .counterRws then
        (if value = 0 then answerFm index sub (.ok, setPobj part index sub 0 s) else answerCmd (.errFormat, s))
      else s
    | none => s)

/-- Nanoseconds of a scrub period (R105). -/
def scrubNs (s : State) : Nat := obj s 0x4320 0 * 3600000000000

/-- A scrub period ends: the events counted for the row and stack thresholds are forgotten (R108, R111). -/
def scrubPeriodEnd (s : State) : State := { s with dram := { s.dram with rowCe := [], chanUe := [], refusedRows := [] } }

/-- Held completion records whose write had to wait are tried again (R127). -/
def retryHeld (s : State) : State :=
  s.work.parts.foldl (fun s e => s.work.queues.foldl (fun s q =>
    if decide (e.2.qFirst ≤ q.1) && decide (q.1 < e.2.qFirst + e.2.qCount) && !q.2.held.isEmpty then flushHeld e.1 q.1 32 s else s) s) s

/-- POWERED_TIME_TICK (R18): 10 ns more, while the management island is powered; a running stack evacuation copies on (R112),
and held records are tried again. -/
def execPoweredTimeTick (s : State) : Out :=
  .next (if s.power.powered = false then s
    else
      let t := (s.ptime + 10) % 2 ^ 64
      let s1 := if t / scrubNs s = s.ptime / scrubNs s then s else scrubPeriodEnd s
      { retryHeld (evacTick s1) with ptime := t })

/-- SERVICE_MINUTE_COMMIT (R20): a minute of powered time goes into MRAM; sixty make an hour of SERVICE_HOURS. -/
def execServiceMinuteCommit (s : State) : Out :=
  .next (if s.power.powered = false then s
    else
      let m := s.mram.minutes + 1
      { s with mram := { s.mram with
        minutes := m % 60, hours := if m < 60 then s.mram.hours else (s.mram.hours + m / 60) % 2 ^ 32 } })

/-- RWS_COUNTER_COMMIT (R431). -/
def execRwsCounterCommit (s : State) : Out := .next (if s.power.powered = false then s else commitCounters s)

/-- The place of a reservation: ring, stop, direction. -/
def ringKey (ring stop dir : Nat) : Nat := (ring * 64 + stop) * 2 + dir

/-- Piccolo's stop: the 16th of the global ring (Table 1-2). -/
def piccoloStop (ring stop : Nat) : Bool := stopUnit? ring stop == some .piccolo

/-- RING_ENTRY_RESERVATION (R25, R26): a stop that has held a packet for 64 ring cycles takes the next free slot; it enters
the packet if the next stop has two free slot buffers, and holds its reservation if not. What enters at Piccolo's stop is
its oldest held response (R250); packets of other stops arrive by commands of their own (log entry 14). A ring has the stops
of Table 1-2 and no others (R23). -/
def execRingEntryReservation (ring stop dir free : Nat) (s : State) : Out :=
  .next (
    if (stopUnit? ring stop).isNone || (piccoloStop ring stop && s.sync.held.isEmpty) then s
    else if free < 2 then { s with rings := smSet false (ringKey ring stop dir) true s.rings }
    else
      let s1 := { s with rings := smSet false (ringKey ring stop dir) false s.rings }
      match s.sync.held with
      | r :: rest => if piccoloStop ring stop then deliverSync r { s1 with sync := { s1.sync with held := rest } } else s1
      | [] => s1)

end Sys2Proof.Machine
end

