-- ==== Sys2Proof/Machine/Tilecode.lean ====
section
/-!
DEFINITION. The instructions of tile programs (spec/09 Table 9-6). Each command issues one instruction on a tile: it names
the tile and the instruction's fields, and takes effect when the word at the tile's PC is that instruction.
-/
namespace Sys2Proof.Machine

/-! ## Control -/

/-- NOP. -/
def execNopInstruction (tile : Nat) (pn : Bool) (pg : Nat) (s : State) : Out :=
  .next (issueRegs tile (encI 0x00 pn pg 0 0 0) false id s)

/-- HALT (R211). -/
def execHalt (tile : Nat) (pn : Bool) (pg ra rb : Nat) (stat : Bool) (s : State) : Out :=
  let w := encR 0x01 pn pg 0 ra rb 0 0 (b2n stat)
  .next (issue tile w false (fun _ _ y _ =>
    .ends (if stat then .partly else .ok) (sReg y (wRb w)).toNat ((sReg y (wRa w)).toNat % 2 ^ 32)) s)

/-- Does the condition of a branch hold? -/
def brTaken (cond : Nat) (p : BitVec 64) : Bool :=
  match cond with
  | 0 => true | 1 => p != 0 | 2 => p == 0 | _ => p == BitVec.allOnes 64

/-- BR. -/
def execBr (tile : Nat) (pn : Bool) (pg pt cond off : Nat) (s : State) : Out :=
  let w := encB 0x02 pn pg pt cond off
  .next (issue tile w false (fun _ _ y s =>
    if brTaken (field w 48 47) (pReg y (field w 51 49)) then .jump ((y.pc : Int) + signed 32 (wImm w)) s else .done s) s)

/-! ## Scalar arithmetic -/

/-- A word of format R with RD, RA and RB, on scalar registers. -/
def scalarR (op tile : Nat) (pn : Bool) (pg rd ra rb : Nat) (f : BitVec 64 → BitVec 64 → BitVec 64) (s : State) : State :=
  let w := encR op pn pg rd ra rb 0 0 0
  issueRegs tile w false (fun y => setS (wRd w) (f (sReg y (wRa w)) (sReg y (wRb w))) y) s

def execAdd (tile : Nat) (pn : Bool) (pg rd ra rb : Nat) (s : State) : Out :=
  .next (scalarR 0x10 tile pn pg rd ra rb (fun a b => a + b) s)
def execSub (tile : Nat) (pn : Bool) (pg rd ra rb : Nat) (s : State) : Out :=
  .next (scalarR 0x11 tile pn pg rd ra rb (fun a b => a - b) s)
def execMul (tile : Nat) (pn : Bool) (pg rd ra rb : Nat) (s : State) : Out :=
  .next (scalarR 0x12 tile pn pg rd ra rb (fun a b => a * b) s)
def execAnd (tile : Nat) (pn : Bool) (pg rd ra rb : Nat) (s : State) : Out :=
  .next (scalarR 0x13 tile pn pg rd ra rb (fun a b => a &&& b) s)
def execOr (tile : Nat) (pn : Bool) (pg rd ra rb : Nat) (s : State) : Out :=
  .next (scalarR 0x14 tile pn pg rd ra rb (fun a b => a ||| b) s)
def execXor (tile : Nat) (pn : Bool) (pg rd ra rb : Nat) (s : State) : Out :=
  .next (scalarR 0x15 tile pn pg rd ra rb (fun a b => a ^^^ b) s)
def execShl (tile : Nat) (pn : Bool) (pg rd ra rb : Nat) (s : State) : Out :=
  .next (scalarR 0x16 tile pn pg rd ra rb (fun a b => a <<< (b.toNat % 64)) s)
def execShr (tile : Nat) (pn : Bool) (pg rd ra rb : Nat) (s : State) : Out :=
  .next (scalarR 0x17 tile pn pg rd ra rb (fun a b => a >>> (b.toNat % 64)) s)
def execSar (tile : Nat) (pn : Bool) (pg rd ra rb : Nat) (s : State) : Out :=
  .next (scalarR 0x18 tile pn pg rd ra rb (fun a b => a.sshiftRight (b.toNat % 64)) s)

/-- IMM sign-extended to 64 bits. -/
def immS (w : Nat) : BitVec 64 := (BitVec.ofNat 32 (wImm w)).signExtend 64

def execAddi (tile : Nat) (pn : Bool) (pg rd ra imm : Nat) (s : State) : Out :=
  let w := encI 0x19 pn pg rd ra imm
  .next (issueRegs tile w false (fun y => setS (wRd w) (sReg y (wRa w) + immS w) y) s)

def execLi (tile : Nat) (pn : Bool) (pg rd imm : Nat) (s : State) : Out :=
  let w := encI 0x1A pn pg rd 0 imm
  .next (issueRegs tile w false (fun y => setS (wRd w) (immS w) y) s)

def execLih (tile : Nat) (pn : Bool) (pg rd imm : Nat) (s : State) : Out :=
  let w := encI 0x1B pn pg rd 0 imm
  .next (issueRegs tile w false (fun y =>
    setS (wRd w) (BitVec.ofNat 32 (wImm w) ++ (sReg y (wRd w)).setWidth 32 : BitVec (32 + 32)) y) s)

/-- The comparisons of SCMP. -/
def scmpHolds (cmp : Nat) (a b : BitVec 64) : Bool :=
  match cmp with
  | 0 => a == b | 1 => a != b | 2 => a.ult b | 3 => !a.ult b | 4 => a.slt b | _ => !a.slt b

def execScmp (tile : Nat) (pn : Bool) (pg rd ra rb cmp : Nat) (s : State) : Out :=
  let w := encR 0x1C pn pg rd ra rb 0 0 (cmp % 8)
  .next (issueRegs tile w false (fun y =>
    setP (wRd w) (if scmpHolds (wCmp w) (sReg y (wRa w)) (sReg y (wRb w)) then BitVec.allOnes 64 else 0) y) s)

/-! ## Loads and stores of operands (R214, R222, R224, R228) -/

/-- A natural access of an operand: the fault it meets, if any, in the order of R216. -/
def accessFault (o : Operand) (write : Bool) (off n : Nat) : Option Nat :=
  if off % n ≠ 0 then some 5
  else if o.len < off + n then some 3
  else if write ∧ o.kind = .read ∨ write = false ∧ o.kind = .write then some 6
  else none

/-- Take the bytes that a remote LDS has brought. -/
def takeLds (j : Nat) (s : State) : State :=
  updJob j (fun x => { x with remote := x.remote.filter (fun e => e.1 / 2 ^ 40 != 32) }) s

/-- The value of an LDS. -/
def ldsValue (t w : Nat) (b : Bytes) (s : State) : State := updTile t (setS (wRd w) (BitVec.ofNat 64 (ofLe b))) s

/-- An LDS of a remote piece, by READ_WORD of 4 or 8 bytes. -/
def ldsRemote (t w j : Nat) (x : JobSt) (off n : Nat) (p : Piece) (s : State) : Issue :=
  let pn : Piece := { p with off := 0 }
  match smFind? 0 x.remoteErr with
  | some (st, _) => .data st (wOpd w) off s
  | none =>
    if remoteHere x 32 off pn then
      .done (takeLds j (ldsValue t w (fillRemote x 32 off [pn] (zeros n)) s))
    else if jobOut x 0 ≠ 0 then .hold s
    else
      let sz := if n = 8 then 8 else 4
      let a := p.addr - p.addr % sz
      .hold (jobReq j x 0 (.jobRead j 0 32 off (p.addr - a) n 0) 0x02 0 p.ep a (b2n (n == 8)) 0 [] (takeLds j s))

/-- LDS. -/
def execLds (tile : Nat) (pn : Bool) (pg rd ra opd_ size : Nat) (s : State) : Out :=
  let w := encR 0x20 pn pg rd ra 0 0 0 ((opd_ % 4) * 16 + size % 4)
  .next (issue tile w false (fun j x y s =>
    let o := opd x (wOpd w)
    let off := (sReg y (wRa w)).toNat
    let n := 2 ^ wSize w
    match accessFault o false off n with
    | some c => .fault c
    | none =>
      match pieces o.exts off n 0 with
      | [p] =>
        if p.ep = ownEp s then
          if sstTouches s x y [p] then .hold s
          else
            match cacheLoad tile (p.addr / 64) j s with
            | (.hit d, s1) => .done (ldsValue tile w (slice d (p.addr % 64) n) s1)
            | (.err st, s1) => .data st (wOpd w) off s1
            | (.wait, s1) => .hold s1
        else ldsRemote tile w j x off n p s
      | _ => .fault 3) s)

/-- A local STS: through the cache, or to the home when the line is duplex (R228). -/
def stsLocal (t j opd_ off : Nat) (p : Piece) (b : Bytes) (x : JobSt) (s : State) : Issue :=
  let line := p.addr / 64
  if lineDuplex s line then
    match tryMem (.job j) (jobSrc x) (.write p.addr (b.map some)) (if cacheState s t line = .s then dropLine t line s else s) with
    | (.ok _, s1) => .done (memTokens x p.addr p.len s1)
    | (.err st, s1) => .data st opd_ off s1
    | (.blocked, s1) => .hold s1
  else
    match cacheStore t line (p.addr % 64) b j s with
    | (.hit _, s1) => .done s1
    | (.err st, s1) => .data st opd_ off s1
    | (.wait, s1) => .hold s1

/-- STS. -/
def execSts (tile : Nat) (pn : Bool) (pg ra rb opd_ size : Nat) (s : State) : Out :=
  let w := encR 0x21 pn pg 0 ra rb 0 0 ((opd_ % 4) * 16 + size % 4)
  .next (issue tile w false (fun j x y s =>
    let o := opd x (wOpd w)
    let off := (sReg y (wRa w)).toNat
    let n := 2 ^ wSize w
    let b := leBytes n (sReg y (wRb w)).toNat
    match accessFault o true off n with
    | some c => .fault c
    | none =>
      match pieces o.exts off n 0 with
      | [p] =>
        if p.ep = ownEp s then (if sstTouches s x y [p] then .hold s else stsLocal tile j (wOpd w) off p b x s)
        else .done (writeRemote j x 1 0 (dataPlace y.pc (wOpd w) off) p b s)
      | _ => .fault 3) s)

/-- The fault of a scratch access. -/
def scratchFault (a n align : Nat) : Option Nat :=
  if a % align ≠ 0 then some 5 else if 262144 < a + n then some 2 else none

/-- LDX. -/
def execLdx (tile : Nat) (pn : Bool) (pg rd ra size : Nat) (s : State) : Out :=
  let w := encR 0x22 pn pg rd ra 0 0 0 (size % 4)
  .next (issue tile w false (fun j x y s =>
    let a := (sReg y (wRa w)).toNat
    let n := 2 ^ wSize w
    match scratchFault a n n with
    | some c => .fault c
    | none =>
      let r := scratchRead tile j x a n s
      .done (updTile tile (setS (wRd w) (BitVec.ofNat 64 (ofLe r.1))) r.2)) s)

/-- STX. -/
def execStx (tile : Nat) (pn : Bool) (pg ra rb size : Nat) (s : State) : Out :=
  let w := encR 0x23 pn pg 0 ra rb 0 0 (size % 4)
  .next (issue tile w false (fun _ _ y s =>
    let a := (sReg y (wRa w)).toNat
    let n := 2 ^ wSize w
    match scratchFault a n n with
    | some c => .fault c
    | none => .done (updTile tile (writeScratch a (leBytes n (sReg y (wRb w)).toNat)) s)) s)

/-! ## Streams (R215-R217) -/

/-- The stream a word asks for. -/
def streamOf (y : TileSt) (w : Nat) (store : Bool) : Stream :=
  let shape := (sReg y (field w 35 31)).toNat
  { store := store, opd := field w 47 46, scr := (sReg y (field w 45 41)).toNat, off := (sReg y (field w 40 36)).toNat
    rowBytes := field shape 19 0, rows := field shape 26 20, stride := field shape 63 32
    mask := (pReg y (field w 30 28)).toNat, red := store && field w 27 26 == 1, pc := y.pc, snap := [], got := [], clash := []
    sent := false }

/-- The checks of R216, in order: the cause of the fault. -/
def streamFault (s : State) (x : JobSt) (y : TileSt) (w : Nat) (st : Stream) : Option Nat :=
  let o := opd x st.opd
  let shape := (sReg y (field w 35 31)).toNat
  if st.rows = 0 ∨ 64 < st.rows ∨ st.rowBytes = 0 ∨ 262144 < st.rowBytes ∨ field shape 31 27 ≠ 0 then some 4
  else if st.scr % 32 ≠ 0 ∨ st.off % 32 ≠ 0 ∨ st.rowBytes % 32 ≠ 0 ∨ st.stride % 32 ≠ 0 then some 5
  else if 262144 < st.scr + st.rows * st.rowBytes then some 2
  else if (streamRows st).any (fun i => decide (o.len < st.off + i * st.stride + st.rowBytes)) then some 3
  else if (st.store = false ∧ o.kind = .write) ∨ (st.store = true ∧ o.kind = .read) ∨ (st.red = true ∧ o.kind ≠ .atomic) then some 6
  else if st.red = true ∧ (streamRows st).any (fun i =>
      (pieces o.exts (st.off + i * st.stride) st.rowBytes 0).any (fun p => p.ep != ownEp s)) then some 7
  else none

/-- Issue a stream: held while its SID is outstanding, the partition's limit is reached, or an SST before it writes one of
its lines. -/
def streamIssue (tile w : Nat) (store : Bool) (s : State) : State :=
  issue tile w false (fun j x y s =>
    let sid := field w 51 48
    let st := streamOf y w store
    if (smFind? sid y.streams).isSome ∨ obj s 0x4630 (x.part + 1) ≤ y.streams.length then .hold s
    else
      match streamFault s x y w st with
      | some c => .fault c
      | none =>
        let ps := ((streamRows st).map (fun i =>
          (pieces (opd x st.opd).exts (st.off + i * st.stride) st.rowBytes 0).filter (fun p => p.ep == ownEp s))).flatten
        if sstTouches s x y ps then .hold s
        else
          let r := if store then scratchRead tile j x st.scr (st.rows * st.rowBytes) s else ([], s)
          .done (updTile tile (fun y => { y with streams := smPut sid { st with snap := r.1 } y.streams }) r.2)) s

/-- SLD. -/
def execSld (tile : Nat) (pn : Bool) (pg sid opd_ ra rb rc pm : Nat) (s : State) : Out :=
  .next (streamIssue tile (encS 0x24 pn pg sid opd_ ra rb rc pm 0) false s)

/-- SST. -/
def execSst (tile : Nat) (pn : Bool) (pg sid opd_ ra rb rc pm red : Nat) (s : State) : Out :=
  .next (streamIssue tile (encS 0x25 pn pg sid opd_ ra rb rc pm red) true s)

/-- SWAIT. -/
def execSwait (tile : Nat) (pn : Bool) (pg imm : Nat) (s : State) : Out :=
  let w := encI 0x26 pn pg 0 0 (imm % 2 ^ 16)
  .next (issue tile w false (fun _ _ y s => if y.streams.any (fun e => bitOf (wImm w) e.1) then .hold s else .done s) s)

/-- SFENCE (R223). -/
def execSfence (tile : Nat) (pn : Bool) (pg : Nat) (s : State) : Out :=
  .next (issue tile (encI 0x27 pn pg 0 0 0) false (fun _ x y s =>
    if y.streams.isEmpty ∧ jobOut x 1 = 0 then .done s else .hold s) s)

/-! ## Vector arithmetic (R204, R213) -/

/-- A vector instruction that gives lanes. -/
def vectorOp (tile w : Nat) (f : TileSt → List (BitVec 32)) (s : State) : State :=
  issueRegs tile w true (fun y => setV (wRd w) (guardLanes (guardOf y w) (vReg y (wRd w)) (f y)) y) s

/-- A word of format R with RD, RA and RB, lane by lane. -/
def vectorR (op tile : Nat) (pn : Bool) (pg rd ra rb : Nat) (f : BitVec 32 → BitVec 32 → BitVec 32) (s : State) : State :=
  let w := encR op pn pg rd ra rb 0 0 0
  vectorOp tile w (fun y => (List.range 64).map (fun i =>
    f ((vReg y (wRa w)).getD i 0) ((vReg y (wRb w)).getD i 0))) s

def execVadd (tile : Nat) (pn : Bool) (pg rd ra rb : Nat) (s : State) : Out := .next (vectorR 0x30 tile pn pg rd ra rb f32Add s)
def execVsub (tile : Nat) (pn : Bool) (pg rd ra rb : Nat) (s : State) : Out := .next (vectorR 0x31 tile pn pg rd ra rb f32Sub s)
def execVmul (tile : Nat) (pn : Bool) (pg rd ra rb : Nat) (s : State) : Out := .next (vectorR 0x32 tile pn pg rd ra rb f32Mul s)
def execVdiv (tile : Nat) (pn : Bool) (pg rd ra rb : Nat) (s : State) : Out := .next (vectorR 0x34 tile pn pg rd ra rb f32Div s)
def execVmax (tile : Nat) (pn : Bool) (pg rd ra rb : Nat) (s : State) : Out := .next (vectorR 0x36 tile pn pg rd ra rb f32Max s)
def execVmin (tile : Nat) (pn : Bool) (pg rd ra rb : Nat) (s : State) : Out := .next (vectorR 0x37 tile pn pg rd ra rb f32Min s)

def execVfma (tile : Nat) (pn : Bool) (pg rd ra rb rc : Nat) (s : State) : Out :=
  let w := encR 0x33 pn pg rd ra rb rc 0 0
  .next (vectorOp tile w (fun y => (List.range 64).map (fun i =>
    f32Fma ((vReg y (wRa w)).getD i 0) ((vReg y (wRb w)).getD i 0) ((vReg y (wRc w)).getD i 0))) s)

def execVsqrt (tile : Nat) (pn : Bool) (pg rd ra : Nat) (s : State) : Out :=
  let w := encR 0x35 pn pg rd ra 0 0 0 0
  .next (vectorOp tile w (fun y => (List.range 64).map (fun i => f32Sqrt ((vReg y (wRa w)).getD i 0))) s)

def execVexp2 (tile : Nat) (pn : Bool) (pg rd ra : Nat) (s : State) : Out :=
  let w := encR 0x38 pn pg rd ra 0 0 0 0
  .next (vectorOp tile w (fun y => (List.range 64).map (fun i => f32Exp2 ((vReg y (wRa w)).getD i 0))) s)

/-- The comparisons of VCMP: a NaN operand gives 1 for NE alone; -0 equals +0. -/
def vcmpHolds (cmp : Nat) (a b : BitVec 32) : Bool :=
  if f32IsNaN a || f32IsNaN b then cmp == 1
  else
    match cmp with
    | 0 => f32Key a == f32Key b | 1 => f32Key a != f32Key b | 2 => decide (f32Key a < f32Key b)
    | 3 => decide (f32Key a ≤ f32Key b) | 4 => decide (f32Key b < f32Key a) | _ => decide (f32Key b ≤ f32Key a)

/-- A predicate from a test of each lane. -/
def lanesBits (f : Nat → Bool) : BitVec 64 := BitVec.ofNat 64 ((List.range 64).foldl (fun m i => putBit m i (f i)) 0)

/-- A predicate instruction, lane by lane. -/
def predOp (tile w : Nat) (f : TileSt → BitVec 64) (s : State) : State :=
  issueRegs tile w true (fun y => setP (wRd w) (guardBits (guardOf y w) (pReg y (wRd w)) (f y)) y) s

def execVcmp (tile : Nat) (pn : Bool) (pg rd ra rb cmp : Nat) (s : State) : Out :=
  let w := encR 0x39 pn pg rd ra rb 0 0 (cmp % 8)
  .next (predOp tile w (fun y => lanesBits (fun i =>
    vcmpHolds (wCmp w) ((vReg y (wRa w)).getD i 0) ((vReg y (wRb w)).getD i 0))) s)

def execVsel (tile : Nat) (pn : Bool) (pg rd ra rb rc : Nat) (s : State) : Out :=
  let w := encR 0x3A pn pg rd ra rb rc 0 0
  .next (vectorOp tile w (fun y => (List.range 64).map (fun i =>
    if (pReg y (wRc w)).getLsbD i then (vReg y (wRa w)).getD i 0 else (vReg y (wRb w)).getD i 0)) s)

def execVred (tile : Nat) (pn : Bool) (pg rd ra op : Nat) (s : State) : Out :=
  let w := encR 0x3B pn pg rd ra 0 0 0 (op % 4)
  .next (issueRegs tile w false (fun y =>
    let f := if wSize w = 0 then f32Add else if wSize w = 1 then f32Max else f32Min
    setS (wRd w) ((laneTree f (vReg y (wRa w))).setWidth 64) y) s)

def execVbcast (tile : Nat) (pn : Bool) (pg rd ra : Nat) (s : State) : Out :=
  let w := encR 0x3C pn pg rd ra 0 0 0 0
  .next (vectorOp tile w (fun y => List.replicate 64 ((sReg y (wRa w)).setWidth 32)) s)

/-- FP32 of an integer, rounded once. -/
def f32OfInt (n : Int) : BitVec 32 := f32 (.fin (decide (n < 0)) n.natAbs 0)

def execViota (tile : Nat) (pn : Bool) (pg rd imm : Nat) (s : State) : Out :=
  let w := encI 0x3D pn pg rd 0 imm
  .next (vectorOp tile w (fun _ => (List.range 64).map (fun i : Nat => f32OfInt (Int.ofNat i + signed 32 (wImm w)))) s)

/-! ## Vector loads and stores (R214) -/

/-- The fault of a VLD or VST. -/
def vectorFault (y : TileSt) (w : Nat) : Option Nat :=
  match scratchFault ((sReg y (wRa w)).toNat + wDisp w) (8 * fmtBits (wFmt w)) 16 with
  | some c => some c
  | none => if fmtIsMx (wFmt w) then scratchFault (sReg y (wRb w)).toNat 2 1 else none

def execVld (tile : Nat) (pn : Bool) (pg rd ra rb fmt disp : Nat) (s : State) : Out :=
  let w := encM 0x3E pn pg rd ra rb fmt disp
  .next (issue tile w true (fun j x y s =>
    let c := wFmt w
    match vectorFault y w with
    | some e => .fault e
    | none =>
      let r := scratchRead tile j x ((sReg y (wRa w)).toNat + wDisp w) (8 * fmtBits c) s
      let q := if fmtIsMx c then scratchRead tile j x (sReg y (wRb w)).toNat 2 r.2 else ([], r.2)
      let v := (List.range 64).map (fun i =>
        let e := elemAt r.1 (fmtBits c) i
        if fmtIsMx c then widenMx c e (leAt q.1 (i / 32) 1) else widen c e)
      .done (updTile tile (fun y => setV (wRd w) (guardLanes (guardOf y w) (vReg y (wRd w)) v) y) q.2)) s)

/-- VST of a format of whole bytes: lane by lane. -/
def vstLanes (y : TileSt) (w : Nat) : TileSt :=
  let c := wFmt w
  let n := fmtBits c / 8
  let a := (sReg y (wRa w)).toNat + wDisp w
  (List.range 64).foldl (fun z i =>
    if (guardOf y w).getLsbD i then writeScratch (a + n * i) (leBytes n (narrow c .nearest ((vReg y (wRd w)).getD i 0))) z else z) y

/-- VST of an MX format: two blocks and their scales. -/
def vstMx (y : TileSt) (w : Nat) : TileSt :=
  let c := wFmt w
  let v := vReg y (wRd w)
  let q0 := mxQuantise c (List.replicate 32 .nearest) (v.take 32)
  let q1 := mxQuantise c (List.replicate 32 .nearest) (v.drop 32)
  writeScratch (sReg y (wRb w)).toNat [BitVec.ofNat 8 q0.1, BitVec.ofNat 8 q1.1]
    (writeScratch ((sReg y (wRa w)).toNat + wDisp w) (packElems (fmtBits c) (q0.2 ++ q1.2)) y)

def execVst (tile : Nat) (pn : Bool) (pg rd ra rb fmt disp : Nat) (s : State) : Out :=
  let w := encM 0x3F pn pg rd ra rb fmt disp
  .next (issue tile w (!fmtIsMx (wFmt w)) (fun _ _ y s =>
    match vectorFault y w with
    | some e => .fault e
    | none => .done (updTile tile (fun y => if fmtIsMx (wFmt w) then vstMx y w else vstLanes y w) s)) s)

/-! ## The matrix unit (R218, R219) -/

def execMzero (tile : Nat) (pn : Bool) (pg rd : Nat) (s : State) : Out :=
  let w := encI 0x40 pn pg rd 0 0
  .next (issueRegs tile w false (fun y => setA (wRd w) accZero y) s)

/-- The bytes of `n` packed elements. -/
def packedLen (c n : Nat) : Nat := (fmtBits c * n + 7) / 8

/-- The fault of an MMA. -/
def mmaFault (y : TileSt) (w : Nat) : Option Nat :=
  let c := (sReg y (wRc w)).toNat
  let k := field c 15 0
  let fa := wFmt w
  let fb := field w 27 24
  let a := (sReg y (wRa w)).toNat
  let b := (sReg y (wRb w)).toNat
  if k = 0 ∨ (fmtIsMx fa = true ∧ k % 32 ≠ 0) ∨ field c 63 52 ≠ 0 then some 4
  else if a % 8 ≠ 0 ∨ b % 8 ≠ 0 then some 5
  else if 262144 < a + packedLen fa (16 * k) ∨ 262144 < b + packedLen fb (32 * k) ∨
      (fmtIsMx fa = true ∧ (262144 < field c 33 16 + 16 * k / 32 ∨ 262144 < field c 51 34 + 32 * k / 32)) then some 2
  else none

/-- Rows of exact values from packed elements and their scales. -/
def mmaRows (c k rows : Nat) (els scales : Bytes) : List (List FVal) :=
  (List.range rows).map (fun i => (List.range k).map (fun q =>
    let x := elemAt els (fmtBits c) (i * k + q)
    if fmtIsMx c then mxVal c x (leAt scales (i * (k / 32) + q / 32) 1) else elemVal c x))

/-- MMA. -/
def execMma (tile : Nat) (pn : Bool) (pg rd ra rb rc fmt fmtB : Nat) (s : State) : Out :=
  let w := encR 0x41 pn pg rd ra rb rc fmt ((fmtB % 16) * 16)
  .next (issue tile w false (fun j x y s =>
    match mmaFault y w with
    | some e => .fault e
    | none =>
      let c := (sReg y (wRc w)).toNat
      let k := field c 15 0
      let fa := wFmt w
      let fb := field w 27 24
      let ea := scratchRead tile j x (sReg y (wRa w)).toNat (packedLen fa (16 * k)) s
      let eb := scratchRead tile j x (sReg y (wRb w)).toNat (packedLen fb (32 * k)) ea.2
      let sa := if fmtIsMx fa then scratchRead tile j x (field c 33 16) (16 * k / 32) eb.2 else ([], eb.2)
      let sb := if fmtIsMx fa then scratchRead tile j x (field c 51 34) (32 * k / 32) sa.2 else ([], sa.2)
      let as := mmaRows fa k 16 ea.1 sa.1
      let bs := mmaRows fb k 32 eb.1 sb.1
      let acc := (List.range 512).map (fun e =>
        dotFrom (fmtIsMx fa) (fa == 12 && fb == 12) ((aReg y (wRd w)).getD e 0) ((as.getD (e / 32) []).zip (bs.getD (e % 32) [])))
      .done (updTile tile (setA (wRd w) acc) sb.2)) s)

def execMrd (tile : Nat) (pn : Bool) (pg rd ra imm : Nat) (s : State) : Out :=
  let w := encI 0x42 pn pg rd ra (imm % 8)
  .next (issueRegs tile w false (fun y =>
    setV (wRd w) (((aReg y (wRa w)).drop (64 * (wImm w % 8))).take 64) y) s)

def execMwr (tile : Nat) (pn : Bool) (pg rd ra imm : Nat) (s : State) : Out :=
  let w := encI 0x43 pn pg rd ra (imm % 8)
  .next (issueRegs tile w false (fun y =>
    let a := aReg y (wRd w)
    let j := 64 * (wImm w % 8)
    setA (wRd w) (a.take j ++ vReg y (wRa w) ++ a.drop (j + 64)) y) s)

/-! ## Predicates -/

def execPand (tile : Nat) (pn : Bool) (pg rd ra rb : Nat) (s : State) : Out :=
  let w := encR 0x50 pn pg rd ra rb 0 0 0
  .next (predOp tile w (fun y => pReg y (wRa w) &&& pReg y (wRb w)) s)

def execPor (tile : Nat) (pn : Bool) (pg rd ra rb : Nat) (s : State) : Out :=
  let w := encR 0x51 pn pg rd ra rb 0 0 0
  .next (predOp tile w (fun y => pReg y (wRa w) ||| pReg y (wRb w)) s)

def execPxor (tile : Nat) (pn : Bool) (pg rd ra rb : Nat) (s : State) : Out :=
  let w := encR 0x52 pn pg rd ra rb 0 0 0
  .next (predOp tile w (fun y => pReg y (wRa w) ^^^ pReg y (wRb w)) s)

def execPnot (tile : Nat) (pn : Bool) (pg rd ra : Nat) (s : State) : Out :=
  let w := encR 0x53 pn pg rd ra 0 0 0 0
  .next (predOp tile w (fun y => ~~~(pReg y (wRa w))) s)

def execPsetn (tile : Nat) (pn : Bool) (pg rd ra : Nat) (s : State) : Out :=
  let w := encR 0x54 pn pg rd ra 0 0 0 0
  .next (predOp tile w (fun y => BitVec.ofNat 64 (2 ^ (min (sReg y (wRa w)).toNat 64) - 1)) s)

def execPtos (tile : Nat) (pn : Bool) (pg rd ra : Nat) (s : State) : Out :=
  let w := encR 0x55 pn pg rd ra 0 0 0 0
  .next (issueRegs tile w false (fun y => setS (wRd w) (pReg y (wRa w)) y) s)

def execPfroms (tile : Nat) (pn : Bool) (pg rd ra : Nat) (s : State) : Out :=
  let w := encR 0x56 pn pg rd ra 0 0 0 0
  .next (predOp tile w (fun y => sReg y (wRa w)) s)

end Sys2Proof.Machine
end

