-- ==== Sys2Proof/Machine/Dispatch.lean ====
section
/-!
DEFINITION. Dispatch: one arm per command, each a direct call of that command's meaning.
-/
namespace Sys2Proof.Machine

def exec (i : Instr) (s : State) : Host.Outcome State Fault Refusal :=
  match i with
  | .counterClear part index sub value => Sys2Proof.Machine.execCounterClear part index sub value s
  | .poweredTimeTick => Sys2Proof.Machine.execPoweredTimeTick s
  | .serviceMinuteCommit => Sys2Proof.Machine.execServiceMinuteCommit s
  | .rwsCounterCommit => Sys2Proof.Machine.execRwsCounterCommit s
  | .ringEntryReservation ring stop dir free => Sys2Proof.Machine.execRingEntryReservation ring stop dir free s
  | .tileClockLockLoss ptile => Sys2Proof.Machine.execTileClockLockLoss ptile s
  | .cxlMemReadShared port ld dpa tag => Sys2Proof.Machine.execCxlMemReadShared port ld dpa tag s
  | .cxlMemReadExclusive port ld dpa tag => Sys2Proof.Machine.execCxlMemReadExclusive port ld dpa tag s
  | .cxlMemWrite port ld dpa tag keep be data => Sys2Proof.Machine.execCxlMemWrite port ld dpa tag keep be data s
  | .hdmDecoderCommit port ld dec ways => Sys2Proof.Machine.execHdmDecoderCommit port ld dec ways s
  | .bisnpResponse host line gaveUp data => Sys2Proof.Machine.execBisnpResponse host line gaveUp data s
  | .biconflict host line => Sys2Proof.Machine.execBiconflict host line s
  | .biTimeout host line => Sys2Proof.Machine.execBiTimeout host line s
  | .hostDeclareDead host => Sys2Proof.Machine.execHostDeclareDead host s
  | .deadHostSweepEnd host => Sys2Proof.Machine.execDeadHostSweepEnd host s
  | .hostTableWrite host value => Sys2Proof.Machine.execHostTableWrite host value s
  | .create cmd => Sys2Proof.Machine.execCreate cmd s
  | .mapRegion cmd => Sys2Proof.Machine.execMapRegion cmd s
  | .unmap cmd => Sys2Proof.Machine.execUnmap cmd s
  | .addDraft cmd => Sys2Proof.Machine.execAddDraft cmd s
  | .releaseRegion cmd => Sys2Proof.Machine.execReleaseRegion cmd s
  | .query cmd => Sys2Proof.Machine.execQuery cmd s
  | .regionZeroFillDone region => Sys2Proof.Machine.execRegionZeroFillDone region s
  | .regionRecallDone region => Sys2Proof.Machine.execRegionRecallDone region s
  | .regionSanitiseDone region => Sys2Proof.Machine.execRegionSanitiseDone region s
  | .dcAddCapacity port ld tag dpa pa len => Sys2Proof.Machine.execDcAddCapacity port ld tag dpa pa len s
  | .dcExtentAccept port ld dpa => Sys2Proof.Machine.execDcExtentAccept port ld dpa s
  | .dcExtentRelease port ld dpa => Sys2Proof.Machine.execDcExtentRelease port ld dpa s
  | .publish port ld region expect token => Sys2Proof.Machine.execPublish port ld region expect token s
  | .rebase port ld region token => Sys2Proof.Machine.execRebase port ld region token s
  | .pubCtrlRsvdOp port ld token => Sys2Proof.Machine.execPubCtrlRsvdOp port ld token s
  | .draftCopyDone region => Sys2Proof.Machine.execDraftCopyDone region s
  | .dqsDriftAdjust chan rd0 wr0 rd1 wr1 => Sys2Proof.Machine.execDqsDriftAdjust chan rd0 wr0 rd1 wr1 s
  | .refreshDue set doubled => Sys2Proof.Machine.execRefreshDue set doubled s
  | .owedRefreshIssue set => Sys2Proof.Machine.execOwedRefreshIssue set s
  | .memoryChannelAccept tag src op flip => Sys2Proof.Machine.execMemoryChannelAccept tag src op flip s
  | .patrolScrubRead line flip => Sys2Proof.Machine.execPatrolScrubRead line flip s
  | .writeRaw cmd => Sys2Proof.Machine.execWriteRaw cmd s
  | .readRaw cmd => Sys2Proof.Machine.execReadRaw cmd s
  | .readDecode cmd => Sys2Proof.Machine.execReadDecode cmd s
  | .blockMarkInit block => Sys2Proof.Machine.execBlockMarkInit block s
  | .blockInitQuery block => Sys2Proof.Machine.execBlockInitQuery block s
  | .rowRemapComplete pchan bank row => Sys2Proof.Machine.execRowRemapComplete pchan bank row s
  | .spareStackCmd stack => Sys2Proof.Machine.execSpareStackCmd stack s
  | .stackEvacuationComplete => Sys2Proof.Machine.execStackEvacuationComplete s
  | .stackStopsAnswering ptr => Sys2Proof.Machine.execStackStopsAnswering ptr s
  | .tileOwnerWrite tile part => Sys2Proof.Machine.execTileOwnerWrite tile part s
  | .tileClearDone tile => Sys2Proof.Machine.execTileClearDone tile s
  | .queueAssign value => Sys2Proof.Machine.execQueueAssign value s
  | .partLdWrite part value => Sys2Proof.Machine.execPartLdWrite part value s
  | .qCfgWrite part q value => Sys2Proof.Machine.execQCfgWrite part q value s
  | .doorbell part q tail => Sys2Proof.Machine.execDoorbell part q tail s
  | .qCompHeadWrite part q chead => Sys2Proof.Machine.execQCompHeadWrite part q chead s
  | .msixUnmask part vector => Sys2Proof.Machine.execMsixUnmask part vector s
  | .descriptorSeal queue => Sys2Proof.Machine.execDescriptorSeal queue s
  | .jobDispatch job tile => Sys2Proof.Machine.execJobDispatch job tile s
  | .jobRetire job => Sys2Proof.Machine.execJobRetire job s
  | .jobBudgetExpiry job => Sys2Proof.Machine.execJobBudgetExpiry job s
  | .ptRootWrite part value => Sys2Proof.Machine.execPtRootWrite part value s
  | .drainInvalidate part base length ctrl => Sys2Proof.Machine.execDrainInvalidate part base length ctrl s
  | .nop job => Sys2Proof.Machine.execNop job s
  | .ctxOpen job => Sys2Proof.Machine.execCtxOpen job s
  | .ctxClose job => Sys2Proof.Machine.execCtxClose job s
  | .ctxCloseComplete part ctx => Sys2Proof.Machine.execCtxCloseComplete part ctx s
  | .kvSummarise job => Sys2Proof.Machine.execKvSummarise job s
  | .attendDense job => Sys2Proof.Machine.execAttendDense job s
  | .attendBound job => Sys2Proof.Machine.execAttendBound job s
  | .attendTopk job => Sys2Proof.Machine.execAttendTopk job s
  | .optStepSgd job => Sys2Proof.Machine.execOptStepSgd job s
  | .optStepAdamw job => Sys2Proof.Machine.execOptStepAdamw job s
  | .optStepEmitOnly job => Sys2Proof.Machine.execOptStepEmitOnly job s
  | .gradAccum job => Sys2Proof.Machine.execGradAccum job s
  | .reductionPacket tile line addends mask store tag => Sys2Proof.Machine.execReductionPacket tile line addends mask store tag s
  | .scatterAdd job => Sys2Proof.Machine.execScatterAdd job s
  | .embGather job => Sys2Proof.Machine.execEmbGather job s
  | .expertStream job => Sys2Proof.Machine.execExpertStream job s
  | .expertGroupClose group => Sys2Proof.Machine.execExpertGroupClose group s
  | .copy job => Sys2Proof.Machine.execCopy job s
  | .fill job => Sys2Proof.Machine.execFill job s
  | .compare job => Sys2Proof.Machine.execCompare job s
  | .progLoad job => Sys2Proof.Machine.execProgLoad job s
  | .progRun job => Sys2Proof.Machine.execProgRun job s
  | .nopInstruction tile pn pg => Sys2Proof.Machine.execNopInstruction tile pn pg s
  | .halt tile pn pg ra rb stat => Sys2Proof.Machine.execHalt tile pn pg ra rb stat s
  | .br tile pn pg pt cond off => Sys2Proof.Machine.execBr tile pn pg pt cond off s
  | .add tile pn pg rd ra rb => Sys2Proof.Machine.execAdd tile pn pg rd ra rb s
  | .sub tile pn pg rd ra rb => Sys2Proof.Machine.execSub tile pn pg rd ra rb s
  | .mul tile pn pg rd ra rb => Sys2Proof.Machine.execMul tile pn pg rd ra rb s
  | .andOp tile pn pg rd ra rb => Sys2Proof.Machine.execAnd tile pn pg rd ra rb s
  | .orOp tile pn pg rd ra rb => Sys2Proof.Machine.execOr tile pn pg rd ra rb s
  | .xor tile pn pg rd ra rb => Sys2Proof.Machine.execXor tile pn pg rd ra rb s
  | .shl tile pn pg rd ra rb => Sys2Proof.Machine.execShl tile pn pg rd ra rb s
  | .shr tile pn pg rd ra rb => Sys2Proof.Machine.execShr tile pn pg rd ra rb s
  | .sar tile pn pg rd ra rb => Sys2Proof.Machine.execSar tile pn pg rd ra rb s
  | .addi tile pn pg rd ra imm => Sys2Proof.Machine.execAddi tile pn pg rd ra imm s
  | .li tile pn pg rd imm => Sys2Proof.Machine.execLi tile pn pg rd imm s
  | .lih tile pn pg rd imm => Sys2Proof.Machine.execLih tile pn pg rd imm s
  | .scmp tile pn pg rd ra rb cmp => Sys2Proof.Machine.execScmp tile pn pg rd ra rb cmp s
  | .lds tile pn pg rd ra opd size => Sys2Proof.Machine.execLds tile pn pg rd ra opd size s
  | .sts tile pn pg ra rb opd size => Sys2Proof.Machine.execSts tile pn pg ra rb opd size s
  | .ldx tile pn pg rd ra size => Sys2Proof.Machine.execLdx tile pn pg rd ra size s
  | .stx tile pn pg ra rb size => Sys2Proof.Machine.execStx tile pn pg ra rb size s
  | .sld tile pn pg sid opd ra rb rc pm => Sys2Proof.Machine.execSld tile pn pg sid opd ra rb rc pm s
  | .sst tile pn pg sid opd ra rb rc pm red => Sys2Proof.Machine.execSst tile pn pg sid opd ra rb rc pm red s
  | .swait tile pn pg imm => Sys2Proof.Machine.execSwait tile pn pg imm s
  | .sfence tile pn pg => Sys2Proof.Machine.execSfence tile pn pg s
  | .streamEnd tile sid => Sys2Proof.Machine.execStreamEnd tile sid s
  | .vadd tile pn pg rd ra rb => Sys2Proof.Machine.execVadd tile pn pg rd ra rb s
  | .vsub tile pn pg rd ra rb => Sys2Proof.Machine.execVsub tile pn pg rd ra rb s
  | .vmul tile pn pg rd ra rb => Sys2Proof.Machine.execVmul tile pn pg rd ra rb s
  | .vfma tile pn pg rd ra rb rc => Sys2Proof.Machine.execVfma tile pn pg rd ra rb rc s
  | .vdiv tile pn pg rd ra rb => Sys2Proof.Machine.execVdiv tile pn pg rd ra rb s
  | .vsqrt tile pn pg rd ra => Sys2Proof.Machine.execVsqrt tile pn pg rd ra s
  | .vmax tile pn pg rd ra rb => Sys2Proof.Machine.execVmax tile pn pg rd ra rb s
  | .vmin tile pn pg rd ra rb => Sys2Proof.Machine.execVmin tile pn pg rd ra rb s
  | .vexp2 tile pn pg rd ra => Sys2Proof.Machine.execVexp2 tile pn pg rd ra s
  | .vcmp tile pn pg rd ra rb cmp => Sys2Proof.Machine.execVcmp tile pn pg rd ra rb cmp s
  | .vsel tile pn pg rd ra rb rc => Sys2Proof.Machine.execVsel tile pn pg rd ra rb rc s
  | .vred tile pn pg rd ra op => Sys2Proof.Machine.execVred tile pn pg rd ra op s
  | .vbcast tile pn pg rd ra => Sys2Proof.Machine.execVbcast tile pn pg rd ra s
  | .viota tile pn pg rd imm => Sys2Proof.Machine.execViota tile pn pg rd imm s
  | .vld tile pn pg rd ra rb fmt disp => Sys2Proof.Machine.execVld tile pn pg rd ra rb fmt disp s
  | .vst tile pn pg rd ra rb fmt disp => Sys2Proof.Machine.execVst tile pn pg rd ra rb fmt disp s
  | .mzero tile pn pg rd => Sys2Proof.Machine.execMzero tile pn pg rd s
  | .mma tile pn pg rd ra rb rc fmt fmtB => Sys2Proof.Machine.execMma tile pn pg rd ra rb rc fmt fmtB s
  | .mrd tile pn pg rd ra imm => Sys2Proof.Machine.execMrd tile pn pg rd ra imm s
  | .mwr tile pn pg rd ra imm => Sys2Proof.Machine.execMwr tile pn pg rd ra imm s
  | .pand tile pn pg rd ra rb => Sys2Proof.Machine.execPand tile pn pg rd ra rb s
  | .por tile pn pg rd ra rb => Sys2Proof.Machine.execPor tile pn pg rd ra rb s
  | .pxor tile pn pg rd ra rb => Sys2Proof.Machine.execPxor tile pn pg rd ra rb s
  | .pnot tile pn pg rd ra => Sys2Proof.Machine.execPnot tile pn pg rd ra s
  | .psetn tile pn pg rd ra => Sys2Proof.Machine.execPsetn tile pn pg rd ra s
  | .ptos tile pn pg rd ra => Sys2Proof.Machine.execPtos tile pn pg rd ra s
  | .pfroms tile pn pg rd ra => Sys2Proof.Machine.execPfroms tile pn pg rd ra s
  | .gets tile line => Sys2Proof.Machine.execGets tile line s
  | .getm tile line => Sys2Proof.Machine.execGetm tile line s
  | .upg tile line => Sys2Proof.Machine.execUpg tile line s
  | .putm tile line data poison => Sys2Proof.Machine.execPutm tile line data poison s
  | .pute tile line => Sys2Proof.Machine.execPute tile line s
  | .gack tile line => Sys2Proof.Machine.execGack tile line s
  | .snpDone line bridge hitM hitS ownS data => Sys2Proof.Machine.execSnpDone line bridge hitM hitS ownS data s
  | .snpS tile line requester => Sys2Proof.Machine.execSnpS tile line requester s
  | .snpI tile line requester => Sys2Proof.Machine.execSnpI tile line requester s
  | .dataS tile line excl data => Sys2Proof.Machine.execDataS tile line excl data s
  | .dataM tile line data => Sys2Proof.Machine.execDataM tile line data s
  | .ackUpg tile line => Sys2Proof.Machine.execAckUpg tile line s
  | .ackPut tile line stale => Sys2Proof.Machine.execAckPut tile line stale s
  | .errData tile line status => Sys2Proof.Machine.execErrData tile line status s
  | .snoopTimeout line => Sys2Proof.Machine.execSnoopTimeout line s
  | .gackTimeout line => Sys2Proof.Machine.execGackTimeout line s
  | .salvageEnd => Sys2Proof.Machine.execSalvageEnd s
  | .tileDomainReady => Sys2Proof.Machine.execTileDomainReady s
  | .piccoloBankEnqueue src => Sys2Proof.Machine.execPiccoloBankEnqueue src s
  | .piccoloInit bank => Sys2Proof.Machine.execPiccoloInit bank s
  | .piccoloRead bank => Sys2Proof.Machine.execPiccoloRead bank s
  | .semWait bank => Sys2Proof.Machine.execSemWait bank s
  | .semPost bank => Sys2Proof.Machine.execSemPost bank s
  | .mutexLock bank => Sys2Proof.Machine.execMutexLock bank s
  | .mutexUnlock bank => Sys2Proof.Machine.execMutexUnlock bank s
  | .mutexBreak bank => Sys2Proof.Machine.execMutexBreak bank s
  | .barArrive bank => Sys2Proof.Machine.execBarArrive bank s
  | .eventSet bank => Sys2Proof.Machine.execEventSet bank s
  | .eventClear bank => Sys2Proof.Machine.execEventClear bank s
  | .eventWait bank => Sys2Proof.Machine.execEventWait bank s
  | .cancel bank => Sys2Proof.Machine.execCancel bank s
  | .syncRangeWrite part value => Sys2Proof.Machine.execSyncRangeWrite part value s
  | .forwardedClockLock port => Sys2Proof.Machine.execForwardedClockLock port s
  | .forwardedClockLoss port => Sys2Proof.Machine.execForwardedClockLoss port s
  | .ts1 port trace inverted block => Sys2Proof.Machine.execTs1 port trace inverted block s
  | .ts2 port trace block => Sys2Proof.Machine.execTs2 port trace block s
  | .stepBlock port trace block => Sys2Proof.Machine.execStepBlock port trace block s
  | .rateSwitch port => Sys2Proof.Machine.execRateSwitch port s
  | .eqBlock port trace adapted ask block => Sys2Proof.Machine.execEqBlock port trace adapted ask block s
  | .qualificationEnd port errors eyes => Sys2Proof.Machine.execQualificationEnd port errors eyes s
  | .bringupPhaseTimeout port => Sys2Proof.Machine.execBringupPhaseTimeout port s
  | .nlRetrainCmd port => Sys2Proof.Machine.execNlRetrainCmd port s
  | .nlPortEnableWrite port value => Sys2Proof.Machine.execNlPortEnableWrite port value s
  | .spareReq port lane => Sys2Proof.Machine.execSpareReq port lane s
  | .spareCompareEnd port lane => Sys2Proof.Machine.execSpareCompareEnd port lane s
  | .spareDone port lane => Sys2Proof.Machine.execSpareDone port lane s
  | .spareAbort port lane => Sys2Proof.Machine.execSpareAbort port lane s
  | .backgroundEyeScan port line phase => Sys2Proof.Machine.execBackgroundEyeScan port line phase s
  | .nlEyeScanCmd cmd => Sys2Proof.Machine.execNlEyeScanCmd cmd s
  | .eyeScanCommandEnd edges points => Sys2Proof.Machine.execEyeScanCommandEnd edges points s
  | .loopbackNearParallel port rate pattern p32 => Sys2Proof.Machine.execLoopbackNearParallel port rate pattern p32 s
  | .loopbackNearSerial port rate pattern p32 => Sys2Proof.Machine.execLoopbackNearSerial port rate pattern p32 s
  | .loopbackFarEnd port rate pattern p32 => Sys2Proof.Machine.execLoopbackFarEnd port rate pattern p32 s
  | .loopbackEnd port rx => Sys2Proof.Machine.execLoopbackEnd port rx s
  | .loopReq port => Sys2Proof.Machine.execLoopReq port s
  | .flitTransmit port pick => Sys2Proof.Machine.execFlitTransmit port pick s
  | .flitReceive port full rx => Sys2Proof.Machine.execFlitReceive port full rx s
  | .replayTimerExpiry port => Sys2Proof.Machine.execReplayTimerExpiry port s
  | .linkInitTimeout port => Sys2Proof.Machine.execLinkInitTimeout port s
  | .flitLockLoss port => Sys2Proof.Machine.execFlitLockLoss port s
  | .retrainReq port => Sys2Proof.Machine.execRetrainReq port s
  | .read port packet => Sys2Proof.Machine.execRead port packet s
  | .readWord port packet => Sys2Proof.Machine.execReadWord port packet s
  | .write port packet => Sys2Proof.Machine.execWrite port packet s
  | .writeBe port packet => Sys2Proof.Machine.execWriteBe port packet s
  | .writePosted port packet => Sys2Proof.Machine.execWritePosted port packet s
  | .atomicAdd port packet => Sys2Proof.Machine.execAtomicAdd port packet s
  | .atomicFadd port packet => Sys2Proof.Machine.execAtomicFadd port packet s
  | .atomicSwap port packet => Sys2Proof.Machine.execAtomicSwap port packet s
  | .atomicCas port packet => Sys2Proof.Machine.execAtomicCas port packet s
  | .atomicUmin port packet => Sys2Proof.Machine.execAtomicUmin port packet s
  | .atomicUmax port packet => Sys2Proof.Machine.execAtomicUmax port packet s
  | .atomicSmin port packet => Sys2Proof.Machine.execAtomicSmin port packet s
  | .atomicSmax port packet => Sys2Proof.Machine.execAtomicSmax port packet s
  | .atomicAnd port packet => Sys2Proof.Machine.execAtomicAnd port packet s
  | .atomicOr port packet => Sys2Proof.Machine.execAtomicOr port packet s
  | .atomicXor port packet => Sys2Proof.Machine.execAtomicXor port packet s
  | .reduceFadd port packet => Sys2Proof.Machine.execReduceFadd port packet s
  | .seqAck port packet => Sys2Proof.Machine.execSeqAck port packet s
  | .mcAck port packet => Sys2Proof.Machine.execMcAck port packet s
  | .mcSkip port packet => Sys2Proof.Machine.execMcSkip port packet s
  | .readResp port packet => Sys2Proof.Machine.execReadResp port packet s
  | .comp port packet => Sys2Proof.Machine.execComp port packet s
  | .atomicResp port packet => Sys2Proof.Machine.execAtomicResp port packet s
  | .transitForward port nlUnit => Sys2Proof.Machine.execTransitForward port nlUnit s
  | .seqAckTimer cell source tc => Sys2Proof.Machine.execSeqAckTimer cell source tc s
  | .mcAckTimer source tc => Sys2Proof.Machine.execMcAckTimer source tc s
  | .reorderTimeout cell source tc => Sys2Proof.Machine.execReorderTimeout cell source tc s
  | .requestTimeout dst tag => Sys2Proof.Machine.execRequestTimeout dst tag s
  | .escWaitExpiry place => Sys2Proof.Machine.execEscWaitExpiry place s
  | .routeEntryWrite endpoint value => Sys2Proof.Machine.execRouteEntryWrite endpoint value s
  | .nfOwnEndpointWrite value => Sys2Proof.Machine.execNfOwnEndpointWrite value s
  | .sendingOpportunity port => Sys2Proof.Machine.execSendingOpportunity port s
  | .shapingCreditAccrual port sub svc => Sys2Proof.Machine.execShapingCreditAccrual port sub svc s
  | .schSubMinWrite sub value => Sys2Proof.Machine.execSchSubMinWrite sub value s
  | .partCmdCreate cmd => Sys2Proof.Machine.execPartCmdCreate cmd s
  | .partCmdStart cmd => Sys2Proof.Machine.execPartCmdStart cmd s
  | .partCmdHold cmd => Sys2Proof.Machine.execPartCmdHold cmd s
  | .partCmdDestroy cmd => Sys2Proof.Machine.execPartCmdDestroy cmd s
  | .partCmdReset cmd => Sys2Proof.Machine.execPartCmdReset cmd s
  | .partSelfReset part value => Sys2Proof.Machine.execPartSelfReset part value s
  | .fenceDrainEnd part => Sys2Proof.Machine.execFenceDrainEnd part s
  | .fenceDrainBudgetExpiry part => Sys2Proof.Machine.execFenceDrainBudgetExpiry part s
  | .fenceConfirm part => Sys2Proof.Machine.execFenceConfirm part s
  | .sanitisingFillDone part => Sys2Proof.Machine.execSanitisingFillDone part s
  | .partBlocksWrite part value => Sys2Proof.Machine.execPartBlocksWrite part value s
  | .blockWithdrawalDrainEnd part block => Sys2Proof.Machine.execBlockWithdrawalDrainEnd part block s
  | .epPartitionWrite value => Sys2Proof.Machine.execEpPartitionWrite value s
  | .partKeysWrite part value => Sys2Proof.Machine.execPartKeysWrite part value s
  | .install driver cmd => Sys2Proof.Machine.execInstall driver cmd s
  | .roll driver cmd => Sys2Proof.Machine.execRoll driver cmd s
  | .revoke driver cmd => Sys2Proof.Machine.execRevoke driver cmd s
  | .keyRollExpiry slot => Sys2Proof.Machine.execKeyRollExpiry slot s
  | .attestationRequest driver req => Sys2Proof.Machine.execAttestationRequest driver req s
  | .attestationReportReady => Sys2Proof.Machine.execAttestationReportReady s
  | .blobUnwrapCmd driver cmd => Sys2Proof.Machine.execBlobUnwrapCmd driver cmd s
  | .blobChunkDone => Sys2Proof.Machine.execBlobChunkDone s
  | .tileHeartbeat ptile => Sys2Proof.Machine.execTileHeartbeat ptile s
  | .tileHeartbeatTimeout ptile => Sys2Proof.Machine.execTileHeartbeatTimeout ptile s
  | .portStarvation port tc => Sys2Proof.Machine.execPortStarvation port tc s
  | .cxlPortStarvation port => Sys2Proof.Machine.execCxlPortStarvation port s
  | .moduleResetOrderly => Sys2Proof.Machine.execModuleResetOrderly s
  | .moduleResetImmediate cause => Sys2Proof.Machine.execModuleResetImmediate cause s
  | .spareTileCmd tile => Sys2Proof.Machine.execSpareTileCmd tile s
  | .phaseFailure => Sys2Proof.Machine.execPhaseFailure s
  | .leaseRenewTimer role => Sys2Proof.Machine.execLeaseRenewTimer role s
  | .leaseGrant role epoch sent => Sys2Proof.Machine.execLeaseGrant role epoch sent s
  | .leaseExpiry role => Sys2Proof.Machine.execLeaseExpiry role s
  | .leaseDemotion role => Sys2Proof.Machine.execLeaseDemotion role s
  | .commitCycle role recs => Sys2Proof.Machine.execCommitCycle role recs s
  | .lineHead rx => Sys2Proof.Machine.execLineHead rx s
  | .lineData rx => Sys2Proof.Machine.execLineData rx s
  | .tagOnly rx => Sys2Proof.Machine.execTagOnly rx s
  | .metaCell rx => Sys2Proof.Machine.execMetaCell rx s
  | .commitCell rx => Sys2Proof.Machine.execCommitCell rx s
  | .resyncHead rx => Sys2Proof.Machine.execResyncHead rx s
  | .roleReady rx => Sys2Proof.Machine.execRoleReady rx s
  | .roleSynced rx => Sys2Proof.Machine.execRoleSynced rx s
  | .roleHandover rx => Sys2Proof.Machine.execRoleHandover rx s
  | .roleRelease rx => Sys2Proof.Machine.execRoleRelease rx s
  | .resyncCopyEnd role => Sys2Proof.Machine.execResyncCopyEnd role s
  | .simplex role epoch => Sys2Proof.Machine.execSimplex role epoch s
  | .duplex role epoch => Sys2Proof.Machine.execDuplex role epoch s
  | .roleSwapCmd value => Sys2Proof.Machine.execRoleSwapCmd value s
  | .divergenceResolve value => Sys2Proof.Machine.execDivergenceResolve value s
  | .inputSample vin => Sys2Proof.Machine.execInputSample vin s
  | .inputQualified phases => Sys2Proof.Machine.execInputQualified phases s
  | .uvWarning => Sys2Proof.Machine.execUvWarning s
  | .uvQualificationExpiry => Sys2Proof.Machine.execUvQualificationExpiry s
  | .ovQualificationExpiry => Sys2Proof.Machine.execOvQualificationExpiry s
  | .pfailRelease => Sys2Proof.Machine.execPfailRelease s
  | .thermalSample junction stack => Sys2Proof.Machine.execThermalSample junction stack s
  | .referenceLoss ref => Sys2Proof.Machine.execReferenceLoss ref s
  | .referenceRestored ref => Sys2Proof.Machine.execReferenceRestored ref s
  | .powerStateM0 via cmd => Sys2Proof.Machine.execPowerStateM0 via cmd s
  | .powerStateM1 via cmd => Sys2Proof.Machine.execPowerStateM1 via cmd s
  | .powerStateM2 via cmd => Sys2Proof.Machine.execPowerStateM2 via cmd s
  | .powerStateM3 via cmd => Sys2Proof.Machine.execPowerStateM3 via cmd s
  | .powerTransitionEnd => Sys2Proof.Machine.execPowerTransitionEnd s
  | .imageRequestTimer => Sys2Proof.Machine.execImageRequestTimer s
  | .imageData offset data => Sys2Proof.Machine.execImageData offset data s
  | .imageWrite ld input => Sys2Proof.Machine.execImageWrite ld input s
  | .imageVerify => Sys2Proof.Machine.execImageVerify s
  | .tileWave present passed => Sys2Proof.Machine.execTileWave present passed s
  | .tileFirmwareDelivery bad => Sys2Proof.Machine.execTileFirmwareDelivery bad s
  | .dramTrainingDone reports repaired => Sys2Proof.Machine.execDramTrainingDone reports repaired s
  | .topologyCheck expired buddyHolds => Sys2Proof.Machine.execTopologyCheck expired buddyHolds s
  | .topoAccept mask => Sys2Proof.Machine.execTopoAccept mask s
  | .expectedTopologyWrite value => Sys2Proof.Machine.execExpectedTopologyWrite value s
  | .fwRollbackCommit value => Sys2Proof.Machine.execFwRollbackCommit value s
  | .wopRead ctr index sub part tag => Sys2Proof.Machine.execWopRead ctr index sub part tag s
  | .wopWrite ctr index sub part data tag => Sys2Proof.Machine.execWopWrite ctr index sub part data tag s
  | .eventAck ctr => Sys2Proof.Machine.execEventAck ctr s
  | .eventResendTimer => Sys2Proof.Machine.execEventResendTimer s
  | .fmKeyCmd role cmd => Sys2Proof.Machine.execFmKeyCmd role cmd s
  | .objRead ld index sub part => Sys2Proof.Machine.execObjRead ld index sub part s
  | .objWrite ld index sub part data => Sys2Proof.Machine.execObjWrite ld index sub part data s
  | .objWindowRead ld token addr len data => Sys2Proof.Machine.execObjWindowRead ld token addr len data s
  | .objWindowWrite ld token addr len data => Sys2Proof.Machine.execObjWindowWrite ld token addr len data s
  | .mgmtCellRead cell => Sys2Proof.Machine.execMgmtCellRead cell s
  | .mgmtCellWrite cell => Sys2Proof.Machine.execMgmtCellWrite cell s
  | .objectWrite role index sub part data => Sys2Proof.Machine.execObjectWrite role index sub part data s
  | .expertUnlock role group => Sys2Proof.Machine.execExpertUnlock role group s
  | .expertLock role group => Sys2Proof.Machine.execExpertLock role group s
  | .expertUnlockLapse mon group => Sys2Proof.Machine.execExpertUnlockLapse mon group s
  | .lovageRead role count seq => Sys2Proof.Machine.execLovageRead role count seq s
  | .lovageReadCopies role seq => Sys2Proof.Machine.execLovageReadCopies role seq s
  | .lovageFreeze role => Sys2Proof.Machine.execLovageFreeze role s
  | .lovageUnfreeze role => Sys2Proof.Machine.execLovageUnfreeze role s
  | .lovageClear role => Sys2Proof.Machine.execLovageClear role s
  | .fifeStatus => Sys2Proof.Machine.execFifeStatus s
  | .fifeGet index sub => Sys2Proof.Machine.execFifeGet index sub s
  | .fifeSet index sub data => Sys2Proof.Machine.execFifeSet index sub data s
  | .fifeLovage n => Sys2Proof.Machine.execFifeLovage n s
  | .fifeUnlock group => Sys2Proof.Machine.execFifeUnlock group s
  | .fifeLock group => Sys2Proof.Machine.execFifeLock group s
  | .fifeReset => Sys2Proof.Machine.execFifeReset s
  | .jtagTestInstruction => Sys2Proof.Machine.execJtagTestInstruction s
  | .jtagTestRelease => Sys2Proof.Machine.execJtagTestRelease s
  | .claimClrSample low1 low2 => Sys2Proof.Machine.execClaimClrSample low1 low2 s
  | .perstAssert port => Sys2Proof.Machine.execPerstAssert port s
  | .perstRelease up => Sys2Proof.Machine.execPerstRelease up s
  | .powerOn bad => Sys2Proof.Machine.execPowerOn bad s
  | .inputPowerLoss => Sys2Proof.Machine.execInputPowerLoss s
  | .memoryTestDone => Sys2Proof.Machine.execMemoryTestDone s
  | .withdrawnBlockFillDone block => Sys2Proof.Machine.execWithdrawnBlockFillDone block s
  | .cxlPortReset up => Sys2Proof.Machine.execCxlPortReset up s
  | .pcErrCauseWrite part value => Sys2Proof.Machine.execPcErrCauseWrite part value s
  | .queueRegisterWrite part q reg value => Sys2Proof.Machine.execQueueRegisterWrite part q reg value s

end Sys2Proof.Machine
end

