-- ==== Sys2Proof/WellFormed.lean ====
section
/-!
DEFINITION. Which terms of Instr spell a command that the outside world can send: every operand within the width the
spec gives it. The meanings are total and do not rest on it: an operand out of range names nothing, and the command
then changes nothing or is answered with the spec's status.
-/
namespace Sys2Proof

/-! ## Numbers -/

/-- A number of at most `n` bits. -/
def isWord (n x : Nat) : Bool := x >>> n == 0
def isFlag (x : Nat) : Bool := isWord 1 x
def isNibble (x : Nat) : Bool := isWord 4 x
def isByte (x : Nat) : Bool := isWord 8 x
def isIndex (x : Nat) : Bool := isWord 16 x
def isWord32 (x : Nat) : Bool := isWord 32 x
def isWord64 (x : Nat) : Bool := isWord 64 x
/-- A two-bit field: SIZE, OPD, COND, OP, an accumulator (Tables 9-4 to 9-6), a traffic class (R306). -/
def isSize (x : Nat) : Bool := isWord 2 x
def isClass (x : Nat) : Bool := isWord 2 x
/-- A predicate number, and the other three-bit fields of a word (Table 9-4). -/
def isPred (x : Nat) : Bool := isWord 3 x
/-- A scalar or vector register number (R203, R204). -/
def isReg (x : Nat) : Bool := isWord 5 x
/-- DISP of format M (Table 9-4). -/
def isDisp (x : Nat) : Bool := isWord 18 x
/-- A pool physical address (R33), a DPA, a set-relative offset. -/
def isAddress (x : Nat) : Bool := isWord 41 x
/-- The number of a 64-byte line of the pool space. -/
def isLine (x : Nat) : Bool := isWord 34 x
/-- A row of a bank (R456). -/
def isRow (x : Nat) : Bool := isWord 18 x
/-- A request's TAG (R321). -/
def isTag12 (x : Nat) : Bool := isWord 12 x

/-! ## Units of the module (Table 1-1) -/

def isTile (x : Nat) : Bool := decide (x < 64)
def isPhysTile (x : Nat) : Bool := decide (x < 68)
def isPart (x : Nat) : Bool := decide (x < 64)
/-- A partition's window: of a partition, or from 64 on of an LD (R118). -/
def isWindow (x : Nat) : Bool := decide (x < 128)
def isHost (x : Nat) : Bool := decide (x < 32)
def isQueue (x : Nat) : Bool := decide (x < 1024)
def isContext (x : Nat) : Bool := decide (x < 1024)
def isRegion (x : Nat) : Bool := isIndex x
def isBlock (x : Nat) : Bool := decide (x < 3584)
def isBank (x : Nat) : Bool := decide (x < 16)
def isSet (x : Nat) : Bool := decide (x < 8)
def isChannel (x : Nat) : Bool := decide (x < 128)
def isPhysChannel (x : Nat) : Bool := decide (x < 136)
def isCxlPort (x : Nat) : Bool := decide (x < 4)
def isLd (x : Nat) : Bool := decide (x < 16)
/-- An LD by 16 * port + LD, or the fabric manager's LD of a port by 64 + port. -/
def isLdKey (x : Nat) : Bool := decide (x < 68)
/-- A Narlin port (R257). -/
def isNlPort (x : Nat) : Bool := decide (x < 14)
/-- A port with lanes: 0-13 Narlin, 14 the mirror port (R283). -/
def isLanePort (x : Nat) : Bool := decide (x < 15)
/-- A physical lane of a port and direction (R256). -/
def isLane (x : Nat) : Bool := decide (x < 9)
/-- A preset that a receiver asks for (Table 12-3), or none. -/
def optPreset : Option Nat → Bool
  | some p => decide (p < 8)
  | none => true
/-- The points of an eye, and mismatches in 2^20 UI (R278). -/
def isEye (e : Eye) : Bool := e.all (fun x => decide (x.1 < 4032) && decide (x.2 ≤ 2 ^ 20))
/-- The eyes of the lanes of a port: one of an NRZ lane, three of a PAM4 lane (R278). -/
def areEyes (xs : List (List Eye)) : Bool :=
  decide (xs.length ≤ 9) && xs.all (fun l => decide (l.length ≤ 3) && l.all isEye)
/-- What is decided on at most nine traces in a flit time: 256 symbols at N1, 128 above (R261). -/
def isDecided (rx : Decided) : Bool :=
  decide (rx.length ≤ 9) && rx.all (fun l => decide (l.length ≤ 256) && l.all (fun v => decide (v < 4)))
/-- A scheduled port: Narlin 0-13, CXL 16-19, memory groups 32-63 (Table 15-2). -/
def isSchedPort (x : Nat) : Bool :=
  decide (x < 14) || (decide (16 ≤ x) && decide (x < 20)) || (decide (32 ≤ x) && decide (x < 64))
/-- A subscriber: 64 partitions and the module's own (R334). -/
def isSubscriber (x : Nat) : Bool := decide (x < 65)
/-- A service, or 4 for the subscriber node itself. -/
def isService (x : Nat) : Bool := decide (x < 5)
/-- The module's own role or its buddy's (R390). -/
def isRoleId (x : Nat) : Bool := x == 1 || x == 2
/-- A reference clock: 25, 100 or 156 (R407). -/
def isRef (x : Nat) : Bool := x == 25 || x == 100 || x == 156

/-! ## Byte strings and composed operands -/

def isBytes (n : Nat) (b : Bytes) : Bool := b.length == n
def optBytes (n : Nat) : Option Bytes → Bool
  | none => true
  | some b => isBytes n b
def optTile : Option Nat → Bool
  | none => true
  | some t => isTile t
def optPart : Option Nat → Bool
  | none => true
  | some p => isPart p
/-- A cell (R311, R394, R428). -/
def isCell (b : Bytes) : Bool := isBytes 32 b
/-- The value of an object: at most 1,024 bytes (R10). -/
def isObjData (b : Bytes) : Bool := decide (b.length ≤ 1024)
/-- The bytes of one IMAGE_DATA message (R416). -/
def isChunk (b : Bytes) : Bool := decide (b.length ≤ 1024)
/-- A pattern of bit errors over the stored bytes of a line; none when empty. -/
def isFlip (b : Bytes) : Bool := decide (b.length ≤ 68)
/-- The 16 addends of a reduction packet (R190). -/
def isAddends (a : List (BitVec 32)) : Bool := a.length == 16

def packetWf (p : Packet) : Bool :=
  isWord 128 p.hdr && p.sectors.all (isBytes 32) && (p.auth.isEmpty || isBytes 16 p.auth) &&
  (match p.ext with | some (m, w) => isWord 64 m && isSize w | none => true)
def unitWf : NlUnit → Bool
  | .pkt p => packetWf p
  | .cell b => isCell b
def memOpWf : MemOp → Bool
  | .read pa len => isAddress pa && isWord32 len
  | .readSpan pa smap => isAddress pa && isByte smap
  | .write pa _ => isAddress pa
  | .reduce pa addends _ _ => isAddress pa && isAddends addends
  | .reduceSpan pa _ _ => isAddress pa
  | .atomic _ pa size _ _ => isAddress pa && (size == 4 || size == 8)
  | .hostRead h _ pa => isHost h && isAddress pa
  | .hostWrite h _ pa data => isHost h && isAddress pa && data.length == 64
  | .recall pa hosts => isAddress pa && hosts.all isHost
  | .tileGet tile _ pa => isTile tile && isAddress pa
  | .tilePut tile pa _ => isTile tile && isAddress pa
def syncSourceWf : SyncSource → Bool
  | .cell b => isCell b
  | .job _ => true
def roleWf : Role → Bool
  | .pd p => isPart p
  | .fm => true
  | .mon => true
  | .any => true

/-! ## Commands -/

/-- A well-formed command. -/
def wellFormed : Instr → Bool
  | .counterClear part index sub value => isPart part && isIndex index && isByte sub && isWord64 value
  | .poweredTimeTick | .serviceMinuteCommit | .rwsCounterCommit | .stackEvacuationComplete
  | .salvageEnd | .tileDomainReady | .attestationReportReady | .blobChunkDone | .moduleResetOrderly | .phaseFailure
  | .uvWarning | .uvQualificationExpiry | .ovQualificationExpiry | .pfailRelease | .powerTransitionEnd
  | .imageRequestTimer | .imageVerify | .eventResendTimer | .fifeStatus | .fifeReset | .jtagTestInstruction
  | .jtagTestRelease | .inputPowerLoss | .memoryTestDone => true
  | .ringEntryReservation ring stop dir free => (Machine.stopUnit? ring stop).isSome && decide (dir < 2) && decide (free ≤ 4)
  | .tileClockLockLoss ptile | .tileHeartbeat ptile | .tileHeartbeatTimeout ptile => isPhysTile ptile
  | .cxlMemReadShared port ld dpa tag | .cxlMemReadExclusive port ld dpa tag =>
      isCxlPort port && isLd ld && isAddress dpa && isIndex tag
  | .cxlMemWrite port ld dpa tag _ _ data =>
      isCxlPort port && isLd ld && isAddress dpa && isIndex tag && isBytes 64 data
  | .hdmDecoderCommit port ld dec _ => isCxlPort port && isLd ld && isPred dec
  | .bisnpResponse host line _ data => isHost host && isLine line && optBytes 64 data
  | .biconflict host line | .biTimeout host line => isHost host && isLine line
  | .hostDeclareDead host | .deadHostSweepEnd host => isHost host
  | .hostTableWrite host value => isHost host && isWord64 value
  | .create cmd | .mapRegion cmd | .unmap cmd | .addDraft cmd | .releaseRegion cmd | .query cmd => isBytes 32 cmd
  | .regionZeroFillDone region | .regionRecallDone region | .regionSanitiseDone region | .draftCopyDone region =>
      isRegion region
  | .dcAddCapacity port ld tag dpa pa len =>
      isCxlPort port && isLd ld && isBytes 16 tag && isAddress dpa && isAddress pa && isAddress len
  | .dcExtentAccept port ld dpa | .dcExtentRelease port ld dpa => isCxlPort port && isLd ld && isAddress dpa
  | .publish port ld region expect token =>
      isCxlPort port && isLd ld && isIndex region && isWord32 expect && isWord32 token
  | .rebase port ld region token => isCxlPort port && isLd ld && isIndex region && isWord32 token
  | .pubCtrlRsvdOp port ld token => isCxlPort port && isLd ld && isWord32 token
  | .dqsDriftAdjust chan _ _ _ _ => isChannel chan
  | .refreshDue set _ => isSet set
  | .owedRefreshIssue set => isSet set
  | .memoryChannelAccept _ _ op flip => memOpWf op && isFlip flip
  | .patrolScrubRead line flip => isLine line && isFlip flip
  | .writeRaw cmd | .readRaw cmd | .readDecode cmd => isBytes 80 cmd
  | .blockMarkInit block | .blockInitQuery block | .withdrawnBlockFillDone block => isBlock block
  | .rowRemapComplete pchan bank row => isPhysChannel pchan && isNibble bank && isRow row
  | .spareStackCmd stack => isByte stack
  | .stackStopsAnswering ptr => isAddress ptr
  | .tileOwnerWrite tile part => isTile tile && isByte part
  | .tileClearDone tile | .spareTileCmd tile => isTile tile
  | .queueAssign value | .divergenceResolve value => isWord32 value
  | .partLdWrite part value | .partKeysWrite part value => isPart part && isWord32 value
  | .pcErrCauseWrite part value => isWindow part && isWord32 value
  | .qCfgWrite part q value => isWindow part && isQueue q && isWord32 value
  | .doorbell part q tail => isWindow part && isQueue q && isIndex tail
  | .qCompHeadWrite part q chead => isWindow part && isQueue q && isIndex chead
  | .msixUnmask part vector => isWindow part && isByte vector
  | .descriptorSeal queue => isQueue queue
  | .jobDispatch _ tile => isTile tile
  | .jobRetire _ | .jobBudgetExpiry _ | .nop _ | .ctxOpen _ | .ctxClose _ | .kvSummarise _ | .attendDense _
  | .attendBound _ | .attendTopk _ | .optStepSgd _ | .optStepAdamw _ | .optStepEmitOnly _ | .gradAccum _
  | .scatterAdd _ | .embGather _ | .expertStream _ | .copy _ | .fill _ | .compare _ | .progLoad _ | .progRun _
  | .escWaitExpiry _ | .inputSample _ | .inputQualified _ | .tileFirmwareDelivery _ | .fifeLovage _ | .powerOn _ =>
      true
  | .ptRootWrite part value | .syncRangeWrite part value => isPart part && isWord64 value
  | .drainInvalidate part base length ctrl => isWindow part && isWord64 base && isWord64 length && isWord64 ctrl
  | .ctxCloseComplete part ctx => isPart part && isContext ctx
  | .reductionPacket tile line addends _ _ tag => isTile tile && isLine line && isAddends addends && isIndex tag
  | .expertGroupClose group | .fifeUnlock group | .fifeLock group => isByte group
  | .nopInstruction tile _ pg | .sfence tile _ pg => isTile tile && isPred pg
  | .halt tile _ pg ra rb _ => isTile tile && isPred pg && isReg ra && isReg rb
  | .br tile _ pg pt cond off => isTile tile && isPred pg && isPred pt && isSize cond && isWord32 off
  | .add tile _ pg rd ra rb | .sub tile _ pg rd ra rb | .mul tile _ pg rd ra rb | .andOp tile _ pg rd ra rb
  | .orOp tile _ pg rd ra rb | .xor tile _ pg rd ra rb | .shl tile _ pg rd ra rb | .shr tile _ pg rd ra rb
  | .sar tile _ pg rd ra rb | .vadd tile _ pg rd ra rb | .vsub tile _ pg rd ra rb | .vmul tile _ pg rd ra rb
  | .vdiv tile _ pg rd ra rb | .vmax tile _ pg rd ra rb | .vmin tile _ pg rd ra rb =>
      isTile tile && isPred pg && isReg rd && isReg ra && isReg rb
  | .addi tile _ pg rd ra imm => isTile tile && isPred pg && isReg rd && isReg ra && isWord32 imm
  | .li tile _ pg rd imm | .lih tile _ pg rd imm | .viota tile _ pg rd imm =>
      isTile tile && isPred pg && isReg rd && isWord32 imm
  | .scmp tile _ pg rd ra rb cmp | .vcmp tile _ pg rd ra rb cmp =>
      isTile tile && isPred pg && isPred rd && isReg ra && isReg rb && isPred cmp
  | .lds tile _ pg rd ra opd size => isTile tile && isPred pg && isReg rd && isReg ra && isSize opd && isSize size
  | .sts tile _ pg ra rb opd size => isTile tile && isPred pg && isReg ra && isReg rb && isSize opd && isSize size
  | .ldx tile _ pg rd ra size => isTile tile && isPred pg && isReg rd && isReg ra && isSize size
  | .stx tile _ pg ra rb size => isTile tile && isPred pg && isReg ra && isReg rb && isSize size
  | .sld tile _ pg sid opd ra rb rc pm =>
      isTile tile && isPred pg && isNibble sid && isSize opd && isReg ra && isReg rb && isReg rc && isPred pm
  | .sst tile _ pg sid opd ra rb rc pm red =>
      isTile tile && isPred pg && isNibble sid && isSize opd && isReg ra && isReg rb && isReg rc && isPred pm && isFlag red
  | .swait tile _ pg imm => isTile tile && isPred pg && isIndex imm
  | .streamEnd tile sid => isTile tile && isNibble sid
  | .vfma tile _ pg rd ra rb rc => isTile tile && isPred pg && isReg rd && isReg ra && isReg rb && isReg rc
  | .vsqrt tile _ pg rd ra | .vexp2 tile _ pg rd ra | .vbcast tile _ pg rd ra =>
      isTile tile && isPred pg && isReg rd && isReg ra
  | .vsel tile _ pg rd ra rb rc => isTile tile && isPred pg && isReg rd && isReg ra && isReg rb && isPred rc
  | .vred tile _ pg rd ra op => isTile tile && isPred pg && isReg rd && isReg ra && isSize op
  | .vld tile _ pg rd ra rb fmt disp | .vst tile _ pg rd ra rb fmt disp =>
      isTile tile && isPred pg && isReg rd && isReg ra && isReg rb && isNibble fmt && isDisp disp
  | .mzero tile _ pg rd => isTile tile && isPred pg && isSize rd
  | .mma tile _ pg rd ra rb rc fmt fmtB =>
      isTile tile && isPred pg && isSize rd && isReg ra && isReg rb && isReg rc && isNibble fmt && isNibble fmtB
  | .mrd tile _ pg rd ra imm | .mwr tile _ pg rd ra imm =>
      isTile tile && isPred pg && isReg rd && isSize ra && isPred imm
  | .pand tile _ pg rd ra rb | .por tile _ pg rd ra rb | .pxor tile _ pg rd ra rb =>
      isTile tile && isPred pg && isPred rd && isPred ra && isPred rb
  | .pnot tile _ pg rd ra => isTile tile && isPred pg && isPred rd && isPred ra
  | .psetn tile _ pg rd ra | .pfroms tile _ pg rd ra => isTile tile && isPred pg && isPred rd && isReg ra
  | .ptos tile _ pg rd ra => isTile tile && isPred pg && isReg rd && isPred ra
  | .gets tile line | .getm tile line | .upg tile line | .pute tile line | .gack tile line | .ackUpg tile line =>
      isTile tile && isLine line
  | .putm tile line data _ => isTile tile && isLine line && isBytes 64 data
  | .snpDone line bridge hitM _ _ _ => isLine line && isPred bridge && isByte hitM
  | .snpS tile line requester | .snpI tile line requester => isTile tile && isLine line && optTile requester
  | .dataS tile line _ data => isTile tile && isLine line && isBytes 64 data
  | .dataM tile line data => isTile tile && isLine line && isBytes 64 data
  | .ackPut tile line _ | .errData tile line _ => isTile tile && isLine line
  | .snoopTimeout line | .gackTimeout line => isLine line
  | .piccoloBankEnqueue src => syncSourceWf src
  | .piccoloInit bank | .piccoloRead bank | .semWait bank | .semPost bank | .mutexLock bank | .mutexUnlock bank
  | .mutexBreak bank | .barArrive bank | .eventSet bank | .eventClear bank | .eventWait bank | .cancel bank =>
      isBank bank
  | .forwardedClockLock port | .forwardedClockLoss port | .rateSwitch port | .bringupPhaseTimeout port
  | .nlRetrainCmd port | .loopReq port => isLanePort port
  | .ts1 port trace _ block | .ts2 port trace block | .stepBlock port trace block =>
      isLanePort port && isLane trace && isBytes 16 block
  | .eqBlock port trace _ ask block =>
      isLanePort port && isLane trace && optPreset ask.preset && isBytes 16 block
  | .qualificationEnd port _ eyes => isLanePort port && areEyes eyes
  | .backgroundEyeScan port line phase => isLanePort port && areEyes line && areEyes phase
  | .nlPortEnableWrite port value => isLanePort port && isByte value
  | .spareReq port lane | .spareDone port lane | .spareAbort port lane | .spareCompareEnd port lane => isLanePort port && isLane lane
  | .loopbackEnd port rx => isLanePort port && isDecided rx
  | .nlEyeScanCmd cmd => isBytes 4 cmd
  | .eyeScanCommandEnd edges points => isEye edges && isEye points
  | .loopbackNearParallel port rate pattern p32 | .loopbackNearSerial port rate pattern p32
  | .loopbackFarEnd port rate pattern p32 => isLanePort port && isByte rate && isByte pattern && isWord32 p32
  | .flitTransmit port pick => isLanePort port && isClass pick
  | .flitReceive port full rx => isLanePort port && isByte full && isDecided rx
  | .replayTimerExpiry port | .linkInitTimeout port | .flitLockLoss port | .retrainReq port => isNlPort port
  | .read port packet | .readWord port packet | .write port packet | .writeBe port packet | .writePosted port packet
  | .atomicAdd port packet | .atomicFadd port packet | .atomicSwap port packet | .atomicCas port packet
  | .atomicUmin port packet | .atomicUmax port packet | .atomicSmin port packet | .atomicSmax port packet
  | .atomicAnd port packet | .atomicOr port packet | .atomicXor port packet | .reduceFadd port packet
  | .seqAck port packet | .mcAck port packet | .mcSkip port packet | .readResp port packet | .comp port packet
  | .atomicResp port packet => isNlPort port && packetWf packet
  | .transitForward port nlUnit => isNlPort port && unitWf nlUnit
  | .seqAckTimer _ source tc | .reorderTimeout _ source tc => isByte source && isClass tc
  | .mcAckTimer source tc => isByte source && isClass tc
  | .requestTimeout dst tag => isByte dst && isTag12 tag
  | .routeEntryWrite endpoint value => isByte endpoint && isWord64 value
  | .nfOwnEndpointWrite value | .roleSwapCmd value | .fwRollbackCommit value => isByte value
  | .sendingOpportunity port => isSchedPort port
  | .shapingCreditAccrual port sub svc => isSchedPort port && isSubscriber sub && isService svc
  | .schSubMinWrite sub value => isSubscriber sub && isIndex value
  | .partCmdCreate cmd | .partCmdStart cmd | .partCmdHold cmd | .partCmdDestroy cmd | .partCmdReset cmd =>
      isBytes 16 cmd
  | .partSelfReset part value => isPart part && isByte value
  | .fenceDrainEnd part | .fenceDrainBudgetExpiry part | .fenceConfirm part | .sanitisingFillDone part => isPart part
  | .partBlocksWrite part value => isPart part && isWord (896 * 8) value
  | .blockWithdrawalDrainEnd part block => isPart part && isBlock block
  | .epPartitionWrite value => isWord (256 * 8) value
  | .install driver cmd | .roll driver cmd | .revoke driver cmd => optPart driver && isBytes 176 cmd
  | .keyRollExpiry slot => isByte slot
  | .attestationRequest driver req => optPart driver && isBytes 36 req
  | .blobUnwrapCmd driver cmd => optPart driver && isBytes 32 cmd
  | .portStarvation port tc => isNlPort port && isClass tc
  | .cxlPortStarvation port | .perstAssert port => isCxlPort port
  | .perstRelease up | .cxlPortReset up => isCxlPort up.port && (up.lanes == 16 || up.lanes == 8 || up.lanes == 4)
  | .moduleResetImmediate cause => isByte cause
  | .leaseRenewTimer role | .leaseExpiry role | .leaseDemotion role | .resyncCopyEnd role => isRoleId role
  | .leaseGrant role _ _ => isRoleId role
  | .commitCycle role _ | .simplex role _ | .duplex role _ => isRoleId role
  | .lineHead rx | .lineData rx | .tagOnly rx | .metaCell rx | .commitCell rx | .resyncHead rx
  | .roleReady rx | .roleSynced rx | .roleHandover rx | .roleRelease rx => isDecided rx
  | .mgmtCellRead cell | .mgmtCellWrite cell => isCell cell
  | .thermalSample _ stack => isByte stack
  | .referenceLoss ref | .referenceRestored ref => isRef ref
  | .powerStateM0 via cmd | .powerStateM1 via cmd | .powerStateM2 via cmd | .powerStateM3 via cmd =>
      optPart via && isBytes 24 cmd
  | .imageData _ data => isChunk data
  | .imageWrite ld input => isLdKey ld && isObjData input
  | .tileWave present passed => isWord 16 present && isWord 16 passed
  | .dramTrainingDone _ _ | .topologyCheck _ _ | .claimClrSample _ _ => true
  | .topoAccept mask => isIndex mask
  | .expectedTopologyWrite value => isWord (120 * 8) value
  | .wopRead ctr index sub part tag => isWord64 ctr && isIndex index && isByte sub && isByte part && optBytes 16 tag
  | .wopWrite ctr index sub part data tag =>
      isWord64 ctr && isIndex index && isByte sub && isByte part && isObjData data && optBytes 16 tag
  | .eventAck ctr => isWord64 ctr
  | .fmKeyCmd role cmd => roleWf role && isBytes 176 cmd
  | .objRead ld index sub part => isLdKey ld && isIndex index && isByte sub && isByte part
  | .objWrite ld index sub part data => isLdKey ld && isIndex index && isByte sub && isByte part && isObjData data
  | .objWindowRead ld token addr len data | .objWindowWrite ld token addr len data =>
      isLdKey ld && isWord32 token && isWord32 addr && isIndex len && isObjData data
  | .objectWrite role index sub part data =>
      roleWf role && isIndex index && isByte sub && isByte part && isObjData data
  | .expertUnlock role group | .expertLock role group => roleWf role && isByte group
  | .expertUnlockLapse _ group => isByte group
  | .lovageRead role _ _ => roleWf role
  | .lovageReadCopies role _ => roleWf role
  | .lovageFreeze role | .lovageUnfreeze role | .lovageClear role => roleWf role
  | .fifeGet index sub => isIndex index && isByte sub
  | .fifeSet index sub data => isIndex index && isByte sub && isObjData data
  | .queueRegisterWrite part q reg value => isWindow part && isQueue q && isSize reg && isWord64 value

end Sys2Proof
end

