-- ==== Sys2Proof/Safety.lean ====
section
/-!
DEFINITION. What claims speak of: that a command completes, the forms that every step keeps, the parts of the state a
command leaves alone, and what an outside reader sees of a stored line.
-/
namespace Sys2Proof.Safety
open Sys2Proof.Machine

/-- The command answers a next state: no fault and no refusal. -/
def Completes (c : Instr) (s : State) : Prop := ∃ t, exec c s = .next t

/-- Stored memory in its canonical form: keys strictly rising, no entry equal to what an unlisted byte reads as. -/
def memoryWf (s : State) : Bool :=
  smRisingFrom 0 s.dram.cells && s.dram.cells.all (fun c => c.2 != cellDefault s.dram.lost c.1)

/-- What the management island keeps within bounds: powered time in 64 bits (R18), the part-hour below 60 minutes (R20),
at most 256 events waiting and 8 unacknowledged (R426), at most 16 kept responses (R425), and the black box within its
ring (R432). -/
def managementBounded (s : State) : Bool :=
  decide (s.ptime < 2 ^ 64) && decide (s.mram.minutes < 60) && decide (s.mgmt.events.length ≤ 256) &&
  decide (s.mgmt.unacked.length ≤ 8) && decide (s.mgmt.responses.length ≤ 16) &&
  decide (s.lovage.next < lovageRing) && decide (s.lovage.seq < 2 ^ 32) && decide (s.lovage.count ≤ lovageRing)

/-- The invariant of every step: the management island within its bounds, and stored bytes at strictly rising keys, so
that no address has two values. -/
def stateInv (s : State) : Bool := managementBounded s && smRisingFrom 0 s.dram.cells

/-! ## A tile that runs a program (spec/09) -/

/-- Tile `t` runs the program of the PROG_RUN job `j`: the job is dispatched to it, its partition is under no fence, the
tile domain is not in failure, the program has not ended and no answer has brought it an error. -/
def RunsProgram (s : State) (t j : Nat) (x : JobSt) : Prop :=
  (getTile s t).job = some j ∧ (getTile s t).ending = none ∧ getJob? s j = some x ∧ x.phase = .running ∧
  dOpc x.desc = 0x51 ∧ x.tile = t ∧ fencing s x.part = false ∧ s.coh.failure = none ∧ smFind? 1 x.remoteErr = none

/-- Tile `t` runs a program and the instruction word at its PC is `w`, with another instruction slot after it. -/
def Executes (s : State) (t j : Nat) (x : JobSt) (w : Nat) : Prop :=
  RunsProgram s t j x ∧ (smGet 0 (getTile s t).pc (getTile s t).prog).toNat = w ∧ (getTile s t).pc + 1 < 8192

/-- The guard lanes of an instruction: bit i of PG exclusive-or PN (R204). -/
def guardBitsOf (s : State) (t : Nat) (pn : Bool) (pg : Nat) : BitVec 64 :=
  if pn then ~~~(pReg (getTile s t) pg) else pReg (getTile s t) pg

/-- The state after an instruction of tile `t`: PC at the next word and, when some guard lane is 1, the tile changed by
`f`; nothing else of the module changes. -/
def issued (t : Nat) (pn : Bool) (pg : Nat) (f : TileSt → TileSt) (s : State) : State :=
  updTile t (fun y => { (if guardBitsOf s t pn pg = 0 then y else f y) with pc := y.pc + 1 }) s

/-- The state after an instruction of tile `t` that applies the guard lane by lane. -/
def issuedLanes (t : Nat) (f : TileSt → TileSt) (s : State) : State :=
  updTile t (fun y => { f y with pc := y.pc + 1 }) s

/-- A vector register written in the lanes whose guard is 1, the other lanes kept (R204). -/
def putLanes (g : BitVec 64) (r : Nat) (v : Nat → BitVec 32) (y : TileSt) : TileSt :=
  setV r ((List.range 64).map (fun i => if g.getLsbD i then v i else (vReg y r).getD i 0)) y

/-- A predicate register written in the lanes whose guard is 1, the other lanes kept (R204). -/
def putPred (g : BitVec 64) (r : Nat) (v : BitVec 64) (y : TileSt) : TileSt :=
  setP r ((v &&& g) ||| (pReg y r &&& ~~~g)) y

/-- Job `j` of operation `opc` runs now: it has been dispatched and has not ended, its partition is under no fence, and
the tile domain is not in failure unless the job needs no tile. -/
def JobRuns (s : State) (j opc : Nat) (x : JobSt) : Prop :=
  getJob? s j = some x ∧ x.phase = .running ∧ dOpc x.desc = opc ∧ fencing s x.part = false ∧
  (x.tile = 0xFF ∨ s.coh.failure = none)

/-- Job `j` has ended with this status, DETAIL and RESULT. -/
def JobEnded (s : State) (j : Nat) (st : Status) (det res : Nat) : Prop :=
  ∃ x, getJob? s j = some x ∧ x.phase = .ended ∧ x.status = st ∧ x.detail = det ∧ x.result = res

/-- The stored bytes and what stands for lost ones are the same: every byte of the pool reads as before. -/
def sameMemory (s t : State) : Prop := t.dram.cells = s.dram.cells ∧ t.dram.lost = s.dram.lost

/-- Nothing a job sent is unanswered, and no answer brought an error. -/
def Answered (x : JobSt) : Prop := jobOut x 0 = 0 ∧ jobOut x 1 = 0 ∧ x.remoteErr = []

/-- ATTEND job `j` has one page left, `p` of the third group of its last head (R170, R176). -/
def AttendsLast (s : State) (j : Nat) (x : JobSt) (a : AttSt) (p : Nat) : Prop :=
  JobRuns s j 0x10 x ∧ Answered x ∧ x.att = some a ∧ a.begun = true ∧ a.first = [] ∧ a.score = [] ∧ a.rest = [p] ∧
  atHkvCount x = a.head + 1

/-- Once the last head stands at `b` in state `s1`, the command writes that head's output records and ends the job: OK,
the pages read in RESULT, those skipped and those read without a summary in DETAIL (R175, R176). -/
def HeadEnds (c : Instr) (s s1 : State) (j : Nat) (x : JobSt) (b : AttSt) : Prop :=
  let d := { b with rest := [] }
  let n := hdG b.hdr
  getJob? s1 j = some x → tileShared s1 j = false → ∀ e s2,
  opWrite j 1 (opd x 4) (b.head * n * (4 * hdDim b.hdr + 64)) 2 ((List.range n).map (outRecord b)).flatten 0 (setAtt j d s1) = (.ok e, s2) →
  getJob? s2 j = some { x with att := some d } → ∃ u, exec c s = .next u ∧
    JobEnded u j .ok (b.unsummarised % 2 ^ 30 * 2 ^ 32 + b.skippedAll % 2 ^ 32) (b.readAll % 2 ^ 32) ∧ u.dram = s2.dram

/-! ## Accesses to the pool (spec/03, spec/04, spec/10) -/

/-- No access waits, no recall runs, no Published region has an operation under way, and no home has met a cause of a
tile-domain failure. -/
def poolQuiet (s : State) : Prop :=
  s.hosts.waiting = [] ∧ s.hosts.recalls = [] ∧ s.coh.alarm = none ∧ ∀ e ∈ s.hosts.regions, e.2.ops = []

/-- No line of the pool is stored, here or in the copy for the buddy, and none was lost: every line reads as clean zeros. -/
def nothingStored (s : State) : Prop := s.dram.cells = [] ∧ s.dram.lost = [] ∧ s.buddy.mirror.copy = []

/-- A line that nobody holds or waits for: no snoop or transaction on it, no tile or host tracked for it, its stored
codeword clean with POISON 0 and HSTATE 0, on a stack in service that is not being evacuated. -/
def lineFree (s : State) (line : Nat) : Prop :=
  lineBusy s line = false ∧ smFind? line s.coh.filter = none ∧ rsDecode (receivedLine s line) = .clean ∧
  lineTag s line = 0 ∧ s.hosts.answered.contains line = false ∧ lineDuplex s line = false ∧ s.dram.evac = none ∧
  s.mram.deadStacks.contains (physStack s (lstackOf (line * 64))) = false

/-- What waits in a leaf of the scheduler. -/
def leafOf (s : State) (port sub svc : Nat) : List SchedItem :=
  (smGet svc0 svc (smGet sub0 sub (getSched s port).subs).svcs).leaf

/-- The 64 data bytes of a line as it is stored. -/
def lineData (s : State) (line : Nat) : Bytes :=
  (storedLine s (physStack s (lstackOf (line * 64))) line).take 64

/-- The stored bytes of a line after a write of data and tag, and every other stored byte as before. -/
def lineWritten (s u : State) (line : Nat) (data : Bytes) (tag : Nat) : Prop :=
  let ps := physStack s (lstackOf (line * 64))
  storedLine u ps line = encodeLine data tag ∧
  ∀ k, ¬ (cellKey ps line 0 ≤ k ∧ k < cellKey ps line 68) → cell u k = cell s k

/-! ## Piccolo (spec/11) -/

/-- Bank `b` serves request `q` of an object of partition `p` next: it heads the bank's queue with `rest` behind it, no
response waits at Piccolo's stop, the requester is not fenced and has its grant, and the partition is under no fence
(R244, R250). -/
def BankServes (s : State) (b p : Nat) (q : SyncReq) (rest : List SyncReq) : Prop :=
  bankQueue s b = q :: rest ∧ s.sync.held = [] ∧ syncPart? s q.obj = some p ∧ partState s p ≠ 3 ∧
  (q.job = none → routeFenced (routeOf s q.rid) = false ∧ bitOf (obj s 0x2701 (p + 1)) q.rid = true)

/-- State `u` is `v` with response `r` sent, but for objects and wait lists. -/
def Responded (v u : State) (r : SyncResp) : Prop :=
  u = { syncSend r v with sync := { (syncSend r v).sync with objs := u.sync.objs, waits := u.sync.waits } }

/-- The command leaves an object with this content and wait list, and no other object, no other queue entry of the bank
and no memory changed. -/
def ObjectBecomes (c : Instr) (s : State) (b n : Nat) (rest : List SyncReq) (o : SyncObj) (ws : List SyncReq) (u : State) : Prop :=
  exec c s = .next u ∧ syncObj u n = o ∧ syncWaits u n = ws ∧ bankQueue u b = rest ∧ u.dram = s.dram ∧
  ∀ m, m ≠ n → syncObj u m = syncObj s m ∧ syncWaits u m = syncWaits s m

/-- The same, and the request is answered with `r`. -/
def Served (c : Instr) (s : State) (b n : Nat) (rest : List SyncReq) (o : SyncObj) (ws : List SyncReq) (r : SyncResp) : Prop :=
  ∃ u v, ObjectBecomes c s b n rest o ws u ∧ Responded v u r

/-- The request is refused with a status and RETRY, its object as before. -/
def Declined (c : Instr) (s : State) (b : Nat) (q : SyncReq) (rest : List SyncReq) (st : Status) (retry : Nat) : Prop :=
  ∃ value, Served c s b q.obj rest (syncObj s q.obj) (syncWaits s q.obj)
    { syncResp q st (syncObj s q.obj).type value with retry := retry }

/-- May one more request wait for an object of the partition (R252)? -/
def waitRoom (s : State) (p : Nat) : Prop := waitsOf s p < obj s 0x4701 (p + 1) ∧ waitsAll s < 32768

/-! ## The fabric (spec/14) -/

/-- The COUNT of the next packet of a unicast packet's stream (R318, R362). -/
def nextCount (s : State) (p : Packet) : Nat :=
  let r := getRecv s false (recvKey false (pkSrc p) (pkTc p))
  r.wraps * 65536 + r.exp

/-- A unicast packet for this module arrives on an UP port with the number its stream expects, nothing is held behind it,
and its delivery brings no acknowledgement yet (R318, R319). -/
def InOrder (s : State) (port : Nat) (p : Packet) : Prop :=
  let r := getRecv s false (recvKey false (pkSrc p) (pkTc p))
  linkUp s port = true ∧ pkMc p = false ∧ isLocal s (pkDst p) = true ∧ pkPsn p = r.exp ∧ r.held = [] ∧ r.unacked < 255

/-- The state once a packet in order has been taken from its stream. -/
def taken (p : Packet) (s : State) : State :=
  let k := recvKey false (pkSrc p) (pkTc p)
  let r := getRecv s false k
  setRecv false k { r with
    exp := (r.exp + 1) % 65536, wraps := if r.exp + 1 = 65536 then r.wraps + 1 else r.wraps, unacked := r.unacked + 1 } s

/-- The key partition a request is checked under (Table 16-5). -/
def requestKey (s : State) (p : Packet) : Option Nat :=
  match reqTarget p with | .ok t => keyPartition? s (pkSrc p) t | .error _ => none

/-- A request passes every check of R306 to R364 and is served at once: in clear it is `q`, and it addresses byte `pa` of the
pool, in a line nobody holds. -/
def ServedAt (s : State) (p q : Packet) (pa : Nat) : Prop :=
  checkReq s (epGrants s (pkSrc p)) (nextCount s p) p = .ok (.pool pa, q) ∧
  admitMem s (pa / 64) (epSub s (pkSrc p)) 3 = .served ∧ poolQuiet s ∧ lineFree s (pa / 64)

end Sys2Proof.Safety
end

