-- ==== Sys2Proof/Certificates/Slice0/Obligations.lean ====
section
/-!
DEFINITION. The statements about the module, in the order of the spec's files. Each says that a command answers a next
state and what that state holds; what a statement does not name by a field or an equation it states as unchanged.
-/
section
open Sys2Proof Sys2Proof.Machine Sys2Proof.Safety

/-! ## The block as a whole -/

/-- A step takes the command at the front of the queue and runs it on the queue's rest, and an empty queue idles; no
command stops the module (log entry 1 for the queue and the idling). -/
def Obligations.StepRunsTheFrontCommand : Prop :=
  (∀ (c : Instr) (s : State), step { s with pending := c :: s.pending } = exec c s) ∧
  (∀ (c : Instr) (cs : List Instr) (s : State), s.pending = c :: cs → step s = exec c { s with pending := cs }) ∧
  (∀ s : State, s.pending = [] → step s = .next s) ∧
  (∀ (c : Instr) (s : State), Completes c s)

/-- What power-on leaves (R18, R420, R438, R443; log entry 4): powered time 0, every object at its default, the module
not READY and in bring-up phase 0, its queue and outbox empty, no partition, tile, link or job in use, no byte stored;
the invariant of every step holds. That nothing is stored and reads as 0 is the model's choice (log entry 6). -/
def Obligations.ResetIsThePowerOnState : Prop :=
  State.reset.ptime = 0 ∧ (∀ p i u, pobj State.reset p i u = objDefault i u) ∧ State.reset.ready = false ∧
  State.reset.power.phase = 0 ∧ State.reset.power.powered = true ∧ State.reset.power.mainOn = false ∧
  State.reset.pending = [] ∧ State.reset.outbox = [] ∧ (∀ p, getPart State.reset p = part0) ∧
  (∀ t, getTile State.reset t = tile0) ∧ (∀ p, (getLink State.reset p).state = 0) ∧ (∀ j, getJob? State.reset j = none) ∧
  (∀ k, cell State.reset k = 0) ∧ memoryWf State.reset = true ∧ stateInv State.reset = true

/-- Every step from a state that satisfies the invariant leads to one that does: powered time below 2^64 (R18), the
part-hour below 60 minutes (R20), at most 256 events waiting and 8 unacknowledged (R426), at most 16 kept responses
(R425), the black box within its ring (R432), and stored bytes at strictly rising keys. -/
def Obligations.EveryStepKeepsTheInvariant : Prop :=
  ∀ s t : State, stateInv s = true → step s = .next t → stateInv t = true

/-- Powered time starts at 0 when input power reaches the management island, each management cycle adds 10 ns, and no
command but a loss of input power and the power-on after it sets it back: resets and power states leave it running
(R18). -/
def Obligations.PoweredTimeRunsFromPowerOn : Prop :=
  (∀ (s : State) (bad : List MramUpset), s.power.powered = false →
    ∃ u, exec (.powerOn bad) s = .next u ∧ u.ptime = 0 ∧ u.power.powered = true) ∧
  (∀ s : State, s.power.powered = true → ∃ u, exec .poweredTimeTick s = .next u ∧ u.ptime = (s.ptime + 10) % 2 ^ 64) ∧
  (∀ (c : Instr) (s t : State), exec c s = .next t → c ≠ .poweredTimeTick → (∀ bad, c ≠ .powerOn bad) →
    c ≠ .inputPowerLoss → t.ptime = s.ptime) ∧
  (∀ s : State, s.power.powered = true → ∃ u, exec .inputPowerLoss s = .next u ∧ u.ptime = 0 ∧ u.power.powered = false)

/-- No command touches the queue of waiting commands, none withdraws a message the module has sent, and none gives a free
value a second time (log entries 1 and 11). -/
def Obligations.CommandsKeepTheQueueAndAddMessages : Prop :=
  ∀ (c : Instr) (s t : State), exec c s = .next t →
    t.pending = s.pending ∧ (∃ sent, t.outbox = s.outbox ++ sent) ∧ s.fresh ≤ t.fresh

/-! ## Counters and time (spec/00, spec/20) -/

/-- A class S counter of 64 bits, COUNT[47:0] and SAT[63], under an increment (R15): it counts up to 0xFFFF_FFFF_FFFF,
holds there with SAT set, and raises one saturation event (0x0004, with the counter's index and sub-index) when SAT
becomes 1 and none while it stays 1; a read answers all 64 bits and changes nothing. -/
def Obligations.CountersSaturateWithOneEvent : Prop :=
  ∀ (s : State) (p i u n : Nat),
    let v := pobj s p i u
    let count := v % 2 ^ 48
    let sat := bitOf v 63
    let full := 0xFFFFFFFFFFFF + 2 ^ 63
    (count + n ≤ 0xFFFFFFFFFFFF → v % 2 ^ 63 < 2 ^ 48 → v < 2 ^ 64 → pbump p i u n s = setPobj p i u (v + n) s) ∧
    (0xFFFFFFFFFFFF < count + n → sat = false →
      pbump p i u n s = raiseEvent 0x0004 (leBytes 2 i ++ leBytes 1 u) (setPobj p i u full s)) ∧
    (0xFFFFFFFFFFFF < count + n → sat = true → pbump p i u n s = setPobj p i u full s) ∧
    (0xFFFFFFFFFFFF < count + n → pobj (setPobj p i u full s) p i u = full) ∧
    (∀ q j w, objKey q j w ≠ objKey p i u → ∀ x, pobj (setPobj p i u x s) q j w = pobj s q j w) ∧
    (∀ r, objRow? i u = some r → r.kind = .counter ∨ r.kind = .counterRws →
      (inWindow i = false → objRead .fm i u 0xFF s = (.ok, leBytes 8 (obj s i u))) ∧
      (inWindow i = true → p < geomParts s → p ≠ 0xFF → objRead .fm i u p s = (.ok, leBytes 8 v)) ∧
      ∀ ld t, exec (.objRead ld i u p) s = .next t → t.objs = s.objs)

/-- Class W values are compared modularly (R17): a is later than b exactly when (a - b) mod 2^n lies in 1 to
2^(n-1) - 1. -/
def Obligations.ModularComparisonOfClassWValues : Prop :=
  ∀ (n a b : Nat), 0 < n → a < 2 ^ n → b < 2 ^ n →
    (laterW n a b = true ↔ 1 ≤ ((a : Int) - b) % 2 ^ n ∧ ((a : Int) - b) % 2 ^ n ≤ 2 ^ (n - 1) - 1) ∧
    (((a : Int) - b) % 2 ^ n = 2 ^ (n - 1) → laterW n a b = false) ∧
    ¬ (laterW n a b = true ∧ laterW n b a = true)

/-- The clearing of a counter (R16), the service minute (R20), the commit of RWS counters to both of their MRAM copies
(R431, R438), a tick (R18) and a stop's reservation (R23, R25, R26, R250): none at a stop that Table 1-2 does not list, held
while the next stop has no two free slot buffers, else used up, Piccolo's held response entering with it at Piccolo's stop
(the numbering of stops is the model's, log entry 14): what each changes, and that nothing else changes. -/
def Obligations.CountersAndTimeAdvance : Prop :=
  ∀ s : State,
    (∀ (p i u v : Nat) (r : ObjRow), objRow? i u = some r → r.kind = .counter ∨ r.kind = .counterRws →
      (v = 0 → exec (.counterClear p i u v) s = .next (answerFm i u (.ok, setPobj p i u 0 s)) ∧
        pobj (setPobj p i u 0 s) p i u = 0) ∧
      (v ≠ 0 → exec (.counterClear p i u v) s = .next (send (.cmdAnswer 0x33) s))) ∧
    (s.power.powered = true →
      (s.dram.evac = none → (∀ e ∈ s.work.queues, e.2.held = []) → ∃ u, exec .poweredTimeTick s = .next u ∧ u = { s with
        ptime := (s.ptime + 10) % 2 ^ 64
        dram := { s.dram with rowCe := u.dram.rowCe, chanUe := u.dram.chanUe, refusedRows := u.dram.refusedRows } }) ∧
      (∃ u, exec .serviceMinuteCommit s = .next u ∧
        u = { s with mram := { s.mram with minutes := u.mram.minutes, hours := u.mram.hours } } ∧
        (s.mram.minutes < 60 → s.mram.hours < 2 ^ 32 → u.mram.minutes < 60 ∧
          u.mram.hours * 60 + u.mram.minutes = (s.mram.hours * 60 + s.mram.minutes + 1) % (60 * 2 ^ 32))) ∧
      (∃ u, exec .rwsCounterCommit s = .next u ∧
        u = { s with mram := { s.mram with copyA := u.mram.copyA, copyB := u.mram.copyB } } ∧
        (∀ k, keyHas .counterRws k = false →
          smFind? k u.mram.copyA = smFind? k s.mram.copyA ∧ smFind? k u.mram.copyB = smFind? k s.mram.copyB) ∧
        ∀ p i v, p < 256 → objIs .counterRws i v = true → (smFind? (objKey p i v) s.objs).isSome = true →
          (mramCopy p i v u.mram.copyA).value = pobj s p i v ∧ (mramCopy p i v u.mram.copyB).value = pobj s p i v)) ∧
    (∀ ring stop dir free : Nat, let k := ringKey ring stop dir
      (stopUnit? ring stop = none → exec (.ringEntryReservation ring stop dir free) s = .next s) ∧
      (free < 2 → (stopUnit? ring stop).isSome = true → piccoloStop ring stop = false ∨ s.sync.held ≠ [] →
        ∃ u, exec (.ringEntryReservation ring stop dir free) s = .next u ∧ u = { s with rings := u.rings } ∧
          smGet false k u.rings = true ∧ ∀ j, j ≠ k → smGet false j u.rings = smGet false j s.rings) ∧
      (2 ≤ free → (stopUnit? ring stop).isSome = true → piccoloStop ring stop = false →
        ∃ u, exec (.ringEntryReservation ring stop dir free) s = .next u ∧ u = { s with rings := u.rings } ∧
          smGet false k u.rings = false ∧ ∀ j, j ≠ k → smGet false j u.rings = smGet false j s.rings) ∧
      (∀ (r : SyncResp) (rest : List SyncResp), 2 ≤ free → piccoloStop ring stop = true → s.sync.held = r :: rest →
        exec (.ringEntryReservation ring stop dir free) s =
          .next (deliverSync r { s with rings := smSet false k false s.rings, sync := { s.sync with held := rest } })) ∧
      (piccoloStop ring stop = true → s.sync.held = [] → exec (.ringEntryReservation ring stop dir free) s = .next s))

/-! ## Hosts over CXL, regions, publishing (spec/02, spec/03) -/

/-- cxlMemReadShared, cxlMemReadExclusive and cxlMemWrite complete, and what they leave (R36, R38, R69, R71, R72). At a free
line of a bound, mapped block a read answers the stored data with the state it grants, shared or exclusive, never exclusive
in a WTR region, and records the host in the line's tag; a write with every byte enabled stores its bytes and records the
host as the line's exclusive holder, whatever its meta field says, since the host did not hold the line. Where the module
does not serve the block (its role is not active, or a frozen record names it, R397; which blocks a record names is left
open, log entry 55) a read answers poison and a write is discarded; a write through a read-only view is discarded and
counted; a request to an unmapped address reads poison or is discarded, and is counted. -/
def Obligations.HostAccessesReachTheirLine : Prop :=
  ∀ (s : State) (port ld dpa tag h pa : Nat) (rw : Bool), cxlOpen s port = true →
    (dpaTarget s port ld dpa = .pool h pa rw → servesBlock s pa = true → poolQuiet s → h < 32 → lineFree s (pa / 64) →
      lineWtr s (pa / 64) = false →
      let line := pa / 64
      let sub := hostSub s h
      (∃ u load, exec (.cxlMemReadShared port ld dpa tag) s = .next u ∧
        leafOf u (16 + port) sub 3 = leafOf s (16 + port) sub 3 ++ [.cxl (.hostData port ld tag (lineData s line) false .shared load)] ∧
        lineWritten s u line (lineData s line) (mkTag false 1 h)) ∧
      (∃ u load, exec (.cxlMemReadExclusive port ld dpa tag) s = .next u ∧
        leafOf u (16 + port) sub 3 = leafOf s (16 + port) sub 3 ++ [.cxl (.hostData port ld tag (lineData s line) false .exclusive load)] ∧
        lineWritten s u line (lineData s line) (mkTag false 2 h)) ∧
      (∀ keep data, rw = true → data.length = 64 → ∃ u load,
        exec (.cxlMemWrite port ld dpa tag keep (BitVec.allOnes 64) data) s = .next u ∧
        leafOf u (16 + port) sub 3 = leafOf s (16 + port) sub 3 ++ [.cxl (.hostDone port ld tag load)] ∧
        lineWritten s u line data (mkTag false 2 h))) ∧
    (dpaTarget s port ld dpa = .pool h pa rw → servesBlock s pa = true → poolQuiet s → h < 32 → lineFree s (pa / 64) →
      lineWtr s (pa / 64) = true → ∃ u load, exec (.cxlMemReadExclusive port ld dpa tag) s = .next u ∧
        leafOf u (16 + port) (hostSub s h) 3 = leafOf s (16 + port) (hostSub s h) 3 ++
          [.cxl (.hostData port ld tag (lineData s (pa / 64)) false .shared load)] ∧
        lineWritten s u (pa / 64) (lineData s (pa / 64)) (mkTag false 1 h)) ∧
    (dpaTarget s port ld dpa = .pool h pa false → ∀ keep be data, exec (.cxlMemWrite port ld dpa tag keep be data) s =
      .next (enqueueLeaf (16 + port) (hostSub s h) 3 (.cxl (.hostDone port ld tag 0)) (bump 0x3231 (16 * port + ld + 1) s))) ∧
    (dpaTarget s port ld dpa = .pool h pa rw → servesBlock s pa = false →
      exec (.cxlMemReadShared port ld dpa tag) s = .next (enqueueLeaf (16 + port) (hostSub s h) 3
        (.cxl (.hostData port ld tag (zeros 64) true .none 0)) s) ∧
      exec (.cxlMemReadExclusive port ld dpa tag) s = .next (enqueueLeaf (16 + port) (hostSub s h) 3
        (.cxl (.hostData port ld tag (zeros 64) true .none 0)) s) ∧
      ∀ keep be data, rw = true → exec (.cxlMemWrite port ld dpa tag keep be data) s = .next (enqueueLeaf (16 + port) (hostSub s h) 3
        (.cxl (.hostDone port ld tag 0)) s)) ∧
    (dpaTarget s port ld dpa = .unmapped →
      exec (.cxlMemReadShared port ld dpa tag) s = .next (enqueueLeaf (16 + port) (ldSub s port ld) 3
        (.cxl (.hostData port ld tag (zeros 64) true .none 0)) (bump 0x3230 (16 * port + ld + 1) s)) ∧
      exec (.cxlMemReadExclusive port ld dpa tag) s = .next (enqueueLeaf (16 + port) (ldSub s port ld) 3
        (.cxl (.hostData port ld tag (zeros 64) true .none 0)) (bump 0x3230 (16 * port + ld + 1) s)) ∧
      ∀ keep be data, exec (.cxlMemWrite port ld dpa tag keep be data) s = .next (enqueueLeaf (16 + port) (ldSub s port ld) 3
        (.cxl (.hostDone port ld tag 0)) (bump 0x3230 (16 * port + ld + 1) s)))

/-- hdmDecoderCommit, biconflict, bisnpResponse, hostDeclareDead, biTimeout, deadHostSweepEnd and hostTableWrite complete, and
what they leave (R37, R60, R70, R71, R77, R78): a decoder is committed with one way only, the handshake is answered, the last
answer to a snoop ends it, a LIVE host is declared dead, the sweep's end clears its entry, and a valid entry of the host
table is written with its incarnation. -/
def Obligations.HostEventsActOnTheHostTable : Prop :=
  ∀ s : State,
    (∀ port ld dec ways, ∃ u, exec (.hdmDecoderCommit port ld dec ways) s = .next u ∧
      u = { s with hosts := { s.hosts with hdm := u.hosts.hdm }, outbox := s.outbox ++ [.hdmCommit port ld dec (ways == 1)] } ∧
      (((port * 16 + ld) * 8 + dec) ∈ u.hosts.hdm ↔ ways = 1) ∧
      ∀ k, k ≠ (port * 16 + ld) * 8 + dec → (k ∈ u.hosts.hdm ↔ k ∈ s.hosts.hdm)) ∧
    (∀ h line, snoopOut s h line = true → exec (.biconflict h line) s = .next (send (.biConflictAck h line) s)) ∧
    -- the last answer to a snoop, of a host that gives up a line it alone holds, without data
    (∀ h line sn, poolQuiet s → smFind? line s.hosts.snoops = some sn → sn.hosts = [h] → sn.drop = false →
      tagHstate (lineTag s line) = 0 → exec (.bisnpResponse h line true none) s =
        .next { s with hosts := { s.hosts with snoops := smErase line s.hosts.snoops } }) ∧
    (∀ h, h < geomHosts s → hostState s h = 1 →
      exec (.hostDeclareDead h) s = .next (answerFm 0x2202 0 (.ok, hostDeath h 0 s)) ∧
      (∀ line, snoopOut s h line = true → exec (.biTimeout h line) s = .next (hostDeath h 1 (bump 0x3211 (h + 1) s))) ∧
      (poolQuiet s → s.hosts.snoops = [] → ∃ u, exec (.hostDeclareDead h) s = .next u ∧ s.dram = u.dram ∧
        u.hosts.sweeps.map (·.1) = s.hosts.sweeps.map (·.1) ++ [h])) ∧
    (∀ h, geomHosts s ≤ h ∨ hostState s h = 0 → exec (.hostDeclareDead h) s = .next (send (.cmdAnswer 0x31) s)) ∧
    (∀ h blocks, s.hosts.sweeps.find? (fun e => e.1 == h) = some (h, blocks) → nothingStored s →
      let v := hostEntry s h
      exec (.deadHostSweepEnd h) s = .next (raiseEvent 0x0011 (leBytes 1 h ++ leBytes 1 (field v 31 24) ++ leBytes 8 s.ptime)
        (let u := setObj 0x2210 (h + 1) (putField (putField v 1 0 0) 21 2 0) s
         { u with hosts := { u.hosts with sweeps := u.hosts.sweeps.filter (fun e => e.1 != h) } }))) ∧
    (∀ h v, h < geomHosts s → v < 2 ^ 64 → field v 23 22 = 0 → hostState s h = 0 → field v 1 0 ≤ 1 →
      (∀ ld ∈ ldsOfEntry v, ∀ g, g < 32 → g ≠ h → entryBinds (hostEntry s g) ld = false) →
      exec (.hostTableWrite h v) s = .next (answerFm 0x2210 (h + 1) (.ok, setObj 0x2210 (h + 1) (putField v 31 24
        (if field v 1 0 = 1 then (field (hostEntry s h) 31 24 + 1) % 256 else field (hostEntry s h) 31 24)) s)))

/-- The commands of REGION_CMD, create, mapRegion, unmap, addDraft, releaseRegion and query, complete (R61-R64, R457): one that passes its checks has its effect and ends with status OK and SEQ
one higher, one that fails a check changes nothing but the status, and none is taken while another runs or before READY. -/
def Obligations.RegionCommandsChangeTheirRegion : Prop :=
  ∀ (s : State) (cmd : Bytes), s.ready = true → s.hosts.cmdRunning = false →
    let b (op : Nat) : Bytes := withOp op cmd
    let id (op : Nat) : Nat := rcRegion (b op)
    let r (op : Nat) : Region := getRegion s (id op)
    let done (u : State) : State := answerFm 0x2200 0 (.ok, regionDone .ok u)
    (rcStatus (b 1) s = .ok → exec (.create cmd) s = .next (done (updRegion (id 1) (fun _ =>
      { state := if bitOf (leAt (b 1) 1 1) 2 then .ready else .filling, flags := leAt (b 1) 1 1, first := rcFirst (b 1)
        blocks := rcBlocks (b 1), gen := 0, drafts := [], ops := [] }) s))) ∧
    (rcStatus (b 2) s = .ok → exec (.mapRegion cmd) s = .next (done (updRegion (id 2) (fun x => { x with state := .mapped })
      (mapBlocks (rcLd (b 2)) (rcDpa (b 2)) (id 2) (rcView (b 2)) (rcRight (b 2) == 1) (blockRun
        (if rcView (b 2) = 1 then ((draftOf? (r 2) (rcLd (b 2))).map (·.first)).getD 0 else (r 2).first) (r 2).blocks) s)))) ∧
    (rcStatus (b 3) s = .ok → poolQuiet s → hostOfLd? s (rcLd (b 3)) = none → ∃ u, exec (.unmap cmd) s = .next u ∧
      u.hosts.ldMap = s.hosts.ldMap.filter (fun e =>
        !(e.1 / 8192 == rcLd (b 3) && e.2.region == id 3 && e.2.kind == rcView (b 3))) ∧
      (getRegion u (id 3)).state = (if u.hosts.ldMap.any (fun e => e.2.region == id 3 && e.2.kind != 2) then .mapped else .ready) ∧
      u.hosts.cmdRunning = false ∧ u.dram = s.dram) ∧
    (rcStatus (b 4) s = .ok → poolQuiet s → ∃ u, exec (.addDraft cmd) s = .next u ∧
      (getRegion u (id 4)).drafts = (r 4).drafts ++ [{ ld := rcLd (b 4), first := rcFirst (b 4) }] ∧
      (getPub u (rcLd (b 4))).busy = true ∧ u.hosts.cmdRunning = false ∧ u.dram = s.dram) ∧
    (rcStatus (b 5) s = .ok → nothingStored s → ∃ u, exec (.releaseRegion cmd) s = .next u ∧
      (getRegion u (id 5)).state = .releasing ∧ u.hosts.ldMap = s.hosts.ldMap.filter (fun e => !(e.2.region == id 5)) ∧
      u.hosts.extents = s.hosts.extents.filter (fun e => e.region != id 5) ∧ u.dram = s.dram) ∧
    (rcStatus (b 6) s = .ok → exec (.query cmd) s = .next (done (setObj 0x2203 0 (ofLe (queryBytes (id 6) (r 6))) s))) ∧
    (∀ c ∈ [Instr.create cmd, .mapRegion cmd, .unmap cmd, .addDraft cmd, .releaseRegion cmd, .query cmd],
      ∀ u, (u.ready = false ∨ u.hosts.cmdRunning = true) → exec c u = .next (send (.cmdAnswer 0x11) u)) ∧
    (rcStatus (b 1) s ≠ .ok → exec (.create cmd) s =
      .next (send (.cmdAnswer (statusCode (rcStatus (b 1) s))) (regionDone (rcStatus (b 1) s) s)))

/-- regionZeroFillDone, regionRecallDone and regionSanitiseDone complete: the end of a region's fill, recall and sanitising
fill, of blocks whose lines no host and no tile holds (R62, R64): a filled or sanitised block reads zero everywhere
and is initialised, and a sanitised region's number and blocks are free. -/
def Obligations.RegionFillsEndWithZeroedBlocks : Prop :=
  ∀ (s : State) (id : Nat),
    let r := getRegion s id
    let zeroed (u : State) : Prop :=
      (∀ ps line i, line < 2 ^ 34 → i < 68 → line >>> 22 ∈ regionBlocks r → cell u (cellKey ps line i) = 0) ∧
      (∀ b, b ∈ regionBlocks r → b < 3584 → u.dram.init.getLsbD b = true) ∧
      (∀ ps line i, line < 2 ^ 34 → i < 68 → line >>> 22 ∉ regionBlocks r →
        cell u (cellKey ps line i) = cell s (cellKey ps line i))
    let unheld : Prop :=
      (∀ line, line >>> 22 ∈ regionBlocks r → tagHstate (dirTag s line) = 0) ∧ ∀ e ∈ s.coh.filter, e.1 >>> 22 ∉ regionBlocks r
    (unheld → r.state = .filling → ∃ u, exec (.regionZeroFillDone id) s = .next u ∧ getRegion u id = { r with state := .ready } ∧ zeroed u) ∧
    (unheld → r.state = .sanitising → ∃ u, exec (.regionSanitiseDone id) s = .next u ∧ getRegion u id = region0 ∧ zeroed u) ∧
    (r.state = .releasing → (∀ e ∈ s.hosts.recalls, e.2.why = .release id → e.2.left = 0) →
      exec (.regionRecallDone id) s = .next (updRegion id (fun x => { x with state := .sanitising })
        { s with hosts := { s.hosts with recalls := s.hosts.recalls.filter (fun e => e.2.why != .release id) } }))

/-- dcAddCapacity, dcExtentAccept and dcExtentRelease complete (R65, R66): an acceptable request adds an extent and offers it, the host's acceptance makes
its blocks visible, and a release without a host to ask ends it. -/
def Obligations.DynamicCapacityExtentsComeAndGo : Prop :=
  ∀ (s : State) (port ld : Nat) (tag : Bytes) (dpa pa len : Nat),
    let g := port * 16 + ld
    (ld < 16 → extentOk s g tag dpa pa len = true → exec (.dcAddCapacity port ld tag dpa pa len) s =
      .next (send (.dynCap port ld (leAt tag 0 2) (pa / 2 ^ 28) (len / 2 ^ 28) 0) { s with hosts := { s.hosts with
        extents := s.hosts.extents ++ [{ ld := g, region := leAt tag 0 2, first := pa / 2 ^ 28, blocks := len / 2 ^ 28,
                                         dpa := dpa / 2 ^ 28, live := false, releasing := false }] } })) ∧
    (ld < 16 → extentOk s g tag dpa pa len = false → exec (.dcAddCapacity port ld tag dpa pa len) s =
      .next (send (.dynCap port ld (leAt tag 0 2) (pa / 2 ^ 28) (len / 2 ^ 28) 1) s)) ∧
    (∀ x, extentAt? s g dpa = some x → x.live = false → exec (.dcExtentAccept port ld dpa) s =
      .next (send (.dynCap port ld x.region x.first x.blocks 2)
        (mapBlocks g x.dpa x.region 2 (regionMode (getRegion s x.region) != 2) (blockRun x.first x.blocks)
          { s with hosts := { s.hosts with extents := s.hosts.extents.map (fun e =>
            if e.ld == g && e.dpa == x.dpa then { e with live := true } else e) } }))) ∧
    (∀ x, ld < 16 → extentAt? s g dpa = some x → x.releasing = false → hostOfLd? s g = none → ∃ u,
      exec (.dcExtentRelease port ld dpa) s = .next u ∧
      u.outbox = s.outbox ++ [.dynCap port ld x.region x.first x.blocks 4] ∧
      u.hosts.extents = s.hosts.extents.filter (fun e => !(e.ld == g && e.dpa == x.dpa)) ∧
      u.hosts.ldMap = s.hosts.ldMap.filter (fun e =>
        !(e.2.kind == 2 && e.1 / 8192 == g && decide (x.dpa ≤ e.1 % 8192) && decide (e.1 % 8192 < x.dpa + x.blocks))))

/-- publish, rebase, pubCtrlRsvdOp and draftCopyDone complete (R73-R75): a PUBLISH whose GEN compares equal swaps draft and read view and starts the copy, one that
compares unequal ends with PUBLISH_CONFLICT, a REBASE starts the copy, an undefined OP ends with ERR_FORMAT, and the end
of the copy returns BUSY to 0. -/
def Obligations.PublishingSwapsTheDraft : Prop :=
  ∀ (s : State) (port ld region expect token : Nat) (d : Draft), port < 4 → ld < 16 → region < 1024 → token < 65536 →
    expect < 2 ^ 64 →
    let l := port * 16 + ld
    let g := getRegion s region
    exec (.pubCtrlRsvdOp port ld token) s =
      .next (updPub l (fun p => { p with lastToken := token, lastStatus := 0x33 }) s) ∧
    (poolQuiet s → nothingStored s → g.state ≠ .unused → draftOf? g l = some d → (getPub s l).busy = false →
      (expect = g.gen → ∃ u, exec (.publish port ld region expect token) s = .next u ∧ (getRegion u region).first = d.first ∧
        (getRegion u region).gen = (g.gen + 1) % 2 ^ 64 ∧
        (getRegion u region).drafts = g.drafts.map (fun y => if y.ld = l then { y with first := g.first } else y) ∧
        getPub u l = { region := region, expect := expect, lastToken := token, lastStatus := 0, busy := true } ∧
        u.dram = s.dram) ∧
      (expect ≠ g.gen → ∃ u, exec (.publish port ld region expect token) s = .next u ∧ getRegion u region = g ∧
        getPub u l = { region := region, expect := expect, lastToken := token, lastStatus := 0x50, busy := false } ∧
        u.hosts.ldMap = s.hosts.ldMap) ∧
      (∃ u, exec (.rebase port ld region token) s = .next u ∧ (getPub u l).busy = true ∧ (getPub u l).region = region ∧
        ((getRegion u region).ops.map (fun o => (o.kind, o.ld, o.token, o.copying))) = [(.rebase, l, token, true)] ∧
        u.dram = s.dram)) ∧
    (∀ o, g.ops = [o] → o.copying = true → draftOf? g o.ld = some d → s.hosts.recalls = [] →
      (∀ e ∈ s.hosts.regions, e.1 ≠ region → e.2.ops = []) → (s.hosts.regions.map (·.1)).Nodup →
      (copyBlocks region g.first d.first g.blocks s).1 = true → (copyBlocks region g.first d.first g.blocks s).2.hosts = s.hosts →
      ∃ u, exec (.draftCopyDone region) s = .next u ∧ (getRegion u region).ops = [] ∧ (getPub u o.ld).busy = false ∧
        (o.kind = .rebase → (getPub u o.ld).expect = g.gen) ∧ u.dram = (copyBlocks region g.first d.first g.blocks s).2.dram)

/-! ## DRAM channels and stored data (spec/04) -/

/-- memoryChannelAccept and patrolScrubRead complete (R94, R96, R98, R101, R102, R105, R109): a read of a free line answers its data, a write
stores it, a scrub leaves a clean line alone, writes a corrected line back, and poisons and logs an uncorrectable one, and waits while a copy of the line's row runs. -/
def Obligations.AcceptedRequestsAndScrub : Prop :=
  ∀ (s : State) (line tag : Nat) (src : Source),
    (poolQuiet s → lineFree s line →
      (∃ u, exec (.memoryChannelAccept tag src (.read (line * 64) 64) []) s = .next u ∧
        u.outbox = s.outbox ++ [.memAnswer tag .ok (lineData s line)] ∧ u.dram.cells = s.dram.cells ∧ u.dram.lost = s.dram.lost) ∧
      (∀ data : Bytes, data.length = 64 → ∃ u,
        exec (.memoryChannelAccept tag src (.write (line * 64) (data.map some)) []) s = .next u ∧
        u.outbox = s.outbox ++ [.memAnswer tag .ok []] ∧ lineWritten s u line data 0)) ∧
    (obj s 0x2311 0 = 1 → blockInit s (line * 64) = true → s.dram.heldRows.contains (rowKeyOf s (line * 64)) = false →
      (rsDecode (receivedLine s line) = .clean → exec (.patrolScrubRead line []) s = .next s) ∧
      (∀ k v, rsDecode (receivedLine s line) = .corrected k v →
        exec (.patrolScrubRead line []) s = .next (noteCorrected (line * 64) k (bump 0x3320 (lstackOf (line * 64) + 1)
          (logDramError 0x04 (line * 64) k .scrub (writeLine line (v.take 64) (v.getD 64 0).toNat s))))) ∧
      (rsDecode (receivedLine s line) = .uncorrectable →
        exec (.patrolScrubRead line []) s = .next (logUncorrectable 0x05 (line * 64) .scrub (poisonUnknown line s)))) ∧
    (obj s 0x2311 0 ≠ 1 ∨ s.dram.heldRows.contains (rowKeyOf s (line * 64)) = true →
      exec (.patrolScrubRead line []) s = .next s)

/-- dqsDriftAdjust, refreshDue and owedRefreshIssue complete (R88-R92): delays move by at most one step, a due refresh is issued, or postponed under
panic in an Elastic set until the limit of owed refreshes, and an owed one is issued once panic has fallen. -/
def Obligations.DriftAndRefresh : Prop :=
  ∀ (s : State) (chan set : Nat) (rd0 wr0 rd1 wr1 : Int) (doubled : Bool),
    (∃ u, exec (.dqsDriftAdjust chan rd0 wr0 rd1 wr1) s = .next u ∧ u = { s with dram := { s.dram with dqs := u.dram.dqs } } ∧
      let d := smGet dqs0 chan s.dram.dqs
      let d' := smGet dqs0 chan u.dram.dqs
      d'.rd0 = d.rd0 + max (-1) (min 1 rd0) ∧ d'.wr0 = d.wr0 + max (-1) (min 1 wr0) ∧
      d'.rd1 = d.rd1 + max (-1) (min 1 rd1) ∧ d'.wr1 = d.wr1 + max (-1) (min 1 wr1) ∧
      ∀ c, c ≠ chan → smGet dqs0 c u.dram.dqs = smGet dqs0 c s.dram.dqs) ∧
    (let r := getRefresh s set
     let limit := if doubled then min (obj s 0x4310 (set + 1)) 4 else obj s 0x4310 (set + 1)
     let postponed : Prop := obj s 0x2310 (set + 1) = 1 ∧ r.panic = true
     (¬ postponed → exec (.refreshDue set doubled) s =
        .next (updRefresh set (fun r => { r with doubled := doubled, issued := r.issued + 1 }) s)) ∧
     (postponed → r.owed < limit → exec (.refreshDue set doubled) s = .next (bump 0x3330 (set + 1)
        (updRefresh set (fun r => { r with doubled := doubled, owed := r.owed + 1 }) s))) ∧
     (postponed → limit ≤ r.owed → exec (.refreshDue set doubled) s = .next (bump 0x3331 (set + 1)
        (updRefresh set (fun r => { r with doubled := doubled, issued := r.issued + 1 }) s))) ∧
     (r.panic = false → 0 < r.owed → exec (.owedRefreshIssue set) s = .next
        (updRefresh set (fun r => { r with owed := r.owed - 1, issued := r.issued + 1 }) s)) ∧
     (r.panic = true ∨ r.owed = 0 → exec (.owedRefreshIssue set) s = .next s))

/-- The checker test mode and INIT bits: writeRaw, readRaw, readDecode, blockMarkInit and blockInitQuery complete (R12, R101,
R106, R107): with the unlock of its expert group, WRITE_RAW stores 68 bytes as given and clears the block's INIT
bit, READ_RAW and READ_DECODE change only CHK_RESULT; a misaligned or forbidden address refuses the command,
and so does the lack of the unlock. -/
def Obligations.CheckerCommandsActOnOneLine : Prop :=
  ∀ (s : State) (cmd : Bytes),
    let b := slice cmd 0 80
    let pa := leAt b 8 5
    let line := pa / 64
    let st := storedLine s (physStack s (lstackOf pa)) line
    let word := obj s 0x4332 0
    let data := slice b 16 64
    let result (v : Nat) (u : State) : State := answerFm 0x4330 0 (.ok, setObj 0x4331 0 v u)
    (unlocked s (expertGroup 0x4330) false = false → ∀ c ∈ [Instr.writeRaw cmd, .readRaw cmd, .readDecode cmd],
      exec c s = .next (send (.cmdAnswer 0x31) s)) ∧
    (unlocked s (expertGroup 0x4330) false = true → (slice b 1 7).any (· != 0) = false → (slice b 13 3).any (· != 0) = false →
      (pa % 64 = 0 → pa < metaBase → checkerOk s (pa / 2 ^ 28) = true →
        exec (.writeRaw cmd) s = .next (result (chkResult 0 0 0 data word) (invalidateGranule line
          (setInit (pa / 2 ^ 28) false (dropVector line (storeLine line (data ++ leBytes 4 word) s))))) ∧
        exec (.readRaw cmd) s = .next (result (chkResult 0 0 0 (st.take 64) (leAt st 64 4)) s) ∧
        (rsDecode (receivedLine s line) = .clean → exec (.readDecode cmd) s =
          .next (result (chkResult 0 0 0xFF ((receivedLine s line).take 64) (leAt st 64 4)) s)) ∧
        (∀ k v, rsDecode (receivedLine s line) = .corrected k v → exec (.readDecode cmd) s =
          .next (result (chkResult 0 1 k (v.take 64) (leAt st 64 4)) s)) ∧
        (rsDecode (receivedLine s line) = .uncorrectable → exec (.readDecode cmd) s =
          .next (result (chkResult 0 2 0xFF ((receivedLine s line).take 64) (leAt st 64 4)) s))) ∧
      (pa % 64 ≠ 0 → exec (.writeRaw cmd) s = .next (send (.cmdAnswer 0x32) (setObj 0x4331 0 (chkResult 0x32 0 0 [] 0) s))) ∧
      (pa % 64 = 0 → checkerOk s (pa / 2 ^ 28) = false →
        exec (.writeRaw cmd) s = .next (send (.cmdAnswer 0x31) (setObj 0x4331 0 (chkResult 0x31 0 0 [] 0) s)))) ∧
    (∀ block, block < geomBlocks s →
      exec (.blockMarkInit block) s = .next (answerFm 0x2320 0 (.ok, setInit block true s)) ∧
      (block < 3584 → (setInit block true s).dram.init.getLsbD block = true) ∧
      exec (.blockInitQuery block) s = .next (answerFm 0x2321 0 (.ok, setObj 0x2321 0 block s))) ∧
    (∀ block, geomBlocks s ≤ block → exec (.blockMarkInit block) s = .next (send (.cmdAnswer 0x31) s) ∧
      exec (.blockInitQuery block) s = .next (send (.cmdAnswer 0x31) s))

/-- rowRemapComplete, spareStackCmd, stackEvacuationComplete and stackStopsAnswering complete (R109, R111-R113): a finished row
copy enters the remap, with the table's next epoch and its CRC-32, and releases the row, a
named stack is evacuated to its spare, the finished copy moves the stack in one step, and where the failing stack has
stopped answering every line not yet copied reads poisoned zeros. -/
def Obligations.RowsAndStacksAreReplaced : Prop :=
  ∀ (s : State),
    (∀ pchan bank row, let k := (pchan * 16 + bank) * 2 ^ 18 + row
      k ∈ s.dram.heldRows → poolQuiet s → ∃ u, exec (.rowRemapComplete pchan bank row) s = .next u ∧
        k ∉ u.dram.heldRows ∧
        (let e := (smGet remap0 pchan s.mram.remaps).epoch + 1
         let rows := remapRows s pchan ++ [bank * 2 ^ 18 + row]
         smGet remap0 pchan u.mram.remaps = { rows := rows, epoch := e, crc := remapCrc e rows })) ∧
    (∀ l, l < geomStacks s → s.dram.evac = none →
      (∀ sp, spareFor s (physStack s l) = some sp → exec (.spareStackCmd l) s = .next (answerFm 0x2330 0 (.ok,
        { s with dram := { s.dram with evac := some { lstack := l, spare := sp, ptr := 0 }, evacWait := [] } }))) ∧
      (spareFor s (physStack s l) = none → exec (.spareStackCmd l) s = .next (answerFm 0x2330 0 (.ok,
        { s with dram := { s.dram with evacWait := [] } })))) ∧
    (∀ l e, l < geomStacks s → s.dram.evac = some e → e.lstack ≠ l → l ∉ s.dram.evacWait → exec (.spareStackCmd l) s =
      .next (answerFm 0x2330 0 (.ok, { s with dram := { s.dram with evacWait := s.dram.evacWait ++ [l] } }))) ∧
    (∀ l, geomStacks s ≤ l → exec (.spareStackCmd l) s = .next (send (.cmdAnswer 0x31) s)) ∧
    (∀ e, s.dram.evac = some e → s.dram.evacWait = [] →
      (∃ u, exec .stackEvacuationComplete s = .next u ∧ physStack u e.lstack = e.spare ∧ u.dram.evac = none ∧
        physStack s e.lstack ∈ u.mram.deadStacks) ∧
      (∀ ptr, ∃ u, exec (.stackStopsAnswering ptr) s = .next u ∧ physStack u e.lstack = e.spare ∧ u.dram.evac = none ∧
        ∀ line, line < 2 ^ 34 → lstackOf (line * 64) = e.lstack → e.ptr ≤ setOffset (line * 64) →
          ptr ≤ setOffset (line * 64) → storedLine u e.spare line = encodeLine [] 0xFF))

/-! ## Tiles, queues, jobs (spec/05), translation roots and drains (spec/02) -/

/-- tileOwnerWrite, tileClearDone, queueAssign and partLdWrite complete (R116-R118, R238): a tile given to another owner leaves
the coherence domain, gets the owner once it has left, and is cleared before it is READY again, a queue run is set or released with its queues in their first state, a
PART_LD is stored; a value that breaks a rule is refused and changes nothing. -/
def Obligations.TilesAndQueuesAreAssigned : Prop :=
  ∀ (s : State),
    (∀ t p, t < geomTiles s → (p = 0xFF ∨ p < geomParts s) → tileOwner s t = 0xFF → p ≠ 0xFF → tileState s t = 0 →
      (tileLines s t = [] → exec (.tileOwnerWrite t p) s = .next (answerFm 0x2600 (t + 1) (.ok,
        setObj 0x3601 (t + 1) 1 (setObj 0x2600 (t + 1) p (updTile t (fun x => { x with newOwner := none }) s))))) ∧
      (tileLines s t ≠ [] → exec (.tileOwnerWrite t p) s = .next (answerFm 0x2600 (t + 1) (.ok,
        setObj 0x3601 (t + 1) 1 (leaveDomain t (updTile t (fun x => { x with newOwner := some p }) s)))))) ∧
    (∀ t p, geomTiles s ≤ t → exec (.tileOwnerWrite t p) s = .next (send (.cmdAnswer 0x31) s)) ∧
    (∀ t, tileState s t = 1 → tileLines s t = [] → tileJobs s t = [] → (getTile s t).replace = false →
      ∃ u, exec (.tileClearDone t) s = .next u ∧ tileState u t = 0 ∧ getTile u t = tile0 ∧ obj u 0x3610 (t + 1) = 0 ∧
        tileOwner u t = (getTile s t).newOwner.getD (tileOwner s t) ∧
        (∀ v, v ≠ t → getTile u v = getTile s v) ∧ u.dram = s.dram) ∧
    (∀ t, tileState s t = 1 → tileJobs s t ≠ [] → exec (.tileClearDone t) s = .next s) ∧
    (∀ t, tileState s t = 1 → tileJobs s t = [] → tileLines s t ≠ [] → exec (.tileClearDone t) s = .next (leaveDomain t s)) ∧
    (∀ first n p, 0 < n → n ≤ 256 → first < 1024 → first + n ≤ geomQueues s → p < 64 → p < geomParts s →
      (getPart s p).qCount = 0 → (∀ e ∈ s.work.parts, e.1 ≠ p → e.2.qCount = 0) →
      ∃ u, exec (.queueAssign (first + n * 2 ^ 12 + p * 2 ^ 24)) s = .next u ∧
        (getPart u p).qFirst = first ∧ (getPart u p).qCount = n ∧
        (∀ q, first ≤ q → q < first + n → getQueue u q = queue0) ∧ u.dram = s.dram ∧ u.tiles = s.tiles) ∧
    (∀ v, field v 11 10 ≠ 0 → exec (.queueAssign v) s = .next (send (.cmdAnswer 0x33) s)) ∧
    (∀ p v, p < geomParts s → v < 2 ^ 20 → (∀ n, n < 4 → bitOf v (n * 5 + 4) = true → n < obj s 0x110A 0 ∧
        field v (n * 5 + 3) (n * 5) < geomLds s ∧ ∀ q, q < 64 → q ≠ p → 16 * n + field v (n * 5 + 3) (n * 5) ∉ partLds s q) →
      exec (.partLdWrite p v) s = .next (answerFm 0x2602 (p + 1) (.ok, setObj 0x2602 (p + 1) v s))) ∧
    (∀ p v, 2 ^ 20 ≤ v → exec (.partLdWrite p v) s = .next (send (.cmdAnswer 0x33) s))

/-- qCfgWrite, doorbell, qCompHeadWrite, queueRegisterWrite, pcErrCauseWrite and msixUnmask complete: the registers of a
partition's window (R119-R121, R127, R135, R136): each write that the rules admit has its effect on
that queue or vector alone, a doorbell beyond the ring is discarded with DB_ERR, and a partition whose window is not open
changes nothing. -/
def Obligations.WindowRegistersActOnTheirQueue : Prop :=
  ∀ (s : State) (p q m : Nat), p < 64 → localQueue? s p q = some m →
    let x := getQueue s m
    (∀ v, let dl := field v 3 0
      let cl := field v 7 4
      4 ≤ dl → 4 ≤ cl →
      (bitOf v 8 = true → x.en = false → qDrained s m = true → exec (.qCfgWrite p q v) s = .next (updQueue m (fun y => { y with
        vector := field v 23 16, en := true, descLog2 := dl, compLog2 := cl, head := 0, tail := 0, ctail := 0, chead := 0,
        fetching := false, fetched := none }) (dropFetch m s))) ∧
      (bitOf v 8 = true → x.en = false → qDrained s m = false → exec (.qCfgWrite p q v) s = .next s) ∧
      (bitOf v 8 = false → x.en = true ∨ qDrained s m = false → exec (.qCfgWrite p q v) s = .next (updQueue m (fun y => { y with
        vector := field v 23 16, en := false }) s))) ∧
    (∀ v, field v 3 0 < 4 → exec (.qCfgWrite p q v) s = .next s) ∧
    (∀ tail, x.en = true → tail < 65536 →
      let d := (tail + 65536 - x.head) % 65536
      let n := (x.tail + 65536 - x.head) % 65536
      (n < d → d ≤ 2 ^ x.descLog2 → exec (.doorbell p q tail) s = .next (updQueue m (fun y => { y with tail := tail }) s)) ∧
      (d = n → exec (.doorbell p q tail) s = .next s) ∧
      (d ≠ n → ¬ (n < d ∧ d ≤ 2 ^ x.descLog2) → exec (.doorbell p q tail) s = .next (setErrCause p 1 s))) ∧
    (∀ tail, x.en = false → exec (.doorbell p q tail) s = .next s) ∧
    (∀ c, c < 65536 → x.held = [] → (x.ctail + 65536 - c) % 65536 ≤ (x.ctail + 65536 - x.chead) % 65536 →
      exec (.qCompHeadWrite p q c) s = .next (updQueue m (fun y => { y with chead := c }) s)) ∧
    (∀ v, (qIdle s m = true →
        exec (.queueRegisterWrite p q 0x00 v) s = .next (updQueue m (fun y => { y with descBase := field v 47 12 * 4096 }) s) ∧
        exec (.queueRegisterWrite p q 0x08 v) s = .next (updQueue m (fun y => { y with compBase := field v 47 12 * 4096 }) s)) ∧
      (qIdle s m = false → exec (.queueRegisterWrite p q 0x00 v) s = .next s ∧ exec (.queueRegisterWrite p q 0x08 v) s = .next s) ∧
      exec (.queueRegisterWrite p q 0x14 v) s = .next (updQueue m (fun y => { y with budgetUs := v % 2 ^ 32 }) s) ∧
      ∃ u, exec (.queueRegisterWrite p q 0x18 v) s = .next u ∧ u = updQueue m (fun y => { y with tiles := (getQueue u m).tiles }) s ∧
        ∀ t, bitOf (getQueue u m).tiles t = (bitOf v t && decide (t ∈ partTiles s p))) ∧
    (∀ v, exec (.pcErrCauseWrite p v) s = .next (updPart p (fun y => { y with errCause := y.errCause &&& (31 - v % 32) }) s)) ∧
    (∀ v, v < 256 → let e := smGet msix0 v (getPart s p).msix
      let cleared := updPart p (fun y => { y with msix := smUpd msix0 v (fun e => { e with control := putBit e.control 0 false % 2 ^ 32 }) y.msix }) s
      (bitOf e.control 0 = true → (getPart s p).pba.getLsbD v = true → vecQueued s p v = false → exec (.msixUnmask p v) s = .next (sendVector p v cleared)) ∧
      ((getPart s p).pba.getLsbD v = false → exec (.msixUnmask p v) s = .next cleared)) ∧
    (∀ u : State, partState u p ≠ 2 → ∀ v, exec (.qCfgWrite p q v) u = .next u ∧ exec (.doorbell p q v) u = .next u ∧
      exec (.qCompHeadWrite p q v) u = .next u ∧ exec (.queueRegisterWrite p q v v) u = .next u ∧
      exec (.pcErrCauseWrite p v) u = .next u ∧ exec (.msixUnmask p v) u = .next u ∧ exec (.drainInvalidate p v v v) u = .next u)

/-- ptRootWrite and drainInvalidate complete (R47, R53-R58): an accepted root clears the translation cache, an accepted drain clears
the range and waits for exactly the jobs that touch it, and a refused one changes only LAST_REFUSAL or nothing. -/
def Obligations.RootsAndDrains : Prop :=
  ∀ (s : State) (p : Nat),
    (∀ v, p < geomParts s → v < 2 ^ 40 → field v 16 1 = 0 → (bitOf v 0 = true → partHolds s p (field v 39 17 * 2 ^ 17) = true) →
      exec (.ptRootWrite p v) s = .next (send (.cmdAnswer 0) (updPart p (fun x => { x with xcache := [] }) (setPobj p 0x6100 0 v s)))) ∧
    (∀ v, p < geomParts s → field v 16 1 ≠ 0 → exec (.ptRootWrite p v) s = .next (send (.cmdAnswer 0x33) s)) ∧
    (∀ base len token, p < 64 → windowOpenFor s p = true → base % 65536 = 0 → len % 65536 = 0 → 0 < len → base + len ≤ 2 ^ 48 →
      token < 65536 → (getPart s p).di = [] →
      let drain := (s.work.jobs.filter (fun e => e.2.part == p && touchesRange e.2 base len)).map (·.1)
      ∃ u, exec (.drainInvalidate p base len token) s = .next u ∧ u.dram = s.dram ∧
        (getPart u p).acceptCount = ((getPart s p).acceptCount + 1) % 65536 ∧
        (∀ lvl va, va < 2 ^ 48 → (lvl = 1 ∨ lvl = 2 ∨ lvl = 3) → base ≤ va → va < base + len →
          smFind? (xlKey lvl va) (getPart u p).xcache = none) ∧
        (drain = [] → (getPart u p).di = [] ∧ (getPart u p).lastToken = token ∧
          (getPart u p).doneCount = ((getPart s p).doneCount + 1) % 65536) ∧
        (drain ≠ [] → (getPart u p).di = [{ token := token, vector := none, drain := drain }] ∧
          (getPart u p).doneCount = (getPart s p).doneCount)) ∧
    (∀ base len token, p < 64 → windowOpenFor s p = true → token < 65536 → len < 65536 → (getPart s p).di = [] →
      exec (.drainInvalidate p base len token) s = .next (updPart p (fun x => { x with
        diBase := field base 47 16 * 65536, diLength := 0, lastRefusal := 0x32 }) s))

/-- descriptorSeal, jobDispatch, jobRetire and jobBudgetExpiry complete: from descriptor to retirement (R48, R49, R122-R132,
R242, R343, R344): a descriptor that passes its checks is sealed as a
new job once HEAD has gone past it, one that fails is completed with its status, a job served by the scheduler starts on its tile, and an
ended job leaves the table with its record written at CTAIL or held. -/
def Obligations.JobsAreSealedDispatchedAndRetired : Prop :=
  ∀ (s : State),
    (∀ m p d s0, queuePart? s m = some p → partState s p = 2 → (queueJobs s m).length < 255 →
      -- the descriptor has been copied before, or its fetch has been answered and HEAD goes past it
      ((getQueue s m).copied = some d ∧ s0 = s ∨ (getQueue s m).copied = none ∧ (getQueue s m).en = true ∧
        (getQueue s m).head ≠ (getQueue s m).tail ∧ (getQueue s m).fetched = some (.ok, d) ∧ d.length = 128 ∧
        s0 = takeHead m (some d) s) →
      (∀ ops s1, headerCheck s0 p (getQueue s0 m) d = none → progRunCheck s0 p d = none →
        sealAll p d (operandForm d) s0 = (.ok ops, s1) → ∃ u x, exec (.descriptorSeal m) s = .next u ∧
          getJob? u s1.work.nextJob = some x ∧ x.part = p ∧ x.queue = m ∧ x.desc = d ∧ x.operands = ops ∧ x.phase = .sealed ∧
          x.index = ((getQueue s1 m).head + 65535) % 65536 ∧ (getQueue u m).head = (getQueue s1 m).head ∧
          (getQueue u m).copied = none) ∧
      (∀ st off, headerCheck s0 p (getQueue s0 m) d = some (st, off) → off < 2 ^ 64 → ∃ u x, exec (.descriptorSeal m) s = .next u ∧
        getJob? u s.work.nextJob = some x ∧ x.phase = .ended ∧ x.status = st ∧ x.detail = off ∧
        (getQueue u m).head = (getQueue s0 m).head ∧ (getQueue u m).copied = none ∧ u.dram = s.dram)) ∧
    (∀ j t x, getJob? s j = some x → mayDispatch s j x = true → dispatchCheck s x = none →
      (opcNoTile (dOpc x.desc) = true ∨ tileTakes s x t = true) →
      (admitJob s x = .served → dOpc x.desc ≠ 0x51 → exec (.jobDispatch j t) s = .next (updJob j (fun y => { y with
        phase := .running, tile := if opcNoTile (dOpc x.desc) then 0xFF else t, ran := true, started := s.ptime }) s)) ∧
      (∀ code, admitJob s x = .refused code → ∃ u y, exec (.jobDispatch j t) s = .next u ∧ getJob? u j = some y ∧
        y.phase = .ended ∧ y.status = .retryQueueFull ∧ y.reason = code) ∧
      (∀ code, admitJob s x = .delayed code → dNoWait x.desc = true → ∃ u y, exec (.jobDispatch j t) s = .next u ∧
        getJob? u j = some y ∧ y.phase = .ended ∧ y.status = .retryShaped ∧ y.reason = code)) ∧
    (∀ j x, getJob? s j = some x → x.phase = .ended → x.outstanding = [] → (getQueue s x.queue).held = [] →
      (∀ o s1 e s2, ringRoom (getQueue s x.queue) = true → dIrq x.desc = false →
        let q := getQueue s x.queue
        let b := splice (recordBytes s x) 17 [if bitOf q.ctail q.compLog2 then 0 else 1]
        xlate x.part .write (q.compBase + 32 * (q.ctail % 2 ^ q.compLog2)) s = (.ok o, s1) → o.ep = ownEp s1 →
        tryMem (.front x.part) .walker (.write o.addr (b.map some)) s1 = (.ok e, s2) →
        ∃ u, exec (.jobRetire j) s = .next u ∧ getJob? u j = none ∧ u.dram = s2.dram ∧
          (getQueue u x.queue).ctail = ((getQueue s2 x.queue).ctail + 1) % 65536) ∧
      (ringRoom (getQueue s x.queue) = false → ∃ u, exec (.jobRetire j) s = .next u ∧ getJob? u j = none ∧ u.dram = s.dram ∧
        (getQueue u x.queue).held = [(recordBytes s x, dIrq x.desc)])) ∧
    (∀ j x, getJob? s j = some x → x.ran = true → x.started + recoveryTime s x + 2 * jobBudgetUs s x * 1000 ≤ s.ptime → partState s x.part = 2 →
      exec (.jobBudgetExpiry j) s = .next (startFence x.part 5 .watchdog false (raiseEvent 0x0050 (leBytes 1 x.part ++ leBytes 1 3 ++
        leBytes 1 5 ++ zeros 5 ++ leBytes 8 s.ptime ++ leBytes 2 x.queue ++ leBytes 2 x.index) (setErrCause x.part 2 s))))

/-- nop, ctxOpen, ctxClose and ctxCloseComplete complete (R133, R378): NOP ends OK and changes nothing else, CTX_OPEN opens a CLOSED context and
answers its GEN, CTX_CLOSE closes an OPEN one under the next GEN and waits, and its completion ends it OK. DETAIL, and
RESULT where no rule gives it, are free values. -/
def Obligations.ContextsOpenAndClose : Prop :=
  ∀ (s : State) (j : Nat) (x : JobSt),
    let k := jobCtx x
    let c := getCtx s x.part k
    (JobRuns s j 0x00 x → ∃ u det res, exec (.nop j) s = .next u ∧ JobEnded u j .ok det res ∧
      u = { s with work := { s.work with jobs := u.work.jobs }, fresh := u.fresh }) ∧
    (JobRuns s j 0x08 x → c.isOpen = false → c.gen < 256 → ∃ u det, exec (.ctxOpen j) s = .next u ∧
      JobEnded u j .ok det c.gen ∧ getCtx u x.part k = { c with isOpen := true } ∧ u.dram = s.dram ∧ u.tiles = s.tiles) ∧
    (JobRuns s j 0x08 x → c.isOpen = true → ∃ u det res, exec (.ctxOpen j) s = .next u ∧ JobEnded u j .errPermission det res ∧
      u.work.parts = s.work.parts) ∧
    (JobRuns s j 0x09 x → c.isOpen = true → c.closing = none → ∃ u, exec (.ctxClose j) s = .next u ∧
      getCtx u x.part k = { isOpen := false, gen := (c.gen + 1) % 256, closing := some j } ∧ u.dram = s.dram ∧ u.tiles = s.tiles) ∧
    (JobRuns s j 0x09 x → c.isOpen = false → c.closing ≠ some j → ∃ u det res, exec (.ctxClose j) s = .next u ∧ JobEnded u j .ok det res ∧
      u.work.parts = s.work.parts) ∧
    (∀ p q, (getCtx s p q).closing = some j → getJob? s j = some x → x.phase = .running → ctxBusy s p q = false →
      fencing s p = false → ∃ u det res, exec (.ctxCloseComplete p q) s = .next u ∧ JobEnded u j .ok det res ∧
        getCtx u p q = { getCtx s p q with closing := none } ∧ u.dram = s.dram)

/-! ## Jobs of Bassoon, attention and the update engine (spec/14 R332, spec/07, spec/08) -/

/-- copy, fill and compare complete (R332, R333): the bytes of their last step are moved, written or compared, a job whose requests
are all answered then ends OK, and COMPARE gives the offset of the first difference; a body that fails a check ends the
job with the field's offset and moves nothing. -/
def Obligations.MoveJobsWorkThroughTheirBytes : Prop :=
  ∀ (s : State) (j : Nat) (x : JobSt), Answered x →
    let off := 32 * x.stage
    let len := (opd x 0).len
    let k := len - off
    (off < len → k ≤ 256 → k % 32 = 0 →
      (∀ d s1 e s2, JobRuns s j 0x01 x → moveCheck x.desc [32, 48] = none → operandsOverlap (opd x 0) (opd x 1) len = false →
        opRead j 0 0 (opd x 0) off k off s = (.ok d, s1) → opWrite j 0 (opd x 1) off 2 d off s1 = (.ok e, s2) →
        getJob? s2 j = some x → ∃ u det, exec (.copy j) s = .next u ∧ JobEnded u j .ok det 0 ∧ u.dram = s2.dram) ∧
      (∀ e s1, JobRuns s j 0x02 x → moveCheck x.desc [32] = none →
        opWrite j 0 (opd x 0) off 2 ((List.range k).map (fun i => x.desc.getD (48 + (off + i) % 8) 0)) off s = (.ok e, s1) →
        getJob? s1 j = some x → ∃ u det, exec (.fill j) s = .next u ∧ JobEnded u j .ok det 0 ∧
          u.dram = (markInit (coveredBlocks (ownEp s1) (opd x 0).exts) s1).dram) ∧
      (∀ a s1 b s2, JobRuns s j 0x03 x → moveCheck x.desc [32, 48] = none →
        opRead j 0 0 (opd x 0) off k off s = (.ok a, s1) → opRead j 0 1 (opd x 1) off k off s1 = (.ok b, s2) →
        a.length = k → b.length = k → getJob? s2 j = some x →
        (a = b → ∃ u, exec (.compare j) s = .next u ∧ JobEnded u j .ok (2 ^ 64 - 1) 0 ∧ u.dram = s2.dram) ∧
        ∀ i, i < k → a.getD i 0 ≠ b.getD i 0 → (∀ m, m < i → a.getD m 0 = b.getD m 0) → off + i < 2 ^ 64 →
          ∃ u, exec (.compare j) s = .next u ∧ JobEnded u j .ok (off + i) 1 ∧ u.dram = s2.dram)) ∧
    (∀ st o, moveCheck x.desc [32, 48] = some (st, o) →
      (JobRuns s j 0x01 x → ∃ u res, exec (.copy j) s = .next u ∧ JobEnded u j st o res ∧ u.dram = s.dram) ∧
      (JobRuns s j 0x03 x → ∃ u res, exec (.compare j) s = .next u ∧ JobEnded u j st o res ∧ u.dram = s.dram)) ∧
    (∀ st o, moveCheck x.desc [32] = some (st, o) → JobRuns s j 0x02 x → ∃ u res, exec (.fill j) s = .next u ∧
      JobEnded u j st o res ∧ u.dram = s.dram)

/-- kvSummarise, attendDense, attendBound and attendTopk complete (R160-R163, R170-R176): the last slot of a list gets its summary of maxima and minima and its
granules become VALID unless written meanwhile, the checks being made once; the last page of an ATTEND is read or, by the rule of its mode, skipped,
then the head's records are written and the job ends OK; a job that fails a check ends with that check's status and
field. -/
def Obligations.SummariseAndAttendFinishTheirPages : Prop :=
  ∀ (s : State) (j : Nat) (x : JobSt),
    (∀ i b bs e s1 s2 s3, let dim := kvDim (leAt x.desc 64 1)
      let c := leAt x.desc 65 1
      let off := leAt b 0 4 * keySlot dim c
      let n := kvElems dim c + kvScales dim c
      let gs := granulesOf (opd x 0) off (keySlot dim c)
      JobRuns s j 0x11 x → x.checked.isSome = true → x.stage = 2 * i + 1 → (opd x 1).len / 4 = i + 1 → i + 1 < 2 ^ 32 →
      listRead j 1 (4 * i) 4 s = (.ok b, s1) → leAt b 0 4 < (opd x 0).len / keySlot dim c →
      opRead j 0 0 (opd x 0) off n 0 s1 = (.ok bs, s2) →
      opWrite j 0 (opd x 0) (off + n) 2 (summaryRow f32Max dim c bs ++ summaryRow f32Min dim c bs) 0 s2 = (.ok e, s3) →
      getJob? s3 j = some x → tileShared s3 j = false → ∃ u det, exec (.kvSummarise j) s = .next u ∧ JobEnded u j .ok det (i + 1) ∧
        u.dram = (setGranules 2 (gs.filter (fun g => smGet 0 g s2.dram.summary == 1)) s3).dram) ∧
    (JobRuns s j 0x11 x → x.checked = none → kvCheck s x = none →
      exec (.kvSummarise j) s = .next (kvFrom j ((opd x 1).len / 2 + 2) (setChecked j [] s))) ∧
    (∀ st o, JobRuns s j 0x11 x → x.checked = none → kvCheck s x = some (st, o) → o < 2 ^ 64 → ∃ u res, exec (.kvSummarise j) s = .next u ∧
      JobEnded u j st o res ∧ u.dram = s.dram) ∧
    (∀ a p, AttendsLast s j x a p →
      (atMode x = 0 → ∀ b s1, readPage j x a p false s = (some b, s1) → HeadEnds (.attendDense j) s s1 j x b) ∧
      (atMode x = 1 → ∀ s0,
        (∀ us, eligible j x a p s = (.yes us, s0) →
          (boundSkips s0 x a us = true → HeadEnds (.attendBound j) s (skipPage x a s0).2 j x (skipPage x a s0).1) ∧
          (boundSkips s0 x a us = false → ∀ b s1, readPage j x a p false s0 = (some b, s1) → HeadEnds (.attendBound j) s s1 j x b)) ∧
        (eligible j x a p s = (.no, s0) → ∀ b s1, readPage j x a p true s0 = (some b, s1) → HeadEnds (.attendBound j) s s1 j x b)) ∧
      (atMode x = 2 →
        ((leftOut (atTopk x) a.scores).contains p = true ∧ noSkip a = false →
          HeadEnds (.attendTopk j) s (skipPage x a s).2 j x (skipPage x a s).1) ∧
        (¬ ((leftOut (atTopk x) a.scores).contains p = true ∧ noSkip a = false) →
          ∀ b s1, readPage j x a p (!a.cand.contains p) s = (some b, s1) → HeadEnds (.attendTopk j) s s1 j x b))) ∧
    (∀ c m, (c, m) ∈ [(Instr.attendDense j, 0), (Instr.attendBound j, 1), (Instr.attendTopk j, 2)] → JobRuns s j 0x10 x →
      (atMode x ≠ m → atMode x ≠ 3 → exec c s = .next s) ∧
      (∀ st o, atMode x = m ∨ atMode x = 3 → x.att = none → attCheck s x = some (st, o) → o < 2 ^ 64 →
        ∃ u res, exec c s = .next u ∧ JobEnded u j st o res ∧ u.dram = s.dram))

/-- optStepSgd, optStepAdamw and optStepEmitOnly complete (R180, R183-R188): the last row of a dense job takes its gradient, and by R185 SGD with momentum gives
M1 = b1 M1 + g and W = W - lr (M1 + wd W), AdamW its two moments and bias-corrected step, each operation rounded once; a
non-finite gradient under SKIP leaves the row as it was; EMIT_ONLY writes the row's output; the checks are made
once, and a failing one ends the job with its status and DETAIL. -/
def Obligations.OptimiserStepsUpdateTheirRows : Prop :=
  ∀ (s : State) (j k : Nat) (x : JobSt) (prm : Bytes), JobRuns s j 0x20 x →
    let d := x.desc
    let n := osN d
    let p (i : Nat) : BitVec 32 := wordAt prm i
    let at_ (i : Nat) : Nat := i * osPlane d + 4 * (k * n)
    (x.checked = some prm → Answered x → jobOut x 2 = 0 → (opd x 2).len = 0 → osMc d = false → x.stage = 2 * k →
      osRows d = k + 1 → x.count + 1 < 2 ^ 32 →
      (osEmits d = false → ∀ gb s1, opRead j 0 1 (opd x 1) (k * osGradRow d) (osGradRow d) (k * osGradRow d) s = (.ok gb, s1) →
        let g := gradRow (osGfmt d) n gb (p 28)
        ((osSkip d && g.any (fun v => !f32IsFinite v)) = false →
          (osAlg d = 0 → ∀ bs s2 e s3, readTogether j 0 (opd x 0) ((List.range 2).map (fun i => (at_ i, 4 * n))) s1 = (.ok bs, s2) →
            let w (c : Nat) : BitVec 32 := (wordsOf n (bs.getD 0 [])).getD c 0
            let m1 (c : Nat) : BitVec 32 := f32Fma (p 4) ((wordsOf n (bs.getD 1 [])).getD c 0) (g.getD c 0)
            let w1 (c : Nat) : BitVec 32 := f32Fma (f32Neg (p 0)) (f32Fma (p 24) (w c) (m1 c)) (w c)
            writeTogether j (opd x 0) [(at_ 0, wordBytes ((List.range n).map w1)), (at_ 1, wordBytes ((List.range n).map m1))] s2 = (.ok e, s3) →
            getJob? s3 j = some x → tileShared s3 j = false → ∃ u det, exec (.optStepSgd j) s = .next u ∧ JobEnded u j .ok det x.count ∧ u.dram = s3.dram) ∧
          (osAlg d = 1 → ∀ bs s2 e s3, readTogether j 0 (opd x 0) ((List.range 3).map (fun i => (at_ i, 4 * n))) s1 = (.ok bs, s2) →
            let w (c : Nat) : BitVec 32 := (wordsOf n (bs.getD 0 [])).getD c 0
            let m1 (c : Nat) : BitVec 32 := f32Fma (p 4) ((wordsOf n (bs.getD 1 [])).getD c 0) (f32Mul (p 8) (g.getD c 0))
            let m2 (c : Nat) : BitVec 32 :=
              f32Fma (p 12) ((wordsOf n (bs.getD 2 [])).getD c 0) (f32Mul (p 16) (f32Mul (g.getD c 0) (g.getD c 0)))
            let step (c : Nat) : BitVec 32 := f32Div (f32Mul (m1 c) (p 32)) (f32Add (f32Sqrt (f32Mul (m2 c) (p 36))) (p 20))
            let w1 (c : Nat) : BitVec 32 := f32Fma (f32Neg (p 0)) (f32Fma (p 24) (w c) (step c)) (w c)
            writeTogether j (opd x 0) [(at_ 0, wordBytes ((List.range n).map w1)), (at_ 1, wordBytes ((List.range n).map m1)),
              (at_ 2, wordBytes ((List.range n).map m2))] s2 = (.ok e, s3) →
            getJob? s3 j = some x → tileShared s3 j = false → ∃ u det, exec (.optStepAdamw j) s = .next u ∧ JobEnded u j .ok det x.count ∧ u.dram = s3.dram)) ∧
        ((osSkip d && g.any (fun v => !f32IsFinite v)) = true → getJob? s1 j = some x → tileShared s1 j = false →
          (osAlg d = 0 → ∃ u det, exec (.optStepSgd j) s = .next u ∧ JobEnded u j .ok det (x.count + 1) ∧ u.dram = s1.dram) ∧
          (osAlg d = 1 → ∃ u det, exec (.optStepAdamw j) s = .next u ∧ JobEnded u j .ok det (x.count + 1) ∧ u.dram = s1.dram))) ∧
      (osEmits d = true → osAlg d = 2 → ∀ b s1 e s2, let y := { x with stage := 2 * k + 1 }
        opRead j 0 0 (opd x 0) (4 * (k * n)) (4 * n) 0 (setStage j (2 * k + 1) s) = (.ok b, s1) →
        emitRanges j y prm (emitRow d prm (k + 1) k (wordsOf n b)) s1 = (.ok e, s2) → getJob? s2 j = some y → tileShared s2 j = false →
        ∃ u det, exec (.optStepEmitOnly j) s = .next u ∧ JobEnded u j .ok det x.count ∧ u.dram = s2.dram)) ∧
    (∀ c alg, (c, alg) ∈ [(Instr.optStepSgd j, 0), (Instr.optStepAdamw j, 1), (Instr.optStepEmitOnly j, 2)] →
      (osAlg d ≠ alg → osAlg d ≠ 3 → exec c s = .next s) ∧
      (osAlg d = alg ∨ osAlg d = 3 → x.checked = none →
        (∀ s1, optCheck j x s = (.ok prm, s1) → exec c s = .next (optFrom j prm (2 * osK x + 1) (setChecked j prm s1))) ∧
        (∀ st det s1, optCheck j x s = (.fail st det, s1) → getJob? s1 j = some x →
          ∃ u res, exec c s = .next u ∧ JobEnded u j st (det % 2 ^ 64) res ∧ u.dram = s1.dram) ∧
        (∀ st s1, optCheck j x s = (.unread st, s1) → getJob? s1 j = some x →
          ∃ u det, exec c s = .next u ∧ JobEnded u j st det 0 ∧ u.dram = s1.dram)))

/-- gradAccum, scatterAdd, embGather and reductionPacket complete (R189-R196): the last row or index of a job is added, or
gathered and written, and RESULT counts what was done; a reduction packet adds its addends to the lanes of one line that
its mask enables, or stores them. -/
def Obligations.RowsAreAccumulatedScatteredAndGathered : Prop :=
  (∀ (s : State) (j k : Nat) (x : JobSt), Answered x → x.stage = k → k + 1 < 2 ^ 32 →
    let d := x.desc
    (∀ gb s1 e s2, let row := elemBytes (gaFmt d) (gaN d)
      JobRuns s j 0x21 x → x.checked.isSome = true → (opd x 2).len = 0 → leAt d 80 4 = k + 1 →
      opRead j 0 1 (opd x 1) (k * row) row (k * row) s = (.ok gb, s1) →
      reduceRow j x (opd x 0) (k * gaN d * 4) (gradRow (gaFmt d) (gaN d) gb (wordAt d 88)) (leAt d 87 1 == 1) s1 = (.ok e, s2) →
      getJob? s2 j = some x → tileShared s2 j = false → ∃ u det, exec (.gradAccum j) s = .next u ∧ JobEnded u j .ok det (k + 1) ∧ u.dram = s2.dram) ∧
    (∀ ob s0 r w s1 gb s2 e s3, let offs := bagOffsets x ob
      let row := elemBytes (ixFmt d) (ixN d)
      let b := bagOf offs k
      JobRuns s j 0x22 x → x.checked = some ob →
      bagRows j x (if k = offs.getD b 0 then offs.getD (b + 1) 0 - k else 0) k s = (.ok [], s0) → ixCount x = k + 1 → indexAt j x k s0 = (.ok (r, w), s1) → r < ixRows x →
      opRead j 0 4 (opd x 4) (b * row) row (b * row) s1 = (.ok gb, s2) →
      reduceRow j x (opd x 0) (r * ixStride d) (scatterAddends x gb w (offs.getD (b + 1) 0 - offs.getD b 0)) false s2 = (.ok e, s3) →
      getJob? s3 j = some x → tileShared s3 j = false → ∃ u det, exec (.scatterAdd j) s = .next u ∧ JobEnded u j .ok det (k + 1) ∧ u.dram = s3.dram) ∧
    (∀ ob acc s1 e s2, let offs := bagOffsets x ob
      let row := elemBytes (embOfmt d) (ixN d)
      let c := offs.getD (k + 1) 0 - offs.getD k 0
      JobRuns s j 0x30 x → x.checked = some ob → ixBags x = k + 1 →
      gatherBag j x (embPool x) c (offs.getD k 0) (List.replicate (ixN d) (if embPool x = 2 then f32NegInf else 0)) s = (.ok acc, s1) →
      opWrite j 1 (opd x 4) (k * row) 2 (gatherOut d (embPool x) c acc) 0 s1 = (.ok e, s2) →
      getJob? s2 j = some x → tileShared s2 j = false → ∃ u det, exec (.embGather j) s = .next u ∧ JobEnded u j .ok det (k + 1) ∧ u.dram = s2.dram) ∧
    -- the checks at dispatch are made once: those of the fields, then the bag offsets
    (x.checked = none →
      (JobRuns s j 0x21 x → gradCheck s x = none → exec (.gradAccum j) s = .next (gradFrom j (gaK x + 1) (setChecked j [] s))) ∧
      ((opd x 2).len = 0 → offsetsBad (ixCount x) (List.range (ixCount x + 1)) = none →
        (JobRuns s j 0x22 x → scatterCheck s x = none → exec (.scatterAdd j) s =
          .next (scatterFrom j (List.range (ixCount x + 1)) (ixCount x + 1) (setChecked j [] s))) ∧
        (JobRuns s j 0x30 x → embCheck s x = none → exec (.embGather j) s =
          .next (gatherFrom j (List.range (ixCount x + 1)) (ixBags x + 1) (setChecked j [] s))))) ∧
    (∀ st o, o < 2 ^ 64 → x.checked = none →
      (JobRuns s j 0x21 x → gradCheck s x = some (st, o) → ∃ u res, exec (.gradAccum j) s = .next u ∧ JobEnded u j st o res ∧ u.dram = s.dram) ∧
      (JobRuns s j 0x22 x → scatterCheck s x = some (st, o) → ∃ u res, exec (.scatterAdd j) s = .next u ∧ JobEnded u j st o res ∧ u.dram = s.dram) ∧
      (JobRuns s j 0x30 x → embCheck s x = some (st, o) → ∃ u res, exec (.embGather j) s = .next u ∧ JobEnded u j st o res ∧ u.dram = s.dram))) ∧
  (∀ (s : State) (t line tag : Nat) (a : List (BitVec 32)), poolQuiet s → lineFree s line →
    (∀ mask : BitVec 16, ∃ u, exec (.reductionPacket t line a mask false tag) s = .next u ∧
      u.outbox = s.outbox ++ [.memAnswer tag .ok []] ∧
      lineWritten s u line (((List.range 16).map (fun i => let v := BitVec.ofNat 32 (leAt (lineData s line) (4 * i) 4)
        leBytes 4 (if mask.getLsbD i then f32Add v (a.getD i 0) else v).toNat)).flatten) 0) ∧
    ∃ u, exec (.reductionPacket t line a 0xFFFF#16 true tag) s = .next u ∧ u.outbox = s.outbox ++ [.memAnswer tag .ok []] ∧
      lineWritten s u line (((List.range 16).map (fun i => leBytes 4 (a.getD i 0).toNat)).flatten) 0)

/-- expertStream and expertGroupClose complete (R197-R201): a job joins the open group that matches it, opens one while the limits
allow it, and ends by the mask it named once its group has sent the blob and every member of its mask has acknowledged; a
group closes when its window has passed and then sends the blob. -/
def Obligations.ExpertStreamsCoalesceIntoGroups : Prop :=
  ∀ (s : State) (j k : Nat) (x : JobSt),
    (JobRuns s j 0x40 x → groupOf s j = none → smFind? j s.work.groups = none → expertCheck s x = none → expertWindow s x ≠ 0 →
      (openGroupFor s x = some k → exec (.expertStream j) s = .next (updGroup k (fun g => { g with jobs := g.jobs ++ [j] })
        (pbump x.part 0x6620 6 1 (pbump x.part 0x6620 5 1 s)))) ∧
      (openGroupFor s x = none → let opened := s.work.groups.filter (fun e => !e.2.closed)
        (opened.filter (fun e => e.2.part == x.part)).length < obj s 0x4620 (x.part + 1) → opened.length < 64 →
        exec (.expertStream j) s = .next (putGroup j {
            part := x.part, jobs := [j], closeAt := x.started + expertWindow s x * 1000,
            closed := false, sent := 0, outstanding := 0, skipped := 0, failed := 0, err := none } (pbump x.part 0x6620 5 1 s)))) ∧
    (∀ st o, JobRuns s j 0x40 x → groupOf s j = none → expertCheck s x = some (st, o) → o < 2 ^ 64 →
      ∃ u res, exec (.expertStream j) s = .next u ∧ JobEnded u j st o res ∧ u.dram = s.dram) ∧
    (∀ g first, JobRuns s j 0x40 x → groupOf s j = some (k, g) → smFind? k s.work.groups = some g → g.closed = true →
      getJob? s k = some first → (opd first 0).len ≤ 32 * g.sent → (opd x 0).len ≤ 32 * g.sent → g.err = none →
      groupOwes s k (exMask x.desc) (exWin x.desc) = false →
      let mask := exMask x.desc
      let sk := windowBits g.skipped (exWin x.desc) &&& mask
      let bad := windowBits g.failed (exWin x.desc) &&& mask
      ∃ u, exec (.expertStream j) s = .next u ∧ JobEnded u j
        (if bad ≠ 0 then .errLink else if sk = 0 then .ok else if sk = mask then .fenced else .partly) sk (ones64 mask - ones64 sk) ∧
        groupOf u j = none ∧ u.dram = s.dram) ∧
    (∀ g b s1 s2 g3, let s0 := updGroup k (fun g => { g with closed := true }) s
      let len := (opd x 0).len
      let s3 := updGroup k (fun g => { g with sent := g.sent + len / 32 }) s2
      smFind? k s.work.groups = some g → g.closed = false → g.closeAt ≤ s.ptime → fencing s g.part = false →
      getJob? s k = some x → x.phase = .running → g.sent = 0 → 32 ≤ len → len ≤ 256 → opRead k 0 0 (opd x 0) 0 len 0 s0 = (.ok b, s1) →
      mcWrite k 2 (groupMask s0 { g with closed := true }) (exWin x.desc) (opd x 1) 0 b s1 = (true, s2) →
      getJob? s3 k = some x → smFind? k s3.work.groups = some g3 → len ≤ 32 * g3.sent → g3.err = none →
      groupOwes s3 k (exMask x.desc) (exWin x.desc) = true → exec (.expertGroupClose k) s = .next s3) ∧
    (∀ g, smFind? k s.work.groups = some g → g.closed = true ∨ s.ptime < g.closeAt ∨ fencing s g.part = true →
      exec (.expertGroupClose k) s = .next s)

/-! ## Tile programs (spec/09) -/

/-- Every field of an instruction word reads back from the word (R212, Table 9-5): no bit of a field is dropped or shared,
in any of the five formats, at every value the field can hold. -/
def Obligations.TileProgramWordsKeepEveryField : Prop :=
  ∀ (op pg rd ra rb rc fmt md imm disp pt cond off sid opd_ pm red : Nat) (pn : Bool),
    op < 256 → pg < 8 → rd < 32 → ra < 32 → rb < 32 → rc < 32 → fmt < 16 → md < 256 → imm < 2 ^ 32 → disp < 2 ^ 18 →
    pt < 8 → cond < 4 → off < 2 ^ 32 → sid < 16 → opd_ < 4 → pm < 8 → red < 4 →
    (∀ w ∈ [encR op pn pg rd ra rb rc fmt md, encI op pn pg rd ra imm, encM op pn pg rd ra rb fmt disp,
        encB op pn pg pt cond off, encS op pn pg sid opd_ ra rb rc pm red],
      w < 2 ^ 64 ∧ wOp w = op ∧ wPn w = pn ∧ wPg w = pg) ∧
    (let w := encR op pn pg rd ra rb rc fmt md
     wRd w = rd ∧ wRa w = ra ∧ wRb w = rb ∧ wRc w = rc ∧ wFmt w = fmt ∧ wMod w = md ∧ field w 19 0 = 0) ∧
    (let w := encI op pn pg rd ra imm
     wRd w = rd ∧ wRa w = ra ∧ wImm w = imm ∧ field w 41 32 = 0) ∧
    (let w := encM op pn pg rd ra rb fmt disp
     wRd w = rd ∧ wRa w = ra ∧ wRb w = rb ∧ wFmt w = fmt ∧ wDisp w = disp ∧ field w 36 32 = 0 ∧ field w 27 18 = 0) ∧
    (let w := encB op pn pg pt cond off
     field w 51 49 = pt ∧ field w 48 47 = cond ∧ field w 31 0 = off ∧ field w 46 32 = 0) ∧
    (let w := encS op pn pg sid opd_ ra rb rc pm red
     field w 51 48 = sid ∧ field w 47 46 = opd_ ∧ field w 45 41 = ra ∧ field w 40 36 = rb ∧ field w 35 31 = rc ∧
     field w 30 28 = pm ∧ field w 27 26 = red ∧ field w 25 0 = 0)

/-- The scalar instructions of Table 9-6 (R213) write the one register they name with the value the table gives, when some
guard lane is 1 (R204), move PC to the next word, and change nothing else of the module. -/
def Obligations.ScalarInstructionsWriteTheirRegister : Prop :=
  ∀ (s : State) (t j : Nat) (x : JobSt) (pn : Bool) (pg rd ra rb cmp imm : Nat),
    pg < 8 → rd < 32 → ra < 32 → rb < 32 → cmp < 6 → imm < 2 ^ 32 →
    let a := sReg (getTile s t) ra
    let b := sReg (getTile s t) rb
    let sext := (BitVec.ofNat 32 imm).signExtend 64
    let runsTo (w : Nat) (i : Instr) (f : TileSt → TileSt) : Prop :=
      Executes s t j x w → exec i s = .next (issued t pn pg f s)
    let R (op : Nat) : Nat := encR op pn pg rd ra rb 0 0 0
    runsTo (R 0x10) (.add t pn pg rd ra rb) (setS rd (a + b)) ∧
    runsTo (R 0x11) (.sub t pn pg rd ra rb) (setS rd (a - b)) ∧
    runsTo (R 0x12) (.mul t pn pg rd ra rb) (setS rd (a * b)) ∧
    runsTo (R 0x13) (.andOp t pn pg rd ra rb) (setS rd (a &&& b)) ∧
    runsTo (R 0x14) (.orOp t pn pg rd ra rb) (setS rd (a ||| b)) ∧
    runsTo (R 0x15) (.xor t pn pg rd ra rb) (setS rd (a ^^^ b)) ∧
    runsTo (R 0x16) (.shl t pn pg rd ra rb) (setS rd (a <<< (b.toNat % 64))) ∧
    runsTo (R 0x17) (.shr t pn pg rd ra rb) (setS rd (a >>> (b.toNat % 64))) ∧
    runsTo (R 0x18) (.sar t pn pg rd ra rb) (setS rd (a.sshiftRight (b.toNat % 64))) ∧
    runsTo (encI 0x19 pn pg rd ra imm) (.addi t pn pg rd ra imm) (setS rd (a + sext)) ∧
    runsTo (encI 0x1A pn pg rd 0 imm) (.li t pn pg rd imm) (setS rd sext) ∧
    runsTo (encI 0x1B pn pg rd 0 imm) (.lih t pn pg rd imm)
      (setS rd (BitVec.ofNat 64 (imm * 2 ^ 32 + (sReg (getTile s t) rd).toNat % 2 ^ 32))) ∧
    runsTo (encR 0x1C pn pg rd ra rb 0 0 cmp) (.scmp t pn pg rd ra rb cmp)
      (setP rd (if (cmp = 0 ∧ a = b) ∨ (cmp = 1 ∧ a ≠ b) ∨ (cmp = 2 ∧ a.toNat < b.toNat) ∨ (cmp = 3 ∧ b.toNat ≤ a.toNat) ∨
          (cmp = 4 ∧ a.toInt < b.toInt) ∨ (cmp = 5 ∧ b.toInt ≤ a.toInt) then BitVec.allOnes 64 else 0)) ∧
    runsTo (encI 0x00 pn pg 0 0 0) (.nopInstruction t pn pg) id

/-- BR, SWAIT, SFENCE and HALT (R211, R213, R223): where the program goes on, when it waits, and how HALT ends its job. -/
def Obligations.ControlInstructionsSteerTheProgram : Prop :=
  ∀ (s : State) (t j : Nat) (x : JobSt) (pn : Bool) (pg : Nat), pg < 8 →
    let y := getTile s t
    let g := guardBitsOf s t pn pg
    (∀ pt cond off, pt < 8 → cond < 4 → off < 2 ^ 32 → Executes s t j x (encB 0x02 pn pg pt cond off) →
      let p := pReg y pt
      let taken : Prop := g ≠ 0 ∧ (cond = 0 ∨ (cond = 1 ∧ p ≠ 0) ∨ (cond = 2 ∧ p = 0) ∨ (cond = 3 ∧ p = BitVec.allOnes 64))
      let dest : Int := y.pc + (BitVec.ofNat 32 off).toInt
      (taken → 0 ≤ dest → dest < 8192 →
        exec (.br t pn pg pt cond off) s = .next (updTile t (fun z => { z with pc := dest.toNat }) s)) ∧
      (¬ taken → exec (.br t pn pg pt cond off) s = .next (updTile t (fun z => { z with pc := z.pc + 1 }) s)) ∧
      (taken → (dest < 0 ∨ 8192 ≤ dest) → y.streams = [] → jobOut x 1 = 0 →
        ∃ u, exec (.br t pn pg pt cond off) s = .next u ∧ (getTile u t).job = none ∧ sameMemory s u ∧
          JobEnded u j .errFormat (2 ^ 62 + 0x01 * 2 ^ 40 + y.pc) 0)) ∧
    (∀ imm, imm < 2 ^ 16 → Executes s t j x (encI 0x26 pn pg 0 0 imm) →
      exec (.swait t pn pg imm) s = .next
        (if g ≠ 0 ∧ ∃ e ∈ y.streams, bitOf imm e.1 = true then s else updTile t (fun z => { z with pc := z.pc + 1 }) s)) ∧
    (Executes s t j x (encI 0x27 pn pg 0 0 0) →
      exec (.sfence t pn pg) s = .next
        (if g ≠ 0 ∧ ¬ (y.streams = [] ∧ jobOut x 1 = 0) then s else updTile t (fun z => { z with pc := z.pc + 1 }) s)) ∧
    (∀ ra rb stat, ra < 32 → rb < 32 → Executes s t j x (encR 0x01 pn pg 0 ra rb 0 0 (b2n stat)) →
      let st : Status := if stat then .partly else .ok
      let res := (sReg y ra).toNat % 2 ^ 32
      let det := (sReg y rb).toNat
      (g = 0 → exec (.halt t pn pg ra rb stat) s = .next (updTile t (fun z => { z with pc := z.pc + 1 }) s)) ∧
      (g ≠ 0 → y.streams = [] → jobOut x 1 = 0 → exec (.halt t pn pg ra rb stat) s = .next
        (updJob j (fun z => { z with phase := .ended, status := st, detail := det, result := res, reason := 0 })
          (updTile t (fun z => { z with job := none, ending := none }) s))) ∧
      (g ≠ 0 → ¬ (y.streams = [] ∧ jobOut x 1 = 0) → exec (.halt t pn pg ra rb stat) s = .next
        (updTile t (fun z => { z with ending := some (st, det, res) }) s)))

/-- The vector instructions of Table 9-6 (R213) write the lanes of vRD whose guard is 1 with the value the table gives of
the same lanes of their sources (R204), move PC to the next word, and change nothing else; VRED writes its scalar
register. -/
def Obligations.VectorInstructionsWriteGuardedLanes : Prop :=
  ∀ (s : State) (t j : Nat) (x : JobSt) (pn : Bool) (pg rd ra rb rc imm op : Nat),
    pg < 8 → rd < 32 → ra < 32 → rb < 32 → rc < 8 → imm < 2 ^ 32 → op < 3 →
    let y := getTile s t
    let A (i : Nat) : BitVec 32 := (vReg y ra).getD i 0
    let B (i : Nat) : BitVec 32 := (vReg y rb).getD i 0
    let C (i : Nat) : BitVec 32 := (vReg y rc).getD i 0
    let runsTo (w : Nat) (i : Instr) (v : Nat → BitVec 32) : Prop :=
      Executes s t j x w → exec i s = .next (issuedLanes t (putLanes (guardBitsOf s t pn pg) rd v) s)
    let R (o : Nat) : Nat := encR o pn pg rd ra rb 0 0 0
    runsTo (R 0x30) (.vadd t pn pg rd ra rb) (fun i => f32Add (A i) (B i)) ∧
    runsTo (R 0x31) (.vsub t pn pg rd ra rb) (fun i => f32Sub (A i) (B i)) ∧
    runsTo (R 0x32) (.vmul t pn pg rd ra rb) (fun i => f32Mul (A i) (B i)) ∧
    runsTo (encR 0x33 pn pg rd ra rb rc 0 0) (.vfma t pn pg rd ra rb rc) (fun i => f32Fma (A i) (B i) (C i)) ∧
    runsTo (R 0x34) (.vdiv t pn pg rd ra rb) (fun i => f32Div (A i) (B i)) ∧
    runsTo (encR 0x35 pn pg rd ra 0 0 0 0) (.vsqrt t pn pg rd ra) (fun i => f32Sqrt (A i)) ∧
    runsTo (R 0x36) (.vmax t pn pg rd ra rb) (fun i => f32Max (A i) (B i)) ∧
    runsTo (R 0x37) (.vmin t pn pg rd ra rb) (fun i => f32Min (A i) (B i)) ∧
    runsTo (encR 0x38 pn pg rd ra 0 0 0 0) (.vexp2 t pn pg rd ra) (fun i => f32Exp2 (A i)) ∧
    runsTo (encR 0x3A pn pg rd ra rb rc 0 0) (.vsel t pn pg rd ra rb rc)
      (fun i => if (pReg y rc).getLsbD i then A i else B i) ∧
    runsTo (encR 0x3C pn pg rd ra 0 0 0 0) (.vbcast t pn pg rd ra) (fun _ => (sReg y ra).setWidth 32) ∧
    runsTo (encI 0x3D pn pg rd 0 imm) (.viota t pn pg rd imm)
      (fun i => f32OfInt (Int.ofNat i + (BitVec.ofNat 32 imm).toInt)) ∧
    (Executes s t j x (encR 0x3B pn pg rd ra 0 0 0 op) → exec (.vred t pn pg rd ra op) s = .next (issued t pn pg
      (setS rd ((laneTree (if op = 0 then f32Add else if op = 1 then f32Max else f32Min) (vReg y ra)).setWidth 64)) s))

/-- The predicate instructions of Table 9-6 (R213) write the lanes of pRD whose guard is 1 (R204), p0 reading all ones and
keeping its value (R203), move PC to the next word, and change nothing else; PTOS writes its scalar register. -/
def Obligations.PredicateInstructionsWriteGuardedLanes : Prop :=
  ∀ (s : State) (t j : Nat) (x : JobSt) (pn : Bool) (pg rd ra rb cmp : Nat),
    pg < 8 → rd < 8 → ra < 32 → rb < 32 → cmp < 6 →
    let y := getTile s t
    let pa := pReg y ra
    let pb := pReg y rb
    let runsTo (w : Nat) (i : Instr) (v : BitVec 64) : Prop :=
      Executes s t j x w → exec i s = .next (issuedLanes t (putPred (guardBitsOf s t pn pg) rd v) s)
    runsTo (encR 0x50 pn pg rd ra rb 0 0 0) (.pand t pn pg rd ra rb) (pa &&& pb) ∧
    runsTo (encR 0x51 pn pg rd ra rb 0 0 0) (.por t pn pg rd ra rb) (pa ||| pb) ∧
    runsTo (encR 0x52 pn pg rd ra rb 0 0 0) (.pxor t pn pg rd ra rb) (pa ^^^ pb) ∧
    runsTo (encR 0x53 pn pg rd ra 0 0 0 0) (.pnot t pn pg rd ra) (~~~ pa) ∧
    (∀ v : BitVec 64, (∀ i, i < 64 → v.getLsbD i = decide (i < (sReg y ra).toNat)) →
      runsTo (encR 0x54 pn pg rd ra 0 0 0 0) (.psetn t pn pg rd ra) v) ∧
    runsTo (encR 0x56 pn pg rd ra 0 0 0 0) (.pfroms t pn pg rd ra) (sReg y ra) ∧
    (∀ v : BitVec 64, (∀ i, i < 64 →
        v.getLsbD i = vcmpHolds cmp ((vReg y ra).getD i 0) ((vReg y rb).getD i 0)) →
      runsTo (encR 0x39 pn pg rd ra rb 0 0 cmp) (.vcmp t pn pg rd ra rb cmp) v) ∧
    (Executes s t j x (encR 0x55 pn pg rd ra 0 0 0 0) →
      exec (.ptos t pn pg rd ra) s = .next (issued t pn pg (setS rd pa) s)) ∧
    pReg y 0 = BitVec.allOnes 64 ∧ (∀ v, setP 0 v y = y)

/-- Scratch memory, the accumulators and the faults of an access to scratch (R213, R214, R218, R224): LDX and STX read and
write 2^SIZE scratch bytes, VLD and VST 64 elements, MZERO, MRD, MWR and MMA an accumulator; a byte beyond scratch or a
misaligned address ends the program with the status of Table 9-7. No stream is outstanding. -/
def Obligations.ScratchAndMatrixInstructionsActOnTheTile : Prop :=
  ∀ (s : State) (t j : Nat) (x : JobSt) (pn : Bool) (pg rd ra rb rc fmt fmtB size disp k : Nat),
    pg < 8 → rd < 32 → ra < 32 → rb < 32 → rc < 32 → fmt < 16 → fmtB < 16 → size < 4 → disp < 2 ^ 18 → k < 8 →
    (getTile s t).streams = [] → jobOut x 1 = 0 →
    let y := getTile s t
    let g := guardBitsOf s t pn pg
    let a := (sReg y ra).toNat
    let n := 2 ^ size
    let byte (i : Nat) : Byte := smGet 0 i y.scratch
    let bytes (i len : Nat) : Bytes := (List.range len).map (fun q => byte (i + q))
    let mx := (fmtIsMx fmt) = true
    let elemsAt := a + disp
    let scaleAt := (sReg y rb).toNat
    let lanesFit : Prop := elemsAt % 16 = 0 ∧ elemsAt + 8 * fmtBits fmt ≤ 262144 ∧ (mx → scaleAt + 2 ≤ 262144)
    -- LDX and STX, and their faults
    (Executes s t j x (encR 0x22 pn pg rd ra 0 0 0 size) →
      (a % n = 0 → a + n ≤ 262144 → exec (.ldx t pn pg rd ra size) s =
        .next (issued t pn pg (setS rd (BitVec.ofNat 64 (ofLe (bytes a n)))) s)) ∧
      (g ≠ 0 → a % n ≠ 0 → ∃ u, exec (.ldx t pn pg rd ra size) s = .next u ∧ (getTile u t).job = none ∧ sameMemory s u ∧
        JobEnded u j .errAlign (2 ^ 62 + 0x05 * 2 ^ 40 + y.pc) 0) ∧
      (g ≠ 0 → a % n = 0 → 262144 < a + n → ∃ u, exec (.ldx t pn pg rd ra size) s = .next u ∧
        (getTile u t).job = none ∧ sameMemory s u ∧ JobEnded u j .errFormat (2 ^ 62 + 0x02 * 2 ^ 40 + y.pc) 0)) ∧
    (Executes s t j x (encR 0x23 pn pg 0 ra rb 0 0 size) → a % n = 0 → a + n ≤ 262144 →
      ∃ u, exec (.stx t pn pg ra rb size) s = .next (issued t pn pg (fun _ => u) s) ∧
        u = { y with scratch := u.scratch } ∧
        ∀ i, smGet 0 i u.scratch = if a ≤ i ∧ i < a + n then (leBytes n (sReg y rb).toNat).getD (i - a) 0 else byte i) ∧
    -- VLD and VST
    (fmtBits fmt ≠ 0 → lanesFit → Executes s t j x (encM 0x3E pn pg rd ra rb fmt disp) →
      exec (.vld t pn pg rd ra rb fmt disp) s = .next (issuedLanes t (putLanes g rd (fun i =>
        let e := elemAt (bytes elemsAt (8 * fmtBits fmt)) (fmtBits fmt) i
        if mx then widenMx fmt e (byte (scaleAt + i / 32)).toNat else widen fmt e)) s)) ∧
    (fmtBits fmt ≠ 0 → lanesFit → Executes s t j x (encM 0x3F pn pg rd ra rb fmt disp) →
      (mx → exec (.vst t pn pg rd ra rb fmt disp) s = .next (issued t pn pg (fun z =>
        let q0 := mxQuantise fmt (List.replicate 32 .nearest) ((vReg z rd).take 32)
        let q1 := mxQuantise fmt (List.replicate 32 .nearest) ((vReg z rd).drop 32)
        writeScratch scaleAt [BitVec.ofNat 8 q0.1, BitVec.ofNat 8 q1.1]
          (writeScratch elemsAt (packElems (fmtBits fmt) (q0.2 ++ q1.2)) z)) s)) ∧
      (¬ mx → ∃ u, exec (.vst t pn pg rd ra rb fmt disp) s = .next (issuedLanes t (fun _ => u) s) ∧
        u = { y with scratch := u.scratch } ∧
        ∀ i, smGet 0 i u.scratch =
          let m := fmtBits fmt / 8
          let lane := (i - elemsAt) / m
          if elemsAt ≤ i ∧ i < elemsAt + 64 * m ∧ g.getLsbD lane = true
          then (leBytes m (narrow fmt .nearest ((vReg y rd).getD lane 0))).getD ((i - elemsAt) % m) 0 else byte i)) ∧
    -- accumulators
    (Executes s t j x (encI 0x40 pn pg rd 0 0) → exec (.mzero t pn pg rd) s = .next (issued t pn pg (setA rd accZero) s)) ∧
    (Executes s t j x (encI 0x42 pn pg rd ra k) → exec (.mrd t pn pg rd ra k) s =
      .next (issued t pn pg (setV rd (((aReg y ra).drop (64 * k)).take 64)) s)) ∧
    (Executes s t j x (encI 0x43 pn pg rd ra k) → exec (.mwr t pn pg rd ra k) s =
      .next (issued t pn pg (setA rd ((aReg y rd).take (64 * k) ++ vReg y ra ++ (aReg y rd).drop (64 * k + 64))) s)) ∧
    (Executes s t j x (encR 0x41 pn pg rd ra rb rc fmt (fmtB * 16)) →
      let c := (sReg y rc).toNat
      let K := c % 2 ^ 16
      K ≠ 0 → c < 2 ^ 52 → ¬ mx → a % 8 = 0 → scaleAt % 8 = 0 → a + packedLen fmt (16 * K) ≤ 262144 →
      scaleAt + packedLen fmtB (32 * K) ≤ 262144 → ¬ fmtIsMx fmtB = true →
      let as := mmaRows fmt K 16 (bytes a (packedLen fmt (16 * K))) []
      let bs := mmaRows fmtB K 32 (bytes scaleAt (packedLen fmtB (32 * K))) []
      exec (.mma t pn pg rd ra rb rc fmt fmtB) s = .next (issued t pn pg (setA rd ((List.range 512).map (fun e =>
        dotFrom false false ((aReg y rd).getD e 0) ((as.getD (e / 32) []).zip (bs.getD (e % 32) []))))) s))

/-- LDS, STS, SLD, SST and the end of a stream (R213, R215-R217, R222, R227): a local load or store goes through the tile's
cache, which notes the way as the one used last, a stream is held by its SID until it ends, and its end puts its rows into scratch. -/
def Obligations.OperandInstructionsReachTheirOperand : Prop :=
  ∀ (s : State) (t j : Nat) (x : JobSt) (pn : Bool) (pg : Nat), pg < 8 → guardBitsOf s t pn pg ≠ 0 →
    let y := getTile s t
    -- LDS and STS of a local line the cache holds, in its one extent, with no outstanding stream
    (∀ (rd ra rb o size : Nat) (e : Ext) (c : CacheLine), rd < 32 → ra < 32 → rb < 32 → o < 4 → size < 4 →
      y.streams = [] → s.coh.tagFaults.contains t = false → (opd x o).exts = [e] → (opd x o).len = e.len → e.ep = ownEp s →
      e.addr % 64 = 0 →
      let n := 2 ^ size
      let off := (sReg y ra).toNat
      let line := (e.addr + off) / 64
      off % n = 0 → off + n ≤ e.len → fillError? s j line = none → cacheLine? s t line = some c → c.fault = .none →
      let used := touchLine t line c.way s
      ((opd x o).kind ≠ .write → (c.st = .s ∨ c.st = .e ∨ c.st = .m ∨ c.st = .smD) →
        Executes s t j x (encR 0x20 pn pg rd ra 0 0 0 (o * 16 + size)) →
        exec (.lds t pn pg rd ra o size) s = .next (issued t pn pg
          (setS rd (BitVec.ofNat 64 (leAt c.data ((e.addr + off) % 64) n))) used)) ∧
      ((opd x o).kind ≠ .read → (c.st = .e ∨ c.st = .m) → lineDuplex s line = false →
        Executes s t j x (encR 0x21 pn pg 0 ra rb 0 0 (o * 16 + size)) →
        exec (.sts t pn pg ra rb o size) s = .next (updTile t (fun z => { z with pc := z.pc + 1 })
          (putLine t line { c with st := .m, data := splice c.data ((e.addr + off) % 64) (leBytes n (sReg y rb).toNat) } used)))) ∧
    -- SLD and SST of one row, with no outstanding stream
    (∀ (sid o ra rb rc pm : Nat) (e : Ext), sid < 16 → o < 4 → ra < 32 → rb < 32 → rc < 32 → pm < 8 →
      y.streams = [] → 0 < obj s 0x4630 (x.part + 1) → (opd x o).exts = [e] → e.ep = ownEp s →
      let scr := (sReg y ra).toNat
      let off := (sReg y rb).toNat
      let shape := (sReg y rc).toNat
      let row := shape % 2 ^ 20
      shape / 2 ^ 20 = 1 → row ≠ 0 → row % 32 = 0 → row ≤ 262144 → scr % 32 = 0 → off % 32 = 0 → scr + row ≤ 262144 →
      off + row ≤ (opd x o).len → (opd x o).len = e.len →
      let stream (store : Bool) : Stream :=
        { store := store, opd := o, scr := scr, off := off, rowBytes := row, rows := 1, stride := 0
          mask := (pReg y pm).toNat, red := false, pc := y.pc
          snap := if store then (List.range row).map (fun i => smGet 0 (scr + i) y.scratch) else []
          got := [], clash := [], sent := false }
      let after (store : Bool) : State :=
        updTile t (fun z => { z with streams := [(sid, stream store)], pc := z.pc + 1 }) s
      ((opd x o).kind ≠ .write → Executes s t j x (encS 0x24 pn pg sid o ra rb rc pm 0) →
        exec (.sld t pn pg sid o ra rb rc pm) s = .next (after false)) ∧
      ((opd x o).kind ≠ .read → Executes s t j x (encS 0x25 pn pg sid o ra rb rc pm 0) →
        exec (.sst t pn pg sid o ra rb rc pm 0) s = .next (after true))) ∧
    -- a load stream whose mask names no row ends at once: it leaves the tile
    (∀ (sid : Nat) (st : Stream), RunsProgram s t j x → smFind? sid y.streams = some st → st.mask = 0 → st.store = false →
      jobOut x (16 + sid) = 0 →
      ∃ u, exec (.streamEnd t sid) s = .next u ∧ sameMemory s u ∧ smFind? sid (getTile u t).streams = none ∧
        (getTile u t).scratch = y.scratch ∧ (getTile u t).pc = y.pc ∧ (getTile u t).s = y.s)

/-- PROG_LOAD and PROG_RUN (R203, R206-R208): a load whose image passes the check writes it into program memory in full; a
bad word ends it with ERR_FORMAT and changes no program memory; a run starts at ENTRY with cleared registers. -/
def Obligations.ProgramJobsLoadAndStart : Prop :=
  ∀ (s : State) (j : Nat) (x : JobSt),
    (∀ ws s1, JobRuns s j 0x50 x → loadCheck s x = none → loadWords j x 256 0 [] s = (.ok ws, s1) →
      ∃ u, exec (.progLoad j) s = .next u ∧
        (getTile u x.tile).prog = putProg (leAt x.desc 48 2) ws (getTile s1 x.tile).prog ∧
        obj u 0x3610 (x.tile + 1) = leAt x.desc 50 2 ∧ (∀ t, t ≠ x.tile → getTile u t = getTile s1 t) ∧
        sameMemory s1 u) ∧
    (∀ i s1, JobRuns s j 0x50 x → loadCheck s x = none → loadWords j x 256 0 [] s = (.badWord i, s1) →
      ∃ u, exec (.progLoad j) s = .next u ∧ u.tiles = s1.tiles ∧ u.objs = s1.objs ∧ u.dram = s1.dram ∧
        ∀ x1, getJob? s1 j = some x1 → x1.phase = .running →
          ∃ x2, getJob? u j = some x2 ∧ x2.phase = .ended ∧ x2.status = .errFormat ∧ x2.detail = (2 * 2 ^ 62 + i) % 2 ^ 64) ∧
    (JobRuns s j 0x51 x → x.stage = 0 → exec (.progRun j) s = .next
      (updTile x.tile (fun y => { tile0 with
          scratch := y.scratch, prog := y.prog, job := some j, pc := leAt x.desc 96 2
          s := ([(1, leAt x.desc 104 8), (2, leAt x.desc 112 8), (3, leAt x.desc 120 8), (4, x.tile)]).foldl
            (fun m e => smSet 0 e.1 (BitVec.ofNat 64 e.2) m) [] })
        (updJob j (fun z => { z with stage := 1 }) s)))

/-! ## Tile cache coherence (spec/10) -/

/-- What a tile does with a snoop or an answer from a home, state by state of Table 10-4 (R233): its answer, which its bridge
takes, its new state, the GACK, and a tile-domain failure of cause 0x01 where the table says Error; a snoop the tile itself
caused is answered MISS but in SM_D; the data of a modified line go out as their check bits show them, and cause 0x05 is an
unreadable tag array (R239, R240); a tile outside the domain discards answers (R27, R29). The array errors are the model's
(log entry 103). -/
def Obligations.TilesAnswerSnoopsAndGrants : Prop :=
  ∀ (s : State) (t line : Nat),
    let ans (m sh own : Bool) (d : Option (Bytes × Bool)) (u : State) : State := answerSnp t line m sh own d u
    let fails (cause : Nat) : State := domainFail cause (tilePhys s t) line s
    let bad : State := if s.coh.failure.map (·.salvage) = some false then s else fails 0x01
    (s.coh.tagFaults.contains t = true → ∀ req, exec (.snpS t line req) s = .next (fails 0x05) ∧
      exec (.snpI t line req) s = .next (fails 0x05)) ∧
    (s.coh.tagFaults.contains t = false →
      (∀ req, cacheLine? s t line = none → exec (.snpS t line req) s = .next (ans false false false none s) ∧
        exec (.snpI t line req) s = .next (ans false false false none s)) ∧
      ∀ c, cacheLine? s t line = some c →
        (exec (.snpS t line (some t)) s = .next (ans false false (c.st == .smD) none s) ∧
          exec (.snpI t line (some t)) s = .next (ans false false (c.st == .smD) none s)) ∧
        ∀ req, req ≠ some t →
          let as_ (st : CacheState) : State := putLine t line { c with st := st } s
          (c.st = .s → exec (.snpS t line req) s = .next (ans false true false none s) ∧
            exec (.snpI t line req) s = .next (ans false true false none (dropLine t line s))) ∧
          (c.st = .e → exec (.snpS t line req) s = .next (ans false true false none (as_ .s)) ∧
            exec (.snpI t line req) s = .next (ans false true false none (dropLine t line s))) ∧
          (c.st = .m → c.fault = .none → exec (.snpS t line req) s = .next (ans true false false (some (c.data, false)) (as_ .s)) ∧
            exec (.snpI t line req) s = .next (ans true false false (some (c.data, false)) (dropLine t line s))) ∧
          (c.st = .m → c.fault = .corrected →
            exec (.snpS t line req) s =
              .next (ans true false false (some (c.data, false)) (bump 0x3620 4 (putLine t line { c with st := .s, fault := .none } s))) ∧
            exec (.snpI t line req) s = .next (ans true false false (some (c.data, false)) (bump 0x3620 4 (dropLine t line s)))) ∧
          (c.st = .m → c.fault = .uncorrectable → ∀ e, e = Instr.snpS t line req ∨ e = .snpI t line req →
            exec e s = .next (ans true false false (some (c.data, true)) (countFault t line .uncorrectable (dropLine t line s)))) ∧
          (c.st = .smD → exec (.snpS t line req) s = .next (ans false true false none s) ∧
            exec (.snpI t line req) s = .next (ans false true false none (as_ .imD))) ∧
          (c.st = .miA → c.fault = .none → ∀ e, e = Instr.snpS t line req ∨ e = .snpI t line req →
            exec e s = .next (ans true false false (some (c.data, false)) (as_ .iiA))) ∧
          (c.st = .eiA → ∀ e, e = Instr.snpS t line req ∨ e = .snpI t line req →
            exec e s = .next (ans false true false none (as_ .iiA))) ∧
          (c.st = .isD ∨ c.st = .imD ∨ c.st = .iiA → ∀ e, e = Instr.snpS t line req ∨ e = .snpI t line req →
            exec e s = .next (ans false false false none s))) ∧
    (inDomain s t = false → ∀ d excl stale st, ∀ e ∈ [Instr.dataS t line excl d, .dataM t line d, .ackUpg t line,
      .ackPut t line stale, .errData t line st], exec e s = .next s) ∧
    (inDomain s t = true → tileState s t ≠ 1 →
      (∀ c d excl, cacheLine? s t line = some c →
        let grant (st : CacheState) (d : Bytes) (f : ArrayFault) : State :=
          send (.gack t line) (putLine t line { st := st, data := slice d 0 64, job := none, way := c.way, fault := f } s)
        (c.st = .isD → exec (.dataS t line excl d) s = .next (grant (if excl then .e else .s) d .none)) ∧
        (c.st = .imD ∨ c.st = .smD → exec (.dataM t line d) s = .next (grant .m d .none)) ∧
        (c.st = .smD → exec (.ackUpg t line) s = .next (grant .m c.data c.fault))) ∧
      (∀ d excl, (cacheState s t line ≠ .isD → exec (.dataS t line excl d) s = .next bad) ∧
        (cacheState s t line ≠ .imD → cacheState s t line ≠ .smD → exec (.dataM t line d) s = .next bad)) ∧
      (cacheState s t line ≠ .smD → exec (.ackUpg t line) s = .next bad) ∧
      (cacheState s t line = .miA ∨ cacheState s t line = .eiA → exec (.ackPut t line false) s = .next (dropLine t line s) ∧
        exec (.ackPut t line true) s = .next bad) ∧
      (cacheState s t line = .iiA → exec (.ackPut t line true) s = .next (dropLine t line s) ∧
        exec (.ackPut t line false) s = .next bad) ∧
      (∀ c st, cacheLine? s t line = some c → c.st = .isD ∨ c.st = .imD ∨ c.st = .smD → ∃ u, exec (.errData t line st) s = .next u ∧
        cacheLine? u t line = none ∧ u.outbox = s.outbox ++ [.gack t line] ∧ u.dram = s.dram ∧
        (∀ j x, c.job = some j → getJob? s j = some x →
          ∃ y, getJob? u j = some y ∧ smFind? (fillChan line) y.remoteErr = some (st, 0)) ∧
        ∀ j, c.job ≠ some j → getJob? u j = getJob? s j) ∧
      (∀ st, (∀ c, cacheLine? s t line = some c → c.st ≠ .isD ∧ c.st ≠ .imD ∧ c.st ≠ .smD) →
        exec (.errData t line st) s = .next bad))

/-- Requests of tiles at a line's home (R229-R231, R234): a line no tile has is granted E to a reader and M to a writer and
its filter entry made, with its CHECK; a line in the filter is snooped first, each bridge waiting for the tiles of its ring
that are in the domain; an owner's PUTM or PUTE is taken and a stale one dropped, GACK ends the transaction, and what a tile
outside the domain sent is lost at its crossing (R28). -/
def Obligations.HomesServeTileRequests : Prop :=
  ∀ (s : State) (t line : Nat), poolQuiet s → s.coh.failure = none →
    (inDomain s t = false → ∀ d p, ∀ c ∈ [Instr.gets t line, .getm t line, .upg t line, .putm t line d p, .pute t line,
        .gack t line], ∃ u, exec c s = .next u ∧ u = { s with work := { s.work with parts := u.work.parts } } ∧
      (tileOwner s t = 0xFF → u.work = s.work) ∧
      (tileOwner s t ≠ 0xFF → u.work.parts = (updPart (tileOwner s t) (fun x => { x with crossLost := x.crossLost + 1 }) s).work.parts)) ∧
    (inDomain s t = true →
      (lineFree s line → (filterSet s line).length < 16 → ∀ c st, (c, st) ∈ [(Instr.gets t line, CacheState.e),
          (Instr.getm t line, .m), (Instr.upg t line, .m)] → ∃ u x, exec c s = .next u ∧
        u.outbox = s.outbox ++ [.grant t line st (some (lineData s line))] ∧
        smFind? line u.coh.filter = some (entryFor line true t) ∧ smFind? line u.coh.txns = some x ∧ x.granted = true ∧
        sameMemory s u ∧ u.coh.lines = s.coh.lines) ∧
      (∀ f, filterAt s line = some (some f) → lineFree { s with coh := { s.coh with filter := [] } } line →
        (∀ c r, (c, r) ∈ [(Instr.gets t line, TileReq.gets), (Instr.getm t line, .getm), (Instr.upg t line, .upg)] →
          ∃ u, exec c s = .next u ∧ smFind? line u.coh.txns = some (txn0 (.tile t r)) ∧
            Msg.snoop line (r != .gets) (some t) ∈ u.outbox ∧ u.coh.filter = s.coh.filter ∧ sameMemory s u ∧
            ∀ b, b < 8 → let left := (List.range (geomTiles s)).filter (fun q => tileRing s q == b && inDomain s q)
              (left ≠ [] → (smFind? (line * 8 + b) u.coh.bridges).map (·.left) = some left) ∧
              (left = [] → Msg.snpDone line b 0 false false none ∈ u.outbox)) ∧
        (f.owned = true → f.owner = t → (∀ d : Bytes, d.length = 64 → ∃ u, exec (.putm t line d false) s = .next u ∧
            u.outbox = s.outbox ++ [.ackPut t line false] ∧ smFind? line u.coh.filter = none ∧ lineWritten s u line d 0) ∧
          (∃ u, exec (.pute t line) s = .next u ∧ u.outbox = s.outbox ++ [.ackPut t line false] ∧
            smFind? line u.coh.filter = none ∧ u.dram = s.dram)) ∧
        (¬ (f.owned = true ∧ f.owner = t) → ∀ c, c = .pute t line ∨ (∃ d p, c = .putm t line d p) → ∃ u, exec c s = .next u ∧
          Msg.ackPut t line true ∈ u.outbox ∧ u.coh = s.coh ∧ u.dram = s.dram)) ∧
      (∀ x r, smFind? line s.coh.txns = some x → x.who = .tile t r → x.granted = true → x.drop = false →
        exec (.gack t line) s = .next { s with coh := { s.coh with txns := smErase line s.coh.txns } }) ∧
      (∀ x r, smFind? line s.coh.txns = some x → x.who = .tile t r → x.granted = false →
        exec (.gack t line) s = .next (domainFail 0x01 (tilePhys s t) line s)) ∧
      (smFind? line s.coh.txns = none → exec (.gack t line) s = .next (domainFail 0x01 (tilePhys s t) line s)))

/-- The answers to a home's snoop (R231, R234, R235) and the failure of the tile domain (R240-R242): each bridge's SNP_DONE
is merged, the eighth ends the transaction, the modified data that came going to DRAM; a conflict, a missing answer, a
missing GACK or an unreadable filter entry is a tile-domain failure of its cause, which ends the running jobs of the tiles
with ERR_INTERNAL; the end of salvage leaves no line tracked until the domain is ready again, the recovery counting in no
job's budget. -/
def Obligations.SnoopsEndOrFailTheTileDomain : Prop :=
  ∀ (s : State) (line : Nat) (x : HomeTxn),
    (smFind? line s.coh.txns = some x → x.granted = false →
      (∀ b hitM hitS data, b < 8 → bitOf x.bridges b = false →
        let y : HomeTxn := { x with
          bridges := putBit x.bridges b true, hitM := x.hitM + hitM, hitS := x.hitS || hitS,
          data := (match data with | some d => some d.2 | none => x.data),
          from? := (match data with | some d => some d.1 | none => x.from?) }
        let c : Instr := .snpDone line b hitM hitS false data
        (y.bridges ≠ 255 → exec c s = .next { s with coh := { s.coh with txns := smPut line y s.coh.txns } }) ∧
        (y.bridges = 255 → filterAt s line = none → exec c s = .next (domainFail 0x06 0xFF line (noteFilterRow line s))) ∧
        (∀ e, y.bridges = 255 → filterAt s line = some e →
          let f := e.getD (entryFor line false 0)
          (snoopConflict f y = true → exec c s = .next (domainFail 0x02 0xFF line s)) ∧
          (snoopConflict f y = false → poolQuiet s → ∀ inv whole, x.who = .access inv whole →
            let after (d : DramSt) : State := { s with
              dram := d
              coh := { s.coh with
                txns := smErase line s.coh.txns
                filter := if inv then smErase line s.coh.filter else smPut line (entryFor line false 0) s.coh.filter } }
            (y.hitM = 0 → exec c s = .next (after s.dram)) ∧
            (y.hitM = 1 → ∀ d : Bytes, d.length = 64 → y.data = some (d, false) →
              lineFree { s with coh := { s.coh with filter := [], txns := [] } } line →
              ∃ u, exec c s = .next u ∧ u.coh = (after u.dram).coh ∧ lineWritten s u line d 0))) ∧
        ((∀ t r, x.who = .tile t r → tileRing s t ≠ b) →
          exec (.snpDone line b hitM hitS true data) s = .next (domainFail 0x02 0xFF line s))) ∧
      (∀ b hitM hitS ownS data, 8 ≤ b ∨ bitOf x.bridges b = true →
        exec (.snpDone line b hitM hitS ownS data) s = .next (domainFail 0x01 0xFF line s)) ∧
      exec (.snoopTimeout line) s = .next (domainFail 0x03 0xFF line s) ∧ exec (.gackTimeout line) s = .next s ∧
      (s.coh.failure = none → poolQuiet s → ∃ u, exec (.snoopTimeout line) s = .next u ∧
        u.coh.failure = some ⟨3, true, s.ptime⟩ ∧ u.coh.txns = [] ∧ u.coh.bridges = [] ∧ u.dram = s.dram ∧
        (∀ j w, getJob? s j = some w → w.phase = .running → w.tile ≠ 0xFF →
          ∃ z, getJob? u j = some z ∧ z.phase = .ended ∧ z.status = .errInternal ∧ z.result = 0) ∧
        ∀ p k, p < geomParts s → k < 16 * (partTiles s p).length →
          getCtx u p k = { isOpen := false, gen := ((getCtx s p k).gen + 1) % 256, closing := none })) ∧
    (smFind? line s.coh.txns = some x → x.granted = true → exec (.snoopTimeout line) s = .next s ∧
      ∀ t r, x.who = .tile t r → exec (.gackTimeout line) s = .next (domainFail 0x04 (tilePhys s t) line s)) ∧
    (smFind? line s.coh.txns = none → exec (.snoopTimeout line) s = .next s ∧ exec (.gackTimeout line) s = .next s ∧
      ∀ b hitM hitS ownS data, (s.coh.failure = none → exec (.snpDone line b hitM hitS ownS data) s = .next (domainFail 0x01 0xFF line s)) ∧
        (s.coh.failure ≠ none → exec (.snpDone line b hitM hitS ownS data) s = .next s)) ∧
    (∀ cause since, s.coh.failure = some ⟨cause, true, since⟩ → poolQuiet s →
      (∀ e ∈ s.coh.filter, ∃ g, checkEntry e.1 e.2 = some g ∧ g.owned = false) →
      ∃ u, exec .salvageEnd s = .next u ∧ u.coh.failure = some ⟨cause, false, since⟩ ∧ u.coh.filter = [] ∧ u.coh.lines = [] ∧
        u.coh.bridges = [] ∧ u.coh.tagFaults = [] ∧ u.dram = s.dram) ∧
    (∀ cause since, s.coh.failure = some ⟨cause, false, since⟩ → exec .salvageEnd s = .next s ∧
      exec .tileDomainReady s = .next (raiseEvent 0x0041 (leBytes 1 cause) { s with
        coh := { s.coh with failure := none }
        work := { s.work with jobs := s.work.jobs.map (fun e =>
          (e.1, if e.2.ran then { e.2 with started := e.2.started + (s.ptime - max since e.2.started) } else e.2)) } })) ∧
    (s.coh.failure = none → exec .salvageEnd s = .next s ∧ exec .tileDomainReady s = .next s)

/-! ## Piccolo (spec/11) -/

/-- The data phases of INIT, READ, semaphores, mutexes, barriers and events, and CANCEL (R246, R249, R252, R253, R255,
Table 11-2): what each leaves in its object and its wait list, the answer it gives, and the refusals for a wrong type, a
request by another than the holder, and TRY where the request would wait. -/
def Obligations.SynchronisationCommandsActOnTheirObject : Prop :=
  ∀ (s : State) (b p : Nat) (q : SyncReq) (rest : List SyncReq), BankServes s b p q rest →
    let n := q.obj
    let o := syncObj s n
    let ws := syncWaits s n
    let ok (c : Instr) (o' : SyncObj) (ws' : List SyncReq) (undo : Bool) : Prop :=
      Served c s b n rest o' ws' { syncResp q .ok o'.type o'.value with undo := undo }
    let waits (c : Instr) (o' : SyncObj) : Prop :=
      (q.try_ = true → Declined c s b q rest .backoff (2 ^ min q.attempt 10)) ∧
      (q.try_ = false → waitRoom s p → ∃ u, ObjectBecomes c s b n rest o' (ws ++ [q]) u)
    (q.op = 0x0 → o.type ≤ 4 → let t := q.arg2 % 8
      (ws = [] → ¬ (o.type = 3 ∧ bitOf o.value 16 = true) → t ≤ 4 → (t = 2 → 0 < q.arg ∧ q.arg ≤ 0xFFFFFFFF) → (t = 3 → q.arg = 0) →
        ok (.piccoloInit b) { type := t, value := if t = 1 ∨ t = 4 then q.arg else 0, aux := if t = 2 then q.arg else 0 } [] false) ∧
      (ws ≠ [] ∨ (o.type = 3 ∧ bitOf o.value 16 = true) → Declined (.piccoloInit b) s b q rest .errPermission 0)) ∧
    (q.op = 0x1 → 1 ≤ o.type → o.type ≤ 4 → ok (.piccoloRead b) o ws false) ∧
    (q.op = 0x2 → o.type = 1 → 0 < q.arg →
      (q.arg ≤ o.value → ws = [] → ok (.semWait b) { o with value := o.value - q.arg } [] true) ∧
      (o.value < q.arg ∨ ws ≠ [] → waits (.semWait b) o)) ∧
    (q.op = 0x3 → o.type = 1 → o.value + q.arg < 2 ^ 64 →
      (ws = [] → ok (.semPost b) { o with value := o.value + q.arg } [] false) ∧
      (∀ w, ws = [w] → w.arg ≤ o.value + q.arg → ∃ u, ObjectBecomes (.semPost b) s b n rest { o with value := o.value + q.arg - w.arg } [] u)) ∧
    (q.op = 0x4 → o.type = 3 →
      (bitOf o.value 16 = false → ∃ hit, Served (.mutexLock b) s b n rest { o with value := 2 ^ 16 + q.rid } ws
        { syncResp q .ok 3 (2 ^ 16 + q.rid) with undo := true, parkedHit := hit }) ∧
      (bitOf o.value 16 = true → waits (.mutexLock b) o)) ∧
    (q.op = 0x5 → o.type = 3 →
      (holdsMutex q o = true → ws = [] → ok (.mutexUnlock b) { o with value := o.value % 65536 + 2 ^ 17 } [] false) ∧
      (∀ w ws', holdsMutex q o = true → ws = w :: ws' → ∃ u, ObjectBecomes (.mutexUnlock b) s b n rest { o with value := 2 ^ 16 + w.rid } ws' u) ∧
      (holdsMutex q o = false → Declined (.mutexUnlock b) s b q rest .errPermission 0)) ∧
    (q.op = 0x6 → o.type = 3 →
      (holdsMutex q o = true → ws = [] → ok (.mutexBreak b) o [] false) ∧
      (∀ w ws', holdsMutex q o = true → ws = w :: ws' → ∃ u, exec (.mutexBreak b) s = .next u ∧
        syncObj u n = { o with value := 2 ^ 16 + w.rid } ∧ bankQueue u b = rest ∧ u.dram = s.dram) ∧
      (holdsMutex q o = false → Declined (.mutexBreak b) s b q rest .errPermission 0)) ∧
    (q.op = 0x7 → o.type = 2 → let arrived := o.value % 2 ^ 32 + 1
      let gen := o.value / 2 ^ 32
      (o.aux ≤ arrived → (ws = [] → ok (.barArrive b) { o with value := (gen + 1) % 2 ^ 32 * 2 ^ 32 } [] false) ∧
        ∃ u, ObjectBecomes (.barArrive b) s b n rest { o with value := (gen + 1) % 2 ^ 32 * 2 ^ 32 } [] u) ∧
      (arrived < o.aux → (q.try_ = true → ok (.barArrive b) { o with value := gen * 2 ^ 32 + arrived } ws false) ∧
        (q.try_ = false → waitRoom s p → ∃ u, ObjectBecomes (.barArrive b) s b n rest { o with value := gen * 2 ^ 32 + arrived } (ws ++ [q]) u))) ∧
    (q.op = 0x8 → o.type = 4 → (ws = [] → ok (.eventSet b) { o with value := o.value ||| q.arg } [] false) ∧
      ∃ u, ObjectBecomes (.eventSet b) s b n rest { o with value := o.value ||| q.arg }
        (ws.filter (fun w => !eventHolds w (o.value ||| q.arg))) u) ∧
    (q.op = 0x9 → o.type = 4 → ok (.eventClear b) { o with value := o.value &&& (2 ^ 64 - 1 - q.arg % 2 ^ 64) } ws false) ∧
    (q.op = 0xA → o.type = 4 → (eventHolds q o.value = true → ok (.eventWait b) o ws false) ∧
      (eventHolds q o.value = false → waits (.eventWait b) o)) ∧
    (q.op = 0xB → 1 ≤ o.type → o.type ≤ 4 → let hit (w : SyncReq) : Bool := w.rid == q.rid && w.tag == q.arg % 2 ^ 32
      (∀ w, ws.find? hit = some w → ∃ u, ObjectBecomes (.cancel b) s b n rest o (ws.erase w) u) ∧
      (ws.find? hit = none → Served (.cancel b) s b n rest o ws (syncResp q .ok o.type o.value))) ∧
    (∀ c k ty, (c, k, ty) ∈ [(Instr.piccoloRead b, 0x1, [1, 2, 3, 4]), (.semWait b, 0x2, [1]), (.semPost b, 0x3, [1]), (.mutexLock b, 0x4, [3]),
        (.mutexUnlock b, 0x5, [3]), (.mutexBreak b, 0x6, [3]), (.barArrive b, 0x7, [2]), (.eventSet b, 0x8, [4]), (.eventClear b, 0x9, [4]),
        (.eventWait b, 0xA, [4]), (.cancel b, 0xB, [1, 2, 3, 4])] →
      (q.op = k → o.type ∉ ty → Declined c s b q rest .errFormat 0) ∧ (q.op ≠ k → exec c s = .next s))

/-- Requests reach their bank and ranges change (R243-R245, R248, R251, R252, R259): a well-formed request cell joins the
queue of its object's bank, a full bank answers BACKOFF, a SYNC_OP job outside its partition's range ends ERR_PERMISSION,
and a SYNC_RANGE frees the objects of the old and the new range. -/
def Obligations.RequestsReachTheirBankAndRange : Prop :=
  ∀ (s : State),
    (∀ cell : Bytes, cell.length = 32 → routeFenced (routeOf s (leAt cell 2 1)) = false → cellBad cell = false →
      let q : SyncReq := { obj := leAt cell 8 2, op := leAt cell 4 1 % 16, try_ := bitOf (leAt cell 5 1) 0, attempt := leAt cell 6 1 % 16
                           tag := leAt cell 12 4, arg := leAt cell 16 8, arg2 := leAt cell 24 8, rid := leAt cell 2 1, job := none, hit := false }
      let l := bankQueue s (q.obj % 16)
      (l.length < 16 → parkedHit s q = false → exec (.piccoloBankEnqueue (.cell cell)) s = .next (setBank (q.obj % 16) (l ++ [q]) s)) ∧
      (l.length < 16 → parkedHit s q = true →
        exec (.piccoloBankEnqueue (.cell cell)) s = .next (setBank (q.obj % 16) ({ q with hit := true } :: l) s)) ∧
      (16 ≤ l.length → exec (.piccoloBankEnqueue (.cell cell)) s = .next (syncLoss q s))) ∧
    (∀ cell : Bytes, cell.length = 32 → routeFenced (routeOf s (leAt cell 2 1)) = true →
      exec (.piccoloBankEnqueue (.cell cell)) s = .next (bump 0x3700 4 s)) ∧
    (∀ j x, JobRuns s j 0x60 x → x.stage = 0 → leAt x.desc 34 1 ≤ 0xB → leAt x.desc 35 1 ≤ 1 → leAt x.desc 36 1 ≤ 15 →
      (slice x.desc 37 3).any (· != 0) = false → (slice x.desc 56 72).any (· != 0) = false →
      (rangeCount (syncRange s x.part) ≤ leAt x.desc 32 2 → ∃ u det, exec (.piccoloBankEnqueue (.job j)) s = .next u ∧
        JobEnded u j .errPermission det 0 ∧ u.sync = s.sync) ∧
      (leAt x.desc 32 2 < rangeCount (syncRange s x.part) → let n := rangeFirst (syncRange s x.part) + leAt x.desc 32 2
        (bankQueue s (n % 16)).length < 16 → ∃ u q, exec (.piccoloBankEnqueue (.job j)) s = .next u ∧ q ∈ bankQueue u (n % 16) ∧
          q.obj = n ∧ q.op = leAt x.desc 34 1 ∧ q.rid = 0x4000 + x.queue ∧ q.job = some j ∧ (∀ r ∈ bankQueue s (n % 16), r ∈ bankQueue u (n % 16)))) ∧
    (∀ p v, let lo := field v 15 0
      let k := field v 48 32
      v = lo + k * 2 ^ 32 → p < 64 → p < geomParts s → lo + k ≤ obj s 0x1106 0 → partState s p = 0 ∨ partState s p = 1 → s.sync.waits = [] →
      (∀ r, r < 64 → r ≠ p → rangeCount (syncRange s r) ≠ 0 → ¬ (rangeFirst (syncRange s r) < lo + k ∧ lo < rangeFirst (syncRange s r) + rangeCount (syncRange s r))) →
      ∃ u, exec (.syncRangeWrite p v) s = .next (answerFm 0x2700 (p + 1) (.ok, u)) ∧ syncRange u p = v ∧
        ∀ n, syncObj u n = if inRange v n || inRange (syncRange s p) n then syncObj0 else syncObj s n) ∧
    (∀ p v, geomParts s ≤ p → v = field v 15 0 + field v 48 32 * 2 ^ 32 → exec (.syncRangeWrite p v) s = .next (send (.cmdAnswer 0x31) s)) ∧
    (∀ p v, v ≠ field v 15 0 + field v 48 32 * 2 ^ 32 → exec (.syncRangeWrite p v) s = .next (send (.cmdAnswer 0x33) s))

/-! ## Lanes and links (spec/12, spec/13) -/

/-- A bring-up goes through its states (R265-R273, Table 12-5): the forwarded clock ends DETECT and its loss leads back; a
TS1 names its trace's lane and shows whether its pair is swapped, and 64 on each lane end LOCK; TS2 that fit the expected
peer end EXCHANGE; a step takes its rate, its clock, its taps and its qualification; a phase that times out falls back with
its cause, and NL_RETRAIN_CMD and NL_PORT_ENABLE start a port over or disable it. Every phase begins with its block on every
lane (when the next blocks go out is log entry 110). -/
def Obligations.BringUpGoesThroughItsStates : Prop :=
  ∀ (s : State) (port : Nat),
    let l := getLane s port
    let others (u : State) : Prop := ∀ p, p ≠ port → getLane u p = getLane s p
    let begins (u : State) : Prop :=
      (getLane u port).train.got = [] ∧ (getLane u port).train.sent = 0 ∧
      ∀ x, x < lanePhys port → Msg.training port x (blockSent u port x) (blockLevels (blockSent u port x)) ∈ u.outbox
    (l.state = 1 → ∃ u, exec (.forwardedClockLock port) s = .next u ∧ getLane u port = { l with state := 2, train := train0 } ∧
      begins u ∧ others u) ∧
    (l.state ≠ 1 → exec (.forwardedClockLock port) s = .next s) ∧
    (l.state = 2 ∨ l.state = 3 ∨ l.state = 4 → ∃ u, exec (.forwardedClockLoss port) s = .next u ∧ begins u ∧ others u ∧
      u.links = s.links ∧ getLane u port = { l with
        state := 1, cause := 1, cfg := { cfg0 with rate := 1 }, prev := none, train := train0 } ∧
      Msg.laneClock port 6640625 ∈ u.outbox) ∧
    (l.state = 0 ∨ l.state = 1 ∨ l.state = 7 → exec (.forwardedClockLoss port) s = .next s) ∧
    (l.state = 5 → portOff s port = false → port < 14 → (getLink s port).state = 0 → s.eyeCmd = none → ∃ u,
      exec (.forwardedClockLoss port) s = .next u ∧ (getLane u port).state = 1 ∧ (getLane u port).cause = 1 ∧ begins u ∧ others u ∧
      u.links = s.links) ∧
    -- LOCK
    (∀ trace inv b, l.state = 2 → trace < lanePhys port →
      let received := flipBlock inv b
      let seen : Bool := leAt received 0 2 == 0x3CA5
      let blk := flipBlock seen received
      let runs := smPut trace (smGet 0 trace l.train.ts1Run + 1) l.train.ts1Run
      let t := { l.train with ts1Run := runs, order := smPut (tbLane blk) trace l.train.order, polarity := putBit l.train.polarity trace seen }
      (ts1Ok port blk = true → ∃ u, exec (.ts1 port trace inv b) s = .next u ∧ others u ∧ let y := (getLane u port).train
        y.ts1Run = runs ∧ y.order = t.order ∧ y.polarity = t.polarity ∧
        (lockDone port t = false → (getLane u port).state = 2) ∧ (lockDone port t = true → (getLane u port).state = 3 ∧ begins u)) ∧
      (ts1Ok port blk = false → ∃ u, exec (.ts1 port trace inv b) s = .next u ∧ others u ∧ let y := (getLane u port).train
        (getLane u port).state = 2 ∧ y.ts1Run = smAlter trace (fun _ => 0) l.train.ts1Run ∧ y.order = l.train.order ∧
        y.polarity = l.train.polarity)) ∧
    -- EXCHANGE
    (∀ trace b, l.state = 3 → trace < lanePhys port →
      let blk := flipBlock (bitOf l.train.polarity trace) b
      let c : Instr := .ts2 port trace b
      (blockOk 2 blk = false → ∃ u, exec c s = .next u ∧ others u ∧ (getLane u port).state = 3 ∧
        (getLane u port).train.ts2Run = smAlter trace (fun _ => 0) l.train.ts2Run) ∧
      (blockOk 2 blk = true → ∃ v, others v ∧ obj v 0x3401 (port + 1) = tbUnit blk ∧ let y := getLane v port
        y.kind = tbKind blk ∧ y.maxRate = tbMaxRate blk ∧ y.unit = tbUnit blk ∧
        y.train.ts2Run = smPut trace (smGet 0 trace l.train.ts2Run + 1) l.train.ts2Run ∧
        (∀ h, peerHeld s port (tbKind blk) (tbUnit blk) = some h → y.state = 7 ∧ y.cause = h ∧
          exec c s = .next (if h ≠ 3 ∧ s.power.phase = 0x0A then reportTopology v else v)) ∧
        (peerHeld s port (tbKind blk) (tbUnit blk) = none → tbLoopNak blk = false ∨ l.loop = none → y.state = 3 ∧
          exec c s = .next (if exchangeOver y.train then exchangeDone port v else v)) ∧
        (peerHeld s port (tbKind blk) (tbUnit blk) = none → tbLoopNak blk = true → ∀ lp, l.loop = some lp →
          exec c s = .next (setObj 0x3421 0 5 v) ∧ y.state = 6 ∧ y.loop = some { lp with refused := true }))) ∧
    -- STEP
    (∀ trace b, l.state = 4 → l.train.part = 0 → trace < lanePhys port →
      let blk := flipBlock (bitOf l.train.polarity trace) b
      blockOk 3 blk = true → ∃ u, exec (.stepBlock port trace b) s = .next u ∧ others u ∧ let y := (getLane u port).train
        (getLane u port).state = 4 ∧ y.part = 0 ∧ y.peerTarget = tbTarget blk ∧ y.peerCount = tbSwitchAt blk ∧
        y.count = (if l.train.sent < smGet 0 trace l.train.got + 1 then l.train.count - 1 else l.train.count)) ∧
    (l.state = 4 → l.train.part = 0 → l.train.count = 0 → ∃ u, exec (.rateSwitch port) s = .next u ∧ others u ∧ begins u ∧
      (getLane u port).cfg = { l.cfg with rate := l.train.step, presets := [] } ∧
      (getLane u port).train = { l.train with part := 1, got := [], sent := 0 } ∧
      Msg.laneClock port (clockKhz l.train.step) ∈ u.outbox ∧
      ∀ i, i < lanePhys port →
        let t := presetTaps (if obj s 0x4405 (port + 1) < 8 then obj s 0x4405 (port + 1) else 4)
        Msg.laneTaps port i t.1 (mainCursor t) t.2 ∈ u.outbox) ∧
    (l.state = 4 → l.train.part = 0 → l.train.count ≠ 0 → exec (.rateSwitch port) s = .next s) ∧
    (∀ trace adapted ask b, l.state = 4 → l.train.part = 1 → trace < lanePhys port →
      let blk := flipBlock (bitOf l.train.polarity trace) b
      blockOk 4 blk = true → ∃ u, exec (.eqBlock port trace adapted ask b) s = .next u ∧ others u ∧
      let y := getLane u port
      y.train.ackOwn = (l.train.ackOwn || adapted) ∧ y.train.ackPeer = (l.train.ackPeer || tbAck blk) ∧
      y.train.part = (if y.train.ackOwn && y.train.ackPeer then 2 else 1) ∧ y.cfg.txPrecode = tbPrecode blk ∧
      y.cfg.rxPrecode = ask.precode ∧ (tbPreset? blk = none → y.cfg.presets = l.cfg.presets) ∧
      (∀ p, tbPreset? blk = some p → smFind? (tbLane blk) l.train.eqRun = some (p, 7) → smGet 4 (tbLane blk) y.cfg.presets = p ∧
        let t := presetTaps (if obj s 0x4405 (port + 1) < 8 then obj s 0x4405 (port + 1) else p)
        Msg.laneTaps port (tbLane blk) t.1 (mainCursor t) t.2 ∈ u.outbox) ∧
      (y.train.part = 2 → ∀ x, x < lanePhys port → ∃ g, Msg.qualify port x g l.cfg.rate (tbPrecode blk) ∈ u.outbox)) ∧
    (∀ errors eyes, l.state = 4 → l.train.part = 2 → ∃ u m, exec (.qualificationEnd port errors eyes) s = .next u ∧ others u ∧ begins u ∧
      (getLane u port).train = { l.train with part := 3, pass := some m, got := [], sent := 0 } ∧
      ∀ i, i < lanePhys port → bitOf m i = (decide (errors.getD i 1025 ≤ 1024) &&
        decide (obj s 0x4403 0 ≤ worst eyeWidth (eyes.getD i [])))) ∧
    -- time-outs, retraining, enabling
    ((l.state = 2 → exec (.bringupPhaseTimeout port) s = .next (backToDetect port 2 s)) ∧
      (l.state = 3 → exec (.bringupPhaseTimeout port) s = .next (backToDetect port 6 s)) ∧
      (l.state = 4 → l.train.eqSeen = false → exec (.bringupPhaseTimeout port) s = .next (backToDetect port l.cause s)) ∧
      (l.state = 4 → l.train.eqSeen = true → exec (.bringupPhaseTimeout port) s = .next (stepFails port s)) ∧
      (l.state ≠ 2 → l.state ≠ 3 → l.state ≠ 4 → exec (.bringupPhaseTimeout port) s = .next s)) ∧
    (port ≤ 14 → l.state = 1 ∨ l.state = 2 ∨ l.state = 3 ∨ l.state = 4 → l.loop = none → portOff s port = false → l.begun = true →
      ∃ u, exec (.nlRetrainCmd port) s = .next (answerFm 0x2402 0 (.ok, u)) ∧ others u ∧ begins u ∧
        u.objs = (bump 0x3410 (port + 1) s).objs ∧ getLane u port = { l with
          state := 1, cfg := { cfg0 with rate := 1 }, prev := none, train := train0, begun := true, faulty := 0
          goodScans := [], farPeer := false, nak := false }) ∧
    (port ≤ 14 → l.state = 0 ∨ l.loop ≠ none → exec (.nlRetrainCmd port) s = .next (answerFm 0x2402 0 (.ok, s))) ∧
    (port ≤ 14 → l.state ≠ 5 → ∃ u, exec (.nlPortEnableWrite port 0) s = .next (answerFm 0x2400 (port + 1) (.ok, u)) ∧
      obj u 0x2400 (port + 1) = 0 ∧ (getLane u port).state = 0 ∧ others u) ∧
    (port ≤ 14 → l.state = 0 → l.off = false → ∃ u, exec (.nlPortEnableWrite port 1) s = .next (answerFm 0x2400 (port + 1) (.ok, u)) ∧
      obj u 0x2400 (port + 1) = 1 ∧ (getLane u port).state = 1) ∧
    (14 < port → exec (.nlRetrainCmd port) s = .next (send (.cmdAnswer 0x33) s) ∧
      ∀ v, exec (.nlPortEnableWrite port v) s = .next (send (.cmdAnswer 0x33) s))

/-- Spare lanes, eye scans and loopbacks (R274-R282): a substitution is asked for, compared, done or abandoned; a scan's
widths and heights are what its points show, by bisection those of an eye that is open in one piece, and a commanded one
ends with its status; a loopback is entered with its counters at 0 and left for DETECT, and LOOP_REQ is honoured only where
it is allowed. The scan and the loopback commands are refused without their unlock (R12). -/
def Obligations.SparesScansAndLoopbacks : Prop :=
  ∀ (s : State) (port lane : Nat),
    let l := getLane s port
    let open_ (index : Nat) : Prop := unlocked s (expertGroup index) false = true
    let refused : Host.Outcome State Fault Refusal := .next (send (.cmdAnswer 0x31) s)
    (∀ x, l.cfg.txSpare = some x →
      (l.state = 5 → lane < 8 → exec (.spareReq port lane) s = .next (updLane port (fun y => { y with txDup := some lane }) s)) ∧
      (l.txDup = some lane → exec (.spareDone port lane) s = .next (updLane port (fun y => { y with
        txDup := none, cfg := { y.cfg with txMap := y.cfg.txMap.set lane x, txSpare := y.cfg.txMap[lane]? } }) s))) ∧
    (l.txDup = some lane → exec (.spareAbort port lane) s = .next (updLane port (fun y => { y with txDup := none }) s)) ∧
    (∀ sp, l.rxReq = some lane → l.cfg.rxSpare = some sp → (getLink s port).state ≠ 0 → s.eyeCmd = none →
      let agrees : Prop := 64 ≤ l.compared ∧ 60 ≤ (l.agreed.filter id).length
      (agrees → ∃ u, exec (.spareCompareEnd port lane) s = .next u ∧ (getLane u port).rxReq = none ∧
        (getLane u port).cfg = { l.cfg with rxMap := l.cfg.rxMap.set lane sp, rxSpare := none } ∧
        (getLane u port).faulty = putBit l.faulty (l.cfg.rxMap.getD lane 0) true ∧ u.objs = (bump 0x3411 (port + 1) s).objs ∧
        (getLink u port).laneOp = 2 ∧ (getLink u port).laneArg = lane ∧ (getLink u port).laneLeft = 64) ∧
      (¬ agrees → 4096 ≤ l.compared → exec (.spareCompareEnd port lane) s =
        .next (sendLaneOp port 3 lane 64 (updLane port (fun y => { y with rxReq := none }) s))) ∧
      (¬ agrees → l.compared < 4096 → exec (.spareCompareEnd port lane) s = .next s)) ∧
    -- eye scans
    (∀ (e : Eye) (lo hi : Nat), lo ≤ 32 → 32 ≤ hi → hi < 64 → (∀ p, p < 64 → (pointPasses e p 31 = true ↔ lo ≤ p ∧ p ≤ hi)) →
      edgeSpan e 0 = hi - lo + 1 ∧ edgeSpan e 0 = eyeWidth e) ∧
    (∀ (e : Eye) (lo hi : Nat), lo ≤ 31 → 31 ≤ hi → hi < 63 → (∀ v, v < 63 → (pointPasses e 32 v = true ↔ lo ≤ v ∧ v ≤ hi)) →
      edgeSpan e 2 = hi - lo + 1 ∧ edgeSpan e 2 = eyeHeight e) ∧
    (∀ line phase, l.state = 5 → s.eyeCmd = none → l.faulty = 0 →
      let eyes := line.zipWith (fun a b => a.zipWith crossEye b) phase
      let widths := eyes.map (worst (edgeSpan · 0))
      let heights := eyes.map (worst (edgeSpan · 2))
      let u := setObj 0x3402 (port + 1) (packLanes port widths (obj s 0x3402 (port + 1)))
        (setObj 0x3403 (port + 1) (packLanes port heights (obj s 0x3403 (port + 1))) s)
      let low (x : Nat) : Prop := ∃ ph, l.cfg.rxMap[x]? = some ph ∧ widths.getD ph 127 < obj s 0x4403 0
      ((∀ x, x < 8 → ¬ low x) → exec (.backgroundEyeScan port line phase) s = .next u) ∧
      (low lane → lane < 8 → (∀ x, x < 8 → x ≠ lane → ¬ low x) → port ≠ 14 → l.rxReq = none → l.cfg.rxSpare ≠ none →
        (getLink s port).state ≠ 0 → exec (.backgroundEyeScan port line phase) s =
          .next (sendLaneOp port 1 lane 64 (updLane port (fun y => { y with rxReq := some lane, agreed := [], compared := 0 }) u)))) ∧
    (∀ line phase, l.state ≠ 5 ∨ s.eyeCmd ≠ none → exec (.backgroundEyeScan port line phase) s = .next s) ∧
    (∀ cmd : Bytes, let p := leAt cmd 0 1
      let rate := (getLane s p).cfg.rate
      (¬ open_ 0x4400 → exec (.nlEyeScanCmd cmd) s = refused) ∧
      (open_ 0x4400 → 14 < p ∨ 8 < leAt cmd 1 1 ∨ 2 < leAt cmd 2 1 ∨ 1 < leAt cmd 3 1 →
        exec (.nlEyeScanCmd cmd) s = .next (send (.cmdAnswer 0x33) s)) ∧
      (open_ 0x4400 → p ≤ 14 → leAt cmd 1 1 ≤ 8 → leAt cmd 2 1 ≤ 2 → leAt cmd 3 1 ≤ 1 →
        (s.eyeCmd ≠ none → exec (.nlEyeScanCmd cmd) s = .next (answerFm 0x4400 0 (.ok, eyeResult 0x04 rate [] [] s))) ∧
        (s.eyeCmd = none → (getLane s p).state ≠ 5 →
          exec (.nlEyeScanCmd cmd) s = .next (answerFm 0x4400 0 (.ok, eyeResult 0x02 rate [] [] s))) ∧
        (s.eyeCmd = none → (getLane s p).state = 5 → exec (.nlEyeScanCmd cmd) s = .next (answerFm 0x4400 0 (.ok,
          { s with eyeCmd := some { port := p, lane := leAt cmd 1 1, eye := leAt cmd 2 1, full := leAt cmd 3 1 == 1 } }))))) ∧
    (∀ e edges points, s.eyeCmd = some e → let eye := if e.full then points else edges
      exec (.eyeScanCommandEnd edges points) s = .next (eyeResult 0x01 (getLane s e.port).cfg.rate
        (edgeBytes eye) (if e.full then passBitmap eye else []) { s with eyeCmd := none })) ∧
    (∀ edges points, s.eyeCmd = none → exec (.eyeScanCommandEnd edges points) s = .next s) ∧
    -- loopbacks
    (∀ c mode rate pattern p32, (c, mode) ∈ [(Instr.loopbackNearParallel port rate pattern p32, 1),
        (.loopbackNearSerial port rate pattern p32, 2), (.loopbackFarEnd port rate pattern p32, 3)] →
      (¬ open_ 0x4407 → exec c s = refused) ∧
      (open_ 0x4407 → port ≤ 14 → 1 ≤ rate → rate ≤ 4 → pattern ≤ 1 → ¬ (port = 14 ∧ rate = 4) →
        (portOff s port = true → exec c s = .next (answerFm 0x4407 0 (.ok, s))) ∧
        (portOff s port = false → l.state ≠ 5 → ∃ u, exec c s = .next (answerFm 0x4407 0 (.ok, u)) ∧ obj u 0x3421 0 = 1 ∧
          (∀ i, i < 9 → obj u 0x3420 (i + 1) = 0) ∧ (getLane u port).state = (if mode = 3 then 1 else 6) ∧
          (getLane u port).cfg = { cfg0 with rate := if mode = 3 then 1 else rate } ∧
          Msg.laneClock port (clockKhz (if mode = 3 then 1 else rate)) ∈ u.outbox ∧
          (getLane u port).loop = some { mode := mode, rate := rate, pattern := pattern, pattern32 := p32, refused := false })) ∧
      (open_ 0x4407 → 14 < port ∨ rate < 1 ∨ 4 < rate ∨ 1 < pattern ∨ (port = 14 ∧ rate = 4) →
        exec c s = .next (send (.cmdAnswer 0x33) s))) ∧
    (∀ rx, ¬ open_ 0x4407 → exec (.loopbackEnd port rx) s = refused) ∧
    (∀ rx, open_ 0x4407 → port ≤ 14 → l.loop ≠ none → l.state ≠ 5 →
      ∃ u, exec (.loopbackEnd port rx) s = .next (answerFm 0x4407 0 (.ok, u)) ∧
        (getLane u port).loop = none ∧ obj u 0x3421 0 = 0 ∧ (getLane u port).state = (if portOff s port then 0 else 1)) ∧
    (∀ rx, open_ 0x4407 → port ≤ 14 → l.loop = none → exec (.loopbackEnd port rx) s = .next (answerFm 0x4407 0 (.ok, s))) ∧
    (1 ≤ l.state → l.state ≤ 4 →
      (obj s 0x4406 (port + 1) = 1 → exec (.loopReq port) s = .next (updLane port (fun y => { y with farPeer := true }) s)) ∧
      (obj s 0x4406 (port + 1) ≠ 1 → exec (.loopReq port) s = .next (updLane port (fun y => { y with nak := true }) s))) ∧
    (l.state = 0 ∨ 4 < l.state → exec (.loopReq port) s = .next s)

/-- Flits (R281, R290-R302): what a flit time sends in each state of the link and in a loopback, what a received flit does
(bad, duplicate, behind a gap, or the one expected) once the receiver has undone the lanes' order, scrambling and precoding
(R261-R264), and the replay timer, the initialisation timeout, loss of flit lock and RETRAIN_REQ, each with its cause of
link-down. -/
def Obligations.FlitsAreSentReceivedAndReplayed : Prop :=
  ∀ (s : State) (port : Nat), port ≤ 13 →
    let k := getLink s port
    let l := getLane s port
    let active : Prop := l.state = 5
    (∀ pick, (¬ active → l.state ≠ 6 → exec (.flitTransmit port pick) s = .next s) ∧
      (∀ lp, l.state = 6 → l.loop = some lp → lp.refused = false → lp.mode ≠ 1 → ∃ u, exec (.flitTransmit port pick) s = .next u ∧
        u.objs = s.objs ∧ u.outbox = s.outbox ++ [.loopData port ((List.range 9).map (fun p => (p, levels (l.cfg.rate == 1)
          (laneSend (l.cfg.rate == 1) l.cfg.txPrecode (l.scramble.getD p 0) (l.last.getD p 0) (loopBytes port lp)).1)))]) ∧
      (active → k.state = 1 → k.peerSeen = false → exec (.flitTransmit port pick) s = .next (updLink port (fun y => { y with
        initSent := if y.initSeen then y.initSent + 1 else 0 }) (sendFlit port initPayload 2 k.seq 0 s))) ∧
      (active → k.state = 2 →
        (∀ f r, k.resend = f :: r → exec (.flitTransmit port pick) s =
          .next (sendFlit port f.payload 0 f.seq f.pstart (updLink port (fun y => { y with resend := r }) s))) ∧
        (k.resend = [] → 256 ≤ k.replay.length ∨ hasData s port pick = false →
          exec (.flitTransmit port pick) s = .next (sendFlit port [] 1 k.seq 0 s)) ∧
        (k.resend = [] → k.replay.length < 256 → hasData s port pick = true → let seq := (k.seq + 1) % 4096
          ∃ u f v, exec (.flitTransmit port pick) s = .next u ∧ u = sendFlit port f.payload 0 seq f.pstart
            (updLink port (fun y => { y with seq := seq, replay := y.replay ++ [f] }) v) ∧ f.seq = seq))) ∧
    (∀ full rx, ¬ active → l.state ≠ 6 → exec (.flitReceive port full rx) s = .next s) ∧
    (∀ full rx, active → l.rxReq = none →
      let r := unitReceived port 256 l rx
      let v := updLane port (fun _ => r.2) s
      let w? := flitDecode r.1
      (k.state = 0 → exec (.flitReceive port full rx) s = .next v) ∧
      (k.state ≠ 0 →
        (w? = none → exec (.flitReceive port full rx) s = .next (badFlit port v)) ∧
        (∀ w places, w? = some (w, places) → crc32 (w.take 236) ≠ leAt w 236 4 →
          exec (.flitReceive port full rx) s = .next (badFlit port (reportPlaces port places v))) ∧
        (∀ w c, w? = some (w, []) → crc32 (w.take 236) = leAt w 236 4 → lctlOf (slice w 224 12) = some c → c.ftype = 0 → k.state = 2 →
          c.ack = k.ackTaken → c.nak = false → c.laneOp = k.peerOp → c.laneArg = k.peerArg →
          (c.fseq = (k.ack + 1) % 4096 → c.pstart = 0 → k.rxSlots = [] → ∃ u, exec (.flitReceive port full rx) s = .next u ∧
            (getLink u port).ack = c.fseq ∧ (getLink u port).recover = false ∧ (getLink u port).badRun = 0 ∧ u.outbox = s.outbox) ∧
          (c.fseq ≠ (k.ack + 1) % 4096 → laterW 12 ((k.ack + 1) % 4096) c.fseq = true → ∃ u, exec (.flitReceive port full rx) s = .next u ∧
            (getLink u port).ack = k.ack ∧ (getLink u port).recover = k.recover) ∧
          (c.fseq ≠ (k.ack + 1) % 4096 → laterW 12 ((k.ack + 1) % 4096) c.fseq = false → ∃ u, exec (.flitReceive port full rx) s = .next u ∧
            (getLink u port).ack = k.ack ∧ (getLink u port).recover = true ∧ (k.recover = false → (getLink u port).nakDue = true))))) ∧
    (k.state = 2 → k.replay ≠ [] →
      (k.replays < obj s 0x4411 0 → exec (.replayTimerExpiry port) s =
        .next (bump 0x3433 (port + 1) (updLink port (fun y => { y with resend := y.replay, replays := y.replays + 1 }) s))) ∧
      (obj s 0x4411 0 ≤ k.replays → exec (.replayTimerExpiry port) s = .next (linkFail port 2 s))) ∧
    (k.state ≠ 2 ∨ k.replay = [] → exec (.replayTimerExpiry port) s = .next s) ∧
    (exec (.replayTimerExpiry 14) s = .next (if s.buddy.mirror.up then mirrorReplay s else s)) ∧
    (k.state = 1 → exec (.linkInitTimeout port) s = .next (linkFail port 5 s)) ∧
    (k.state ≠ 1 → exec (.linkInitTimeout port) s = .next s) ∧
    (exec (.flitLockLoss port) s = .next (linkFail port 8 s) ∧ exec (.retrainReq port) s = .next (linkFail port 6 s)) ∧
    (k.state = 0 → exec (.flitLockLoss port) s = .next s ∧ exec (.retrainReq port) s = .next s) ∧
    (k.state ≠ 0 → portUnits s port = [] → s.fabric.waiting = [] → ∃ u, exec (.retrainReq port) s = .next u ∧
      getLink u port = { link0 with cause := 6, rerouted := true, laneOp := 4, laneArg := 0, laneLeft := 16 } ∧
      ∀ p, p ≠ port → getLink u p = getLink s p)

/-! ## The fabric (spec/14) and the scheduler (spec/15) -/

/-- Narlin requests at this module (R306, R307, R328-R330, R39, R40): one that passes its checks reads, writes, or changes by
its atomic operation the bytes it addresses and is answered as Table 14-5 says; one that fails a check changes no byte and
is answered with the status. -/
def Obligations.RemoteRequestsReachTheirTarget : Prop :=
  ∀ (s : State) (port : Nat) (p q : Packet) (pa : Nat), InOrder s port p →
    (ServedAt s p q pa →
      let kp := requestKey s p
      let line := pa / 64
      let o := pa % 64
      let old := lineData s line
      let sec := q.sectors.getD 0 []
      let reads (c : Instr) (data : Bytes) : Prop :=
        ∃ u v d, exec c s = .next u ∧ u = answerNarlin (bare q) kp ⟨.ok, d⟩ v ∧ d.take data.length = data ∧ sameMemory s v
      let writes (c : Instr) (answer new : Bytes) : Prop :=
        ∃ u v, exec c s = .next u ∧ u = answerNarlin (bare q) kp ⟨.ok, answer⟩ v ∧ lineWritten s v line new 0
      let bytes : Bytes := (List.range 64).map (fun i =>
        if o ≤ i ∧ i < o + 8 ∧ bitOf (pkSmap p) (i - o) = true then sec.getD (i - o) 0 else old.getD i 0)
      (pkOpc p = 0x01 → pkSpan p = 0 → pkSmap p = 1 → reads (.read port p) (slice old o 32)) ∧
      (pkOpc p = 0x02 → reads (.readWord port p) (slice old o (size8 p))) ∧
      (pkOpc p = 0x03 → pkSpan p = 0 → pkSmap p = 1 → writes (.write port p) [] (splice old o (slice sec 0 32))) ∧
      (pkOpc p = 0x04 → writes (.writeBe port p) [] bytes) ∧
      (pkOpc p = 0x05 → writes (.writePosted port p) [] bytes) ∧
      (pkOpc p = 0x07 → pkSpan p = 0 → pkSmap p = 1 → writes (.reduceFadd port p) []
        (splice old o ((List.range 8).map (fun i => leBytes 4 (f32Add (BitVec.ofNat 32 (leAt old (o + 4 * i) 4))
          (BitVec.ofNat 32 (leAt (slice sec 0 32) (4 * i) 4))).toNat)).flatten)) ∧
      (pkOpc p = 0x06 → let n := size8 p
        let x : BitVec 64 := BitVec.ofNat 64 (leAt old o n)
        let a : BitVec 64 := BitVec.ofNat 64 (leAt sec 0 n)
        let b : BitVec 64 := BitVec.ofNat 64 (leAt sec 8 n)
        let sg (v : BitVec 64) : Int := signed (8 * n) v.toNat
        ∀ c aop v, (c, aop, v) ∈ [(Instr.atomicAdd port p, 0x0, x + a),
          (.atomicFadd port p, 0x1, (f32Add (x.setWidth 32) (a.setWidth 32)).setWidth 64), (.atomicSwap port p, 0x2, a),
          (.atomicCas port p, 0x3, if x = b then a else x), (.atomicUmin port p, 0x4, if x.toNat ≤ a.toNat then x else a),
          (.atomicUmax port p, 0x5, if x.toNat ≤ a.toNat then a else x), (.atomicSmin port p, 0x6, if sg x ≤ sg a then x else a),
          (.atomicSmax port p, 0x7, if sg x ≤ sg a then a else x), (.atomicAnd port p, 0x8, x &&& a), (.atomicOr port p, 0x9, x ||| a),
          (.atomicXor port p, 0xA, x ^^^ a)] → field p.hdr 111 108 = aop →
          writes c (leBytes 8 x.toNat) (splice old o (leBytes n v.toNat)))) ∧
    (∀ st c opc, checkReq s (epGrants s (pkSrc p)) (nextCount s p) p = .error st →
      (c, opc) ∈ [(Instr.read port p, 0x01), (.readWord port p, 0x02), (.write port p, 0x03), (.writeBe port p, 0x04),
        (.writePosted port p, 0x05), (.reduceFadd port p, 0x07)] →
      pkOpc p = opc → exec c s = .next (refuseReq p (requestKey s p) st (taken p s)))

/-- Acknowledgements and answers (R317, R319, R321, R324, R325, R331): SEQ_ACK moves ACKED on, MC_ACK and MC_SKIP take the
member out of the packets they cover, an answer ends the request it matches, with the bytes it brings or the status it
carries, and one that matches none is counted and dropped. -/
def Obligations.AnswersAndAcknowledgementsAreTaken : Prop :=
  ∀ (s : State) (port : Nat) (p : Packet), InOrder s port p → s.fabric.waiting = [] →
    (pkOpc p = 0x10 → bitOf p.hdr 82 = false → let k := streamKey (pkSrc p) (field p.hdr 81 80)
      let st := smGet send0 k s.fabric.send
      ∃ u, exec (.seqAck port p) s = .next u ∧ smGet send0 k u.fabric.send =
        (if laterW 16 (field p.hdr 79 64) st.acked then { st with acked := field p.hdr 79 64 } else st) ∧ u.dram = s.dram) ∧
    (∀ tc m, field p.hdr 111 80 = 1 → let n := field p.hdr 79 64
      let e := field p.hdr 119 112
      mcClasses s [n] e = [tc] → smFind? (tc * 65536 + n) s.fabric.mcOut = some m →
      let left := m.members.filter (fun x => x ≠ e)
      let now (u : State) : Prop := smFind? (tc * 65536 + n) u.fabric.mcOut = if left = [] then none else some { m with members := left }
      (pkOpc p = 0x11 → ∃ u, exec (.mcAck port p) s = .next u ∧ now u) ∧
      (pkOpc p = 0x12 → ∃ u, exec (.mcSkip port p) s = .next u ∧ now u ∧
        ∀ x, smFind? m.job s.work.groups = none → getJob? s m.job = some x → ∃ y, getJob? u m.job = some y ∧ y.skipped = putBit x.skipped e true)) ∧
    (∀ r x j chan, smFind? (reqKey (pkSrc p) (pkTag p)) s.fabric.reqs = some r → pkProxy p = false → getJob? s j = some x →
      dCtx? x.desc = none → let k := reqKey (pkSrc p) (pkTag p)
      let err (u : State) (at_ : Nat) : Prop := ∃ y, getJob? u j = some y ∧ jobOut y chan = jobOut x chan - 1 ∧
        (smFind? chan x.remoteErr = none → smFind? chan y.remoteErr = some (statusOf (pkStatus p), at_))
      (∀ slot off lead len at_ q, r.who = .jobRead j chan slot off lead len at_ →
        openPacket s (some (exchangePart s (pkSrc p) r.part)) (nextCount s p) p = some q →
        (pkOpc p = 0x20 → statusOf (pkStatus p) = .ok → ∃ u y, exec (.readResp port p) s = .next u ∧ smFind? k u.fabric.reqs = none ∧
          getJob? u j = some y ∧ jobOut y chan = jobOut x chan - 1 ∧
          ∀ i, i < len → smFind? (slot * 2 ^ 40 + off + i) y.remote = some ((slice (spanBytes q) lead len).getD i 0)) ∧
        (pkOpc p = 0x20 → statusOf (pkStatus p) ≠ .ok → ∃ u, exec (.readResp port p) s = .next u ∧ smFind? k u.fabric.reqs = none ∧ err u at_) ∧
        (pkOpc p = 0x22 → statusOf (pkStatus p) ≠ .ok → ∃ u, exec (.atomicResp port p) s = .next u ∧ smFind? k u.fabric.reqs = none ∧ err u at_) ∧
        (pkOpc p = 0x22 → statusOf (pkStatus p) = .ok → exec (.atomicResp port p) s = .next (bump 0x3440 4 (taken p s)))) ∧
      (∀ at_, r.who = .jobWrite j chan at_ → pkOpc p = 0x21 →
        (statusOf (pkStatus p) = .ok → ∃ u y, exec (.comp port p) s = .next u ∧ smFind? k u.fabric.reqs = none ∧ getJob? u j = some y ∧
          jobOut y chan = jobOut x chan - 1 ∧ y.remoteErr = x.remoteErr) ∧
        (statusOf (pkStatus p) ≠ .ok → ∃ u, exec (.comp port p) s = .next u ∧ smFind? k u.fabric.reqs = none ∧ err u at_))) ∧
    (smFind? (reqKey (if pkProxy p then pkOrigDst p else pkSrc p) (pkTag p)) s.fabric.reqs = none → ∀ c opc,
      (c, opc) ∈ [(Instr.readResp port p, 0x20), (.comp port p, 0x21), (.atomicResp port p, 0x22)] → pkOpc p = opc →
      exec c s = .next (bump 0x3440 4 (taken p s)))

/-- Transit, the timers of the fabric, and routes (R313-R315, R319-R321, R324, R420): a packet for another endpoint goes to
the port the router chooses, each timer acknowledges, skips, ends or marks what it is for and does nothing where nothing is
due, and a route entry that rises begins its streams anew. -/
def Obligations.TransitTimersAndRoutes : Prop :=
  ∀ (s : State),
    (∀ port p q, linkUp s port = true → pkMc p = false → p.ext = none → isLocal s (pkDst p) = false →
      let o : Outgoing := { outUnit (.pkt p) (epSub s (pkSrc p)) 3 none with transit := true, inPort := port }
      (s.ready = true → routeFenced (routeOf s (pkDst p)) = false →
        (choosePort s (pkDst p) (pkTc p) (pkEsc p) true = .go q → exec (.transitForward port (.pkt p)) s = .next (toPort q o s)) ∧
        (choosePort s (pkDst p) (pkTc p) (pkEsc p) true = .unroutable →
          exec (.transitForward port (.pkt p)) s = .next (dropUnroutable port o s))) ∧
      (s.ready = false → opcIsRequest (pkOpc p) = false → exec (.transitForward port (.pkt p)) s = .next s) ∧
      (s.ready = false → opcIsRequest (pkOpc p) = true →
        exec (.transitForward port (.pkt p)) s = .next (proxyAnswer p (answerOpc (pkOpc p)) .fenced s))) ∧
    (∀ port u, linkUp s port = false → exec (.transitForward port u) s = .next s) ∧
    (∀ cell src tc, let k := recvKey cell src tc
      let r := getRecv s cell k
      let w := if cell then 256 else 65536
      (r.unacked = 0 → exec (.seqAckTimer cell src tc) s = .next s) ∧
      (r.unacked ≠ 0 → exec (.seqAckTimer cell src tc) s = .next (controlPacket 0x10 src ((r.exp + w - 1) % w +
        (if cell then 0 else tc % 4 * 2 ^ 16) + b2n cell * 2 ^ 18) (setRecv cell k { r with unacked := 0 } s))) ∧
      (r.held = [] → exec (.reorderTimeout cell src tc) s = .next s) ∧
      (∀ n u, r.held = [(n, u)] → exec (.reorderTimeout cell src tc) s = .next (deliverHeld cell src tc 2 (raiseEvent 0x0032
        (leBytes 1 src ++ leBytes 1 tc ++ leBytes 2 r.exp ++ leBytes 2 n) (bump 0x3440 2 (setRecv cell k { r with
          exp := n, wraps := if n < r.exp then r.wraps + 1 else r.wraps } s))))) ) ∧
    (∀ src tc n, let k := streamKey src tc
      let r := smGet mcRecv0 k s.fabric.recvMc
      (r.toAck = [] → exec (.mcAckTimer src tc) s = .next s) ∧
      (r.toAck = [n] → exec (.mcAckTimer src tc) s = .next (mcReport 0x11 src n 1 (ownEp s)
        { s with fabric := { s.fabric with recvMc := smPut k { r with toAck := [] } s.fabric.recvMc } }))) ∧
    (∀ dst tag, (smFind? (reqKey dst tag) s.fabric.reqs = none → exec (.requestTimeout dst tag) s = .next s) ∧
      ∀ r j chan at_ x, smFind? (reqKey dst tag) s.fabric.reqs = some r → r.who = .jobWrite j chan at_ → getJob? s j = some x →
        ∃ u y, exec (.requestTimeout dst tag) s = .next u ∧ smFind? (reqKey dst tag) u.fabric.reqs = none ∧
          smFind? (reqKey dst tag) u.fabric.retired = some (s.ptime + 2 * obj s 0x4423 0 * 1000) ∧ getJob? u j = some y ∧
          jobOut y chan = jobOut x chan - 1 ∧ (smFind? chan x.remoteErr = none → smFind? chan y.remoteErr = some (.errLink, at_))) ∧
    (∀ place o p, s.fabric.waiting[place]? = some o → o.unit = .pkt p →
      (waitsAtFabric s o p = true → exec (.escWaitExpiry place) s = .next (retryWaiting (bump 0x3440 7 { s with fabric := { s.fabric with
        waiting := s.fabric.waiting.set place { o with unit := .pkt { p with hdr := putBit p.hdr 10 true } } } }))) ∧
      (waitsAtFabric s o p = false → exec (.escWaitExpiry place) s = .next s)) ∧
    (∀ place, s.fabric.waiting.length ≤ place → exec (.escWaitExpiry place) s = .next s) ∧
    (∀ e v, e < 256 → routeOk v = true → routeFenced v = false → s.fabric.waiting = [] → poolQuiet s →
      let set := setRoute e v s
      exec (.routeEntryWrite e v) s = .next (answerFm (if e < 128 then 0x2420 else 0x2421) (e % 128 + 1)
        (.ok, if routeValid v = true ∧ routeValid (routeOf s e) = false then clearStreams e set else set))) ∧
    (∀ e v, 256 ≤ e ∨ routeOk v = false → exec (.routeEntryWrite e v) s = .next (send (.cmdAnswer 0x33) s)) ∧
    (∀ v, v < 256 → (List.range 14).any (linkUp s) = false →
      exec (.nfOwnEndpointWrite v) s = .next (answerFm 0x2422 0 (.ok, setObj 0x2422 0 v s)) ∧ ownEp (setObj 0x2422 0 v s) = v) ∧
    (∀ v, v < 256 → (List.range 14).any (linkUp s) = true → exec (.nfOwnEndpointWrite v) s = .next (send (.cmdAnswer 0x31) s)) ∧
    (∀ v, 256 ≤ v → exec (.nfOwnEndpointWrite v) s = .next (send (.cmdAnswer 0x33) s))

/-- The scheduler (R336-R342): a sending opportunity starts a subscriber that has just become eligible at the virtual time,
raises the minimum credits of the subscribers that wait and takes the packet of the earliest service tag, charging its
weight, unless a subscriber's minimum is due; a shaped node gains credit up
to its CAP only while something of it waits; the minima of all subscribers stay within 1,024. -/
def Obligations.SchedulerServesAndShapes : Prop :=
  ∀ (s : State) (port : Nat),
    let es := eligibleLeaves s port
    let s1 := accrueMin port es (activate port es s)
    let go (tier : Bool) (e : ReadyLeaf) : State := panicUpdate port (sendItem port e.item (countServed e.sub tier (charge port tier e s1)))
    let st (e : ReadyLeaf) : Nat := (smGet sub0 e.sub (getSched s1 port).subs).st
    (es = [] → exec (.sendingOpportunity port) s = .next (updSched port (fun p => { p with active := [] }) s)) ∧
    (∀ e, es = [e] → let b := smGet sub0 e.sub (getSched s port).subs
      let c := smGet sub0 e.sub (getSched s1 port).subs
      c.mc = min (b.mc + obj s 0x2501 (e.sub + 1)) 4096 ∧
      c.st = (if (getSched s port).active.any (fun k => k / 8 == e.sub) = false ∧ tagEarlier b.st (getSched s port).vt = true
        then (getSched s port).vt else b.st)) ∧
    (∀ e, es = [e] → exec (.sendingOpportunity port) s = .next (go (decide (1024 ≤ subMc s1 port e.sub)) e)) ∧
    (∀ e f, es = [e, f] → e.sub ≠ f.sub → promoted s1 e.item = false → promoted s1 f.item = false →
      (subMc s1 port e.sub < 1024 → subMc s1 port f.sub < 1024 →
        exec (.sendingOpportunity port) s = .next (go false (if tagEarlier (st f) (st e) then f else e))) ∧
      (1024 ≤ subMc s1 port e.sub → subMc s1 port f.sub ≤ subMc s1 port e.sub → exec (.sendingOpportunity port) s = .next (go true e)) ∧
      (1024 ≤ subMc s1 port f.sub → subMc s1 port e.sub < subMc s1 port f.sub → exec (.sendingOpportunity port) s = .next (go true f))) ∧
    (∀ e u, charge port false e s1 = u → let b := smGet sub0 e.sub (getSched s1 port).subs
      let v := smGet svc0 e.svc b.svcs
      (smGet sub0 e.sub (getSched u port).subs).st = (b.st + 65536 / obj s1 0x2500 (e.sub + 1)) % 2 ^ 32 ∧
      leafOf u port e.sub e.svc = v.leaf.eraseIdx e.idx ∧ (getSched u port).vt = b.st ∧
      ∀ x, x ≠ e.sub → smGet sub0 x (getSched u port).subs = smGet sub0 x (getSched s1 port).subs) ∧
    (∀ sub svc, let r := shapeOf s sub svc (portKind port)
      (r.1 = 0 ∨ nodeWaits s port sub svc = false → exec (.shapingCreditAccrual port sub svc) s = .next s) ∧
      (r.1 ≠ 0 → nodeWaits s port sub svc = true → portKind port ≠ 2 → ∃ u, exec (.shapingCreditAccrual port sub svc) s = .next u ∧
        let b := smGet sub0 sub (getSched s port).subs
        let c := smGet sub0 sub (getSched u port).subs
        (svc = 4 → c = { b with credit := min (b.credit + 1) ((r.2 * 256 : Nat) : Int) }) ∧
        (svc ≠ 4 → c.credit = b.credit ∧ (smGet svc0 svc c.svcs).credit = min ((smGet svc0 svc b.svcs).credit + 1) ((r.2 * 256 : Nat) : Int)))) ∧
    (∀ sub v, sub ≤ 64 → v ≤ 65535 →
      let others := (((List.range 65).filter (fun x => x ≠ sub)).map (fun x => obj s 0x2501 (x + 1))).foldl (· + ·) 0
      (others + v ≤ 1024 → exec (.schSubMinWrite sub v) s = .next (answerFm 0x2501 (sub + 1) (.ok, setObj 0x2501 (sub + 1) v s))) ∧
      (1024 < others + v → exec (.schSubMinWrite sub v) s = .next (send (.cmdAnswer 0x31) s))) ∧
    (∀ sub v, 64 < sub ∨ 65535 < v → exec (.schSubMinWrite sub v) s = .next (send (.cmdAnswer 0x33) s))

/-! ## Partitions, grants and keys (spec/16), fences and watchdogs (spec/17) -/

/-- PART_CMD, PART_SELF_RESET and the phases of a fence (R351, R352, R368, R372-R377): a command the state permits moves the
partition or starts its fence, one it does not permit changes only PART_CMD_STATUS; the answer phase abandons what is
unanswered, moves every HEAD to its TAIL and is made only once nothing is outstanding, no issued stream runs and no access
waits at its home, or the budget has expired; the confirm
phase ends the fence in the state the command asks for; the last sanitising fill leaves the partition FREE and its blocks
zero. -/
def Obligations.PartitionsAreCommandedAndFenced : Prop :=
  ∀ (s : State) (p : Nat), p < 64 →
    let unheld (b : Nat) : Prop :=
      (∀ l ∈ keptLines s [b], tagHstate (dirTag s l) = 0) ∧ ∀ e ∈ s.coh.filter, e.1 >>> 22 ≠ b
    (∀ cmd : Bytes, s.work.cmdRunning = false → s.ready = true → leAt cmd 1 1 = p → (slice cmd 2 14).any (· != 0) = false → p < geomParts s →
      let r : State := { s with work := { s.work with cmdRunning := true } }
      let done (c : Instr) (u : State) : Prop := exec c s = .next (answerFm 0x2100 0 (.ok, u))
      let no (c : Instr) : Prop := exec c s = .next (send (.cmdAnswer 0x31) (partDone .errPermission s))
      (partState s p = 0 → s.power.closing = false → done (.partCmdCreate cmd) (partDone .ok (setPartState p 1 0 s))) ∧
      (partState s p ≠ 0 → no (.partCmdCreate cmd)) ∧
      (partState s p = 1 → done (.partCmdStart cmd) (partDone .ok (setPartState p 2 0 s))) ∧
      (partState s p ≠ 1 → no (.partCmdStart cmd)) ∧
      (partState s p = 2 → done (.partCmdHold cmd) (startFence p 2 .hold true r) ∧ done (.partCmdReset cmd) (startFence p 1 .reset true r)) ∧
      (partState s p ≠ 2 → no (.partCmdHold cmd) ∧ no (.partCmdReset cmd)) ∧
      (partState s p = 1 ∨ partState s p = 2 → s.sec.blob = none →
        done (.partCmdDestroy cmd) (startFence p 3 .destroy true (revokeRun p r))) ∧
      (partState s p ≠ 1 → partState s p ≠ 2 → no (.partCmdDestroy cmd))) ∧
    (∀ cmd c, s.work.cmdRunning = true ∨ s.ready = false → c ∈ [Instr.partCmdCreate cmd, .partCmdStart cmd, .partCmdHold cmd, .partCmdDestroy cmd,
      .partCmdReset cmd] → exec c s = .next (send (.cmdAnswer 0x11) s)) ∧
    (s.work.cmdRunning = false → s.ready = true → partState s p = 2 → exec (.partSelfReset p 1) s =
      .next (send (.cmdAnswer 0) (startFence p 4 .reset true { s with work := { s.work with cmdRunning := true } }))) ∧
    (∀ v, v ≠ 1 → exec (.partSelfReset p v) s = .next (send (.cmdAnswer 0x33) s)) ∧
    -- what the start of a fence leaves
    (∀ cause cmd as_, fencing s p = false → s.sync.waits = [] → s.sync.objs = [] → partState (startFence p cause cmd as_ s) p = 3 ∧
      (getPart (startFence p cause cmd as_ s) p).fence = some { cause := cause, cmd := cmd, asCommand := as_, answered := false } ∧
      ∀ q, q ≠ p → getPart (startFence p cause cmd as_ s) q = getPart s q) ∧
    ((getPart s p).fence = none → exec (.fenceDrainEnd p) s = .next s ∧ exec (.fenceDrainBudgetExpiry p) s = .next s ∧
      exec (.fenceConfirm p) s = .next s) ∧
    (∀ f, (getPart s p).fence = some f → s.coh.failure = none → s.power.orderly = false → poolQuiet s →
      (f.answered = false → f.cmd = .destroy ∨ (∀ e ∈ s.work.jobs, e.2.part ≠ p) →
        let answers (c : Instr) : Prop := ∃ u, exec c s = .next u ∧ (getPart u p).fence = some { f with answered := true } ∧ (getPart u p).di = [] ∧
          (∀ e ∈ u.fabric.reqs, e.2.part ≠ p) ∧ (∀ e ∈ u.work.jobs, e.2.part ≠ p) ∧
          (∀ i, i < (getPart s p).qCount → (getQueue u ((getPart s p).qFirst + i)).head = (getQueue u ((getPart s p).qFirst + i)).tail) ∧
          u.dram = s.dram
        (openReqs s p = [] → streamsRun s p = false → answers (.fenceDrainEnd p)) ∧ answers (.fenceDrainBudgetExpiry p)) ∧
      (f.answered = false → openReqs s p ≠ [] ∨ openLocal s p ≠ 0 ∨ streamsRun s p = true → exec (.fenceDrainEnd p) s = .next s) ∧
      (f.answered = true → exec (.fenceDrainEnd p) s = .next s ∧ exec (.fenceDrainBudgetExpiry p) s = .next s) ∧
      (f.answered = true → f.cmd ≠ .moduleReset → (∀ t ∈ partTiles s p, tileLines s t = []) → s.sync.waits = [] →
        ∃ u, exec (.fenceConfirm p) s = .next u ∧ partState u p = (match f.cmd with | .hold => 1 | .destroy => 4 | _ => 2) ∧
          (getPart u p).fence = none ∧ (f.asCommand = true → u.work.cmdRunning = false)) ∧
      (f.answered = false → exec (.fenceConfirm p) s = .next s)) ∧
    (partState s p = 4 → poolQuiet s → (∀ f ∈ s.work.fills, f.2 = some p → unheld f.1) → ∃ u, exec (.sanitisingFillDone p) s = .next u ∧ partState u p = 0 ∧
      (∀ f ∈ u.work.fills, f.2 ≠ some p) ∧ ∀ f ∈ s.work.fills, f.2 = some p → f.1 < 3584 → u.dram.init.getLsbD f.1 = true ∧
        ∀ c ∈ u.dram.cells, (c.1 % 2 ^ 48) / 128 / 2 ^ 22 ≠ f.1) ∧
    (partState s p ≠ 4 → exec (.sanitisingFillDone p) s = .next s)

/-- Grants, bindings and block drains (R353, R356, R357, R368): PART_BLOCKS gives rights at once, takes one away at once
with a drain, and lowers one only after its drain; a drain ends only when no job holds such an extent; a value that names an
absent block or partition, overlaps another's or breaks its format changes nothing. -/
def Obligations.GrantsAndBindingsChange : Prop :=
  ∀ (s : State) (p : Nat), p < 64 →
    (∀ v, p < geomParts s → v < 2 ^ 7168 → (∀ b, b < 3584 → rightIn v b ≠ 3) →
      (∀ b, b < 3584 → rightIn v b ≠ 0 → b < geomBlocks s ∧ (rightIn v b = 2 → ∀ q, q < 64 → q ≠ p → partRight s q b ≠ 2)) →
      (∀ b, b < 3584 → rightIn v b ≠ partRight s p b → blockBusy s b = false) →
      ∃ u, exec (.partBlocksWrite p v) s = .next (answerFm 0x2110 (p + 1) (.ok, u)) ∧
        (∀ b, b < 3584 → partRight u p b = if rightIn v b = 1 ∧ partRight s p b = 2 then 2 else rightIn v b) ∧
        (∀ b r, ({ block := b, right := r } : BlockDrain) ∈ (getPart u p).drains ↔ { block := b, right := r } ∈ (getPart s p).drains ∨
          (b < 3584 ∧ rightIn v b ≠ partRight s p b ∧ ((rightIn v b = 0 ∧ r = 0) ∨ (rightIn v b = 1 ∧ partRight s p b = 2 ∧ r = 1)))) ∧
        u.dram = s.dram) ∧
    (∀ v, geomParts s ≤ p → exec (.partBlocksWrite p v) s = .next (send (.cmdAnswer 0x31) s) ∧
      exec (.partKeysWrite p v) s = .next (send (.cmdAnswer 0x31) s)) ∧
    (∀ v, p < geomParts s → 2 ^ 7168 ≤ v → exec (.partBlocksWrite p v) s = .next (send (.cmdAnswer 0x33) s)) ∧
    (∀ b, (getPart s p).drains.find? (fun d => d.block == b) = none → exec (.blockWithdrawalDrainEnd p b) s = .next s) ∧
    (∀ b d, (getPart s p).drains.find? (fun d => d.block == b) = some d → b < 3584 →
      (fencing s p = true → exec (.blockWithdrawalDrainEnd p b) s = .next s) ∧
      (fencing s p = false → (∀ e ∈ s.work.jobs, e.2.part = p → holdsBlock s e.2 b (d.right == 1) = false) →
        ∃ u, exec (.blockWithdrawalDrainEnd p b) s = .next u ∧ (getPart u p).drains = (getPart s p).drains.filter (fun d => d.block ≠ b) ∧
          (d.right = 1 → partRight u p b = 1 ∧ u.work.fills = s.work.fills) ∧
          (d.right ≠ 1 → u.objs = s.objs ∧ (blockGranted s b = false → regionOfBlock? s b = none → (∀ f ∈ s.work.fills, f.1 ≠ b) →
            u.work.fills = s.work.fills ++ [(b, none)])))) ∧
    (∀ b, s.work.fills.contains (b, none) = true → poolQuiet s → (∀ l ∈ keptLines s [b], tagHstate (dirTag s l) = 0) →
      (∀ e ∈ s.coh.filter, e.1 >>> 22 ≠ b) → b < 3584 → ∃ u, exec (.withdrawnBlockFillDone b) s = .next u ∧
        u.objs = (bump 0x3111 0 s).objs ∧ u.work.fills = s.work.fills.filter (fun f => f.1 != b) ∧ u.dram.init.getLsbD b = true ∧
        ∀ c ∈ u.dram.cells, (c.1 % 2 ^ 48) / 128 / 2 ^ 22 ≠ b) ∧
    (∀ b, s.work.fills.contains (b, none) = false → exec (.withdrawnBlockFillDone b) s = .next s) ∧
    (∀ v, v < 2 ^ 2048 → (∀ e, e < 256 → field v (8 * e + 7) (8 * e) = 0xFF ∨ field v (8 * e + 7) (8 * e) < geomParts s) →
      exec (.epPartitionWrite v) s = .next (answerFm 0x2122 0 (.ok, setObj 0x2122 0 v s))) ∧
    (∀ v, 2 ^ 2048 ≤ v → exec (.epPartitionWrite v) s = .next (send (.cmdAnswer 0x33) s)) ∧
    (∀ v e, v < 2 ^ 2048 → e < 256 → field v (8 * e + 7) (8 * e) ≠ 0xFF → geomParts s ≤ field v (8 * e + 7) (8 * e) →
      exec (.epPartitionWrite v) s = .next (send (.cmdAnswer 0x31) s)) ∧
    (∀ v, p < geomParts s → v < 2 ^ 25 → field v 23 16 = 0xFF ∨ field v 23 16 < keyCount v → keyFirst v + keyCount v ≤ 0xF0 →
      (∀ q, q < 64 → q ≠ p → keyCount (partKeys s q) = 0 ∨ keyFirst v + keyCount v ≤ keyFirst (partKeys s q) ∨
        keyFirst (partKeys s q) + keyCount (partKeys s q) ≤ keyFirst v) → partState s p = 0 ∨ partState s p = 1 →
      exec (.partKeysWrite p v) s = .next (answerFm 0x2112 (p + 1) (.ok, setObj 0x2112 (p + 1) v s)))

/-- Keys, attestation and blobs (R359, R365-R367, R369): INSTALL, ROLL and REVOKE change exactly their slot, and only when
the wrapped key opens and names this module; a roll ends by clearing PREVIOUS; an attestation request is kept until its report
is ready; a blob is opened, decrypted chunk by chunk, and ends ERR_KEY at a chunk that does not verify. The ciphers, the
digest and the key agreement are the module's own functions; the secrets are free values (log entry 12). -/
def Obligations.KeysReportsAndBlobs : Prop :=
  ∀ s : State,
    (∀ cmd : Bytes, let k := leAt cmd 1 1
      let b (op : Nat) : Bytes := keyCmdBytes op cmd
      let mine : Prop := leAt (b 1) 4 4 = Config.serial.toNat % 2 ^ 32
      s.power.debug ≠ 2 → k < 0xF0 → k < obj s 0x1110 0 →
      ((slice cmd 105 7).any (· != 0) || (slice cmd 160 16).any (· != 0)) = false →
      (∃ st u, exec (.install none cmd) s = .next (answerFm 0x7020 0 (st, u)) ∧
        (∀ key, mine → commandKey labelKey (b 1) = some key → st = .ok ∧
          getSlot u k = { state := 1, part := 0xFF, epoch := leAt (b 1) 2 2, current := key, previous := 0 }) ∧
        (¬ mine ∨ commandKey labelKey (b 1) = none → st = .errKey ∧ getSlot u k = getSlot s k) ∧
        ∀ i, i ≠ k → getSlot u i = getSlot s i) ∧
      (∃ st u, exec (.roll none cmd) s = .next (answerFm 0x7020 0 (st, u)) ∧
        (∀ key, mine → commandKey labelKey (b 2) = some key → st = .ok ∧
          getSlot u k = { state := 2, part := 0xFF, epoch := leAt (b 2) 2 2, current := key, previous := (getSlot s k).current }) ∧
        (¬ mine ∨ commandKey labelKey (b 2) = none → st = .errKey ∧ getSlot u k = getSlot s k) ∧
        ∀ i, i ≠ k → getSlot u i = getSlot s i) ∧
      (∃ st u, exec (.revoke none cmd) s = .next (answerFm 0x7020 0 (st, u)) ∧
        (mine → st = .ok ∧ getSlot u k = { getSlot s k with state := 0, current := 0, previous := 0 }) ∧
        (¬ mine → st = .errKey ∧ getSlot u k = getSlot s k) ∧ ∀ i, i ≠ k → getSlot u i = getSlot s i)) ∧
    (∀ cmd c, s.power.debug ≠ 2 → 0xF0 ≤ leAt cmd 1 1 → ((slice cmd 105 7).any (· != 0) || (slice cmd 160 16).any (· != 0)) = false →
      c ∈ [Instr.install none cmd, .roll none cmd, .revoke none cmd] →
      exec c s = .next (send (.cmdAnswer 0x31) (keyDone .errPermission s))) ∧
    (∀ k, ((getSlot s k).state = 2 → exec (.keyRollExpiry k) s = .next (updSlot k (fun x => { x with state := 1, previous := 0 }) s)) ∧
      ((getSlot s k).state ≠ 2 → exec (.keyRollExpiry k) s = .next s)) ∧
    (∀ req : Bytes, req.length = 36 → leAt req 34 2 = 0 →
      (leAt req 32 1 = 0 → exec (.attestationRequest none req) s = .next (answerFm 0x7010 0 (.ok,
        { s with sec := { s.sec with attest := some (slice req 0 32, 0, 0xFF) } }))) ∧
      (leAt req 32 1 = 1 → leAt req 33 1 < geomParts s → exec (.attestationRequest none req) s = .next (answerFm 0x7010 0 (.ok,
        { s with sec := { s.sec with attest := some (slice req 0 32, 1, leAt req 33 1) } }))) ∧
      (∀ d, leAt req 32 1 = 0 ∨ (leAt req 32 1 = 1 ∧ leAt req 33 1 ≠ d) →
        exec (.attestationRequest (some d) req) s = .next (send (.cmdAnswer 0x31) s))) ∧
    (∀ nonce scope part, s.sec.attest = some (nonce, scope, part) → exec .attestationReportReady s =
      .next (setObj 0x7011 0 (leAt (attestReport s nonce scope part) 0 448) { s with fresh := s.fresh + 1, sec := { s.sec with attest := none } })) ∧
    (s.sec.attest = none → exec .attestationReportReady s = .next s) ∧
    (∀ cmd : Bytes, cmd.length = 32 → leAt cmd 30 2 = 0 →
      (s.sec.blob ≠ none → exec (.blobUnwrapCmd none cmd) s = .next (send (.cmdAnswer 0x11) s)) ∧
      (s.sec.blob = none → s.power.debug ≠ 2 → leAt cmd 0 8 + leAt cmd 8 8 ≤ geomBlocks s * 2 ^ 28 →
        leAt cmd 16 8 + leAt cmd 24 4 ≤ geomBlocks s * 2 ^ 28 → let b : BlobSt := {
          part := none, token := leAt cmd 28 2, src := leAt cmd 0 8, srcLen := leAt cmd 8 8, dst := leAt cmd 16 8, dstLen := leAt cmd 24 4,
          plen := 0, chunkLog2 := 0, chunksAt := 0, key := none, aad := [], next := 0 }
        exec (.blobUnwrapCmd none cmd) s = .next (answerFm 0x7030 0 (match blobOpen b s with
          | (none, s1) => (.ok, { s1 with sec := { s1.sec with blob := some b } })
          | (some (.error st), s1) => (st, setObj 0x7031 0 (b.token * 65536 + statusCode st) s1)
          | (some (.ok b1), s1) => (.ok, blobKeep b1 s1))))) ∧
    (s.sec.blob = none → exec .blobChunkDone s = .next s) ∧
    (∀ b k d s1, s.sec.blob = some b → b.key = some k → let size := 2 ^ b.chunkLog2
      let n := min size (b.plen - b.next * size)
      bassoonRead (b.src + b.chunksAt + b.next * (size + 64)) (n + 16) s = (.ok d, s1) →
      let open_ := gcmOpen k (leBytes 8 b.next ++ zeros 4) b.aad (slice d 0 n) (slice d n 16)
      (open_ = none → exec .blobChunkDone s = .next (blobEnd .errKey b.next s1)) ∧
      ∀ plain e s2, open_ = some plain → tryMem .blob .bassoon (.write (b.dst + b.next * size) ((slice plain 0 n).map some)) s1 = (.ok e, s2) →
        exec .blobChunkDone s = .next (blobKeep { b with next := b.next + 1 } s2))

/-! ## Watchdogs and module resets (spec/17), the spare tile command (spec/18) -/

/-- Heartbeats, tile clocks, spare tiles and starved ports (R381, R382, R387, R240): a heartbeat is noted; a tile that falls
silent or loses its clock is FAILED in MRAM and leaves the powered tiles, failing the tile domain when a READY logical tile
is on it; SPARE_TILE_CMD clears a healthy tile before its replacement; a starved CXL port is only reported, a starved
accelerator port is brought up anew, its endpoints are fenced and their active partitions reset. -/
def Obligations.TilesAndPortsAreWatched : Prop :=
  ∀ s : State,
    (∀ t, s.coh.tilesUp.contains t = true → exec (.tileHeartbeat t) s = .next { s with coh := { s.coh with
      beats := smPut t s.ptime s.coh.beats } }) ∧
    (∀ t c, s.coh.tilesUp.contains t = false → c ∈ [Instr.tileHeartbeat t, .tileHeartbeatTimeout t, .tileClockLockLoss t] →
      exec c s = .next s) ∧
    (∀ t, s.ptime < smGet 0 t s.coh.beats + obj s 0x4901 0 * 1000 → exec (.tileHeartbeatTimeout t) s = .next s) ∧
    (∀ t, s.coh.tilesUp.contains t = true →
      let overdue : Prop := smGet 0 t s.coh.beats + obj s 0x4901 0 * 1000 ≤ s.ptime
      let failed (u : State) : Prop := t ∈ u.mram.failedTiles ∧ t ∉ u.coh.tilesUp ∧ ∀ p ∈ s.mram.failedTiles, p ∈ u.mram.failedTiles
      -- no logical tile is on it
      ((∀ l, l < geomTiles s → tilePhys s l = t → tileState s l = 2) →
        let alone (c : Instr) : Prop := ∃ u, exec c s = .next u ∧ failed u ∧ u.coh.failure = s.coh.failure ∧ u.work = s.work ∧ u.dram = s.dram ∧
          obj u 0x3804 0 = (freeTiles u).length
        alone (.tileClockLockLoss t) ∧ (overdue → alone (.tileHeartbeatTimeout t))) ∧
      -- a READY logical tile is on it
      (∀ l, l < 64 → l < geomTiles s → tilePhys s l = t → tileState s l = 0 →
        (∀ k, k < l → tilePhys s k = t → tileState s k = 2) → s.coh.failure = none → s.coh.lines = [] → poolQuiet s →
        smRisingFrom 0 s.work.jobs = true →
        let fails (c : Instr) : Prop := ∃ u, exec c s = .next u ∧ failed u ∧ u.coh.failure = some { cause := 7, salvage := true, since := s.ptime } ∧
          tileState u l = 2 ∧ u.coh.txns = [] ∧ u.dram = s.dram ∧
          (∀ j x, getJob? s j = some x → x.phase = .running → x.tile ≠ 0xFF → JobEnded u j .errInternal 0 0) ∧
          (∀ j x, getJob? s j = some x → x.phase ≠ .running → getJob? u j = some x)
        fails (.tileClockLockLoss t) ∧ (overdue → fails (.tileHeartbeatTimeout t)))) ∧
    -- SPARE_TILE_CMD
    (∀ l, geomTiles s ≤ l → exec (.spareTileCmd l) s = .next (send (.cmdAnswer 0x31) s)) ∧
    (∀ l, l < 64 → l < geomTiles s →
      (tileState s l = 0 → tileLines s l = [] → exec (.spareTileCmd l) s = .next (answerFm 0x2802 0 (.ok,
        setObj 0x3601 (l + 1) 1 (updTile l (fun x => { x with replace := true }) s)))) ∧
      (tileState s l = 1 → exec (.spareTileCmd l) s = .next (answerFm 0x2802 0 (.ok, updTile l (fun x => { x with replace := true }) s))) ∧
      (1 < tileState s l → let free := spareTileFor { s with coh := { s.coh with tilesUp := s.coh.tilesUp.filter (· != tilePhys s l) } } (tileRing s l)
        (∀ p, free = some p → ∃ u, exec (.spareTileCmd l) s = .next u ∧ tileState u l = 0 ∧ tilePhys u l = p ∧ tileRing u l = ringOfPhys p ∧
          getTile u l = tile0 ∧ tileOwner u l = tileOwner s l ∧ u.dram = s.dram ∧ ∀ k, k < 64 → k ≠ l → tilePhys u k = tilePhys s k ∧ tileState u k = tileState s k) ∧
        (free = none → ∃ u, exec (.spareTileCmd l) s = .next u ∧ tileState u l = 2 ∧ tilePhys u l = tilePhys s l ∧ u.tiles = s.tiles))) ∧
    -- starvation
    (∀ port, port < 4 → s.cxl.trained.getLsbD port = true → exec (.cxlPortStarvation port) s =
      .next (raiseEvent 0x0051 (leBytes 1 (16 + port) ++ leBytes 1 0xFF) (bump 0x3900 5 s))) ∧
    (∀ port, 4 ≤ port ∨ s.cxl.trained.getLsbD port = false → exec (.cxlPortStarvation port) s = .next s) ∧
    (∀ port tc, 14 ≤ port ∨ 4 ≤ tc ∨ linkUp s port = false → exec (.portStarvation port tc) s = .next s) ∧
    (∀ port tc, port < 14 → tc < 4 → linkUp s port = true → (getLane s port).state = 5 → poolQuiet s →
      ∃ u, exec (.portStarvation port tc) s = .next u ∧ linkUp u port = false ∧ u.dram = s.dram ∧
        (port < 12 → ∀ e, e < 256 → routeValid (routeOf s e) = true → field (routeOf s e) 13 0 = 2 ^ port →
          routeFenced (routeOf u e) = true ∧
          (epPartition s e ≠ 0xFF → partState s (epPartition s e) = 2 → fencing s (epPartition s e) = false →
            partState u (epPartition s e) = 3 ∧ (getPart u (epPartition s e)).fence =
              some { cause := 6, cmd := .watchdog, asCommand := false, answered := false })) ∧
        (∀ e, e < 256 → 12 ≤ port ∨ field (routeOf s e) 13 0 ≠ 2 ^ port → routeOf u e = routeOf s e))

/-- Module resets (R383): an ORDERLY reset stops new work and fences every HELD or ACTIVE partition; an IMMEDIATE one keeps
every stored byte in self-refresh, MRAM and the RWS objects, puts every RW object at its default and every other island in
its first state, and begins a warm start; with the main stage off nothing but the event happens. -/
def Obligations.ModuleResetsKeepMemory : Prop :=
  ∀ s : State,
    (s.power.mainOn = false ∨ s.power.orderly = true → exec .moduleResetOrderly s = .next s) ∧
    (s.power.mainOn = true → s.power.orderly = false → (∃ p, p < 64 ∧ (partState s p = 1 ∨ partState s p = 2) ∧ fencing s p = false) →
      ∃ u, exec .moduleResetOrderly s = .next u ∧ u.ready = false ∧ u.power.orderly = true ∧ u.dram = s.dram ∧
        ∀ p, p < 64 → partState s p = 1 ∨ partState s p = 2 → fencing s p = false → partState u p = 3 ∧
          (getPart u p).fence = some { cause := 7, cmd := .moduleReset, asCommand := false, answered := false }) ∧
    (∀ cause, cause < 2 ∨ 6 < cause → exec (.moduleResetImmediate cause) s = .next s) ∧
    (∀ cause, 2 ≤ cause → cause ≤ 6 →
      (s.power.mainOn = false → exec (.moduleResetImmediate cause) s =
        .next (raiseEvent 0x0080 (leBytes 1 cause) { s with power := { s.power with orderly := false } })) ∧
      (s.power.mainOn = true → s.power.kind = 2 ∨ 7 ≤ s.power.phase → s.hosts.dirCache = [] → ∃ u, exec (.moduleResetImmediate cause) s = .next u ∧
        sameMemory s u ∧ u.dram.selfRefresh = true ∧ u.mram = s.mram ∧ u.power.kind = 2 ∧ u.power.resetCause = cause ∧ u.ready = false ∧
        u.work.jobs = [] ∧ u.work.queues = [] ∧ u.tiles = [] ∧ u.coh.lines = [] ∧ u.links = [] ∧ u.sched = [] ∧ u.sec.slots = [] ∧
        u.hosts.hdm = s.hosts.hdm ∧ u.hosts.ldMap = s.hosts.ldMap ∧
        (∀ i r, objRow? i 0 = some r → r.kind = .rws → obj u i 0 = obj s i 0) ∧
        (∀ i r, objRow? i 0 = some r → r.kind = .rw → i ∉ [0x2210, 0x3110, 0x3300, 0x3901, 0x4301, 0x6901] → ¬ (0x1100 ≤ i ∧ i < 0x1200) →
          obj u i 0 = objDefault i 0) ∧
        (s.mgmt.jtagHold = false → cause ≠ 6 ∨ s.power.ref25 = true →
          u.power.phase = (match s.power.image with | some _ => 4 | none => 3))))

/-! ## The buddy pair (spec/18) -/

/-- Leases, cycles and roles (R391-R400): a grant renews, restores or moves a role as its state code says and an older epoch
changes nothing; a lease 10 ms old is late, one 30 ms old is given up; a held role's cycle raises the EPOCH of every record it
changes and, over a working mirror, hands the role over once its synced home asks for it; SIMPLEX ends every held write;
swap and divergence commands answer as the state permits. -/
def Obligations.LeasesAndRolesFollowTheReferee : Prop :=
  ∀ (s : State) (r : Nat),
    (r ≠ 1 → r ≠ 2 → ∀ c, c ∈ [Instr.leaseRenewTimer r, .leaseGrant r 0 0, .leaseExpiry r, .leaseDemotion r, .commitCycle r [], .resyncCopyEnd r] →
      exec c s = .next s) ∧
    (r = 1 ∨ r = 2 →
      let x := getRole s r
      -- renewals
      (x.code ≠ 1 → ∀ recs c, c ∈ [Instr.leaseRenewTimer r, .leaseExpiry r, .leaseDemotion r, .commitCycle r recs] → exec c s = .next s) ∧
      (x.code = 1 → x.handing = false → exec (.leaseRenewTimer r) s = .next (sendWop 8 0 0 0 0xFF (leaseBody r x.epoch s.ptime) s)) ∧
      (x.code = 1 → x.handing = true → ∃ u, exec (.leaseRenewTimer r) s = .next u ∧
        getRole u r = { x with code := 2, handing := false, peerSynced := false } ∧ getRole u (3 - r) = getRole s (3 - r) ∧
        u.cxl.creditHeld = (if s.ready then 0 else 15) ∧ u.mgmt.ctr = s.mgmt.ctr + 2 ∧ u.dram = s.dram) ∧
      -- grants
      (∀ epoch sent, epoch < 2 ^ 32 → sent ≤ s.ptime →
        let restored : Host.Outcome State Fault Refusal := .next (updRole r (fun y => { y with code := 1, epoch := epoch, granted := sent, late := false }) s)
        (x.code = 1 → laterW 32 x.epoch epoch = false → exec (.leaseGrant r epoch sent) s =
          .next (updRole r (fun y => { y with epoch := epoch, granted := max y.granted sent, late := false }) s)) ∧
        (x.code = 1 ∨ x.code = 2 → laterW 32 x.epoch epoch = true → exec (.leaseGrant r epoch sent) s = .next s) ∧
        (x.code = 5 → epoch = x.epoch → exec (.leaseGrant r epoch sent) s = restored) ∧
        (x.code = 5 → epoch ≠ x.epoch → exec (.leaseGrant r epoch sent) s = .next s) ∧
        (x.code = 6 → r = 1 → exec (.leaseGrant r epoch sent) s = restored) ∧
        (x.code = 6 → r = 2 → exec (.leaseGrant r epoch sent) s = .next s) ∧
        (x.code = 2 → laterW 32 x.epoch epoch = false → ∃ u, exec (.leaseGrant r epoch sent) s = .next u ∧
          getRole u r = { x with code := 1, epoch := epoch, granted := sent, late := false, released := false, peerSynced := false } ∧
          obj u 0x3803 2 = (counterAdd (obj s 0x3803 2) 1).1 ∧ u.dram = s.dram ∧
          (r = 1 → u.buddy.mirror = s.buddy.mirror) ∧
          (r = 2 → ∀ line, smFind? line u.buddy.mirror.copy = (smFind? line s.buddy.mirror.copy).map (fun (e : Nat × Bytes) =>
            if tagHstate e.1 = 3 then (mkTag (tagPoison e.1) 3 31, e.2) else e)))) ∧
      (∀ epoch sent, 2 ^ 32 ≤ epoch ∨ s.ptime < sent → exec (.leaseGrant r epoch sent) s = .next s) ∧
      -- a lease that runs out
      (x.code = 1 → x.late = false → x.granted + 10000000 ≤ s.ptime → exec (.leaseExpiry r) s =
        .next (raiseEvent 0x0064 (leBytes 1 r ++ leBytes 4 x.epoch) (updRole r (fun y => { y with late := true }) s))) ∧
      (x.late = true ∨ s.ptime < x.granted + 10000000 → exec (.leaseExpiry r) s = .next s) ∧
      (x.code = 1 → x.granted + 30000000 ≤ s.ptime → exec (.leaseDemotion r) s =
        .next (bump 0x3803 1 (raiseEvent 0x0060 (leBytes 1 r ++ leBytes 4 x.epoch)
          (updRole r (fun y => { y with code := 5, late := false, handing := false, peerSynced := false }) s)))) ∧
      (s.ptime < x.granted + 30000000 → exec (.leaseDemotion r) s = .next s) ∧
      -- the commit cycle
      (∀ recs : List (Nat × Bytes), x.code = 1 → s.buddy.mirror.simplex = true ∨ s.buddy.mirror.up = false →
        (r = 1 → exec (.commitCycle r recs) s = .next { s with buddy := { s.buddy with
          ownRecs := changeRecs recs s.buddy.ownRecs, changed := (s.buddy.changed ++ recs.map (fun (e : Nat × Bytes) => e.1 % 65536)).eraseDups } }) ∧
        (r = 2 → exec (.commitCycle r recs) s = .next { s with buddy := { s.buddy with otherRecs := changeRecs recs s.buddy.otherRecs } })) ∧
      (∀ recs, x.code = 1 → s.buddy.mirror.simplex = false → s.buddy.mirror.up = true → x.handing = false →
        ∃ u, exec (.commitCycle r recs) s = .next u ∧ u.buddy.mirror.cycle = (s.buddy.mirror.cycle + 1) % 2 ^ 48 ∧ u.buddy.changed = [] ∧
          (r = 1 → u.buddy.ownRecs = changeRecs recs s.buddy.ownRecs) ∧ (r = 2 → u.buddy.otherRecs = changeRecs recs s.buddy.otherRecs) ∧
          (let yields : Prop := x.peerSynced = true ∧ obj s 0x2800 r = 0 ∧ s.hosts.waiting = [] ∧ s.buddy.mirror.held = []
           ((getRole u r).handing = true ↔ yields) ∧ (yields → u.cxl.creditHeld = 15))) ∧
      (∀ n (d : Bytes) (m : SMap MetaRec), n < 65536 → d.length < 65536 → smFind? n (changeRecs [(n, d)] m) =
        some { epoch := ((smGet { epoch := 0, data := [] } n m).epoch + 1) % 2 ^ 64, data := d }) ∧
      -- the resynchronisation copy
      (x.code = 1 → s.buddy.mirror.queue = [] → exec (.resyncCopyEnd r) s = .next (updMirror (fun m => { m with resync := none }) s)) ∧
      (x.code = 1 → s.buddy.mirror.queue ≠ [] → exec (.resyncCopyEnd r) s = .next s) ∧
      (x.code = 3 ∨ x.code = 4 → exec (.resyncCopyEnd r) s =
        .next (mirrorPush 6 (roleCell 2 r x.epoch) (updRole r (fun y => { y with code := 2 }) s))) ∧
      (x.code ≠ 1 → x.code ≠ 3 → x.code ≠ 4 → exec (.resyncCopyEnd r) s = .next s) ∧
      -- SIMPLEX and DUPLEX
      (∀ epoch c, x.code ≠ 1 ∨ x.epoch ≠ epoch → c ∈ [Instr.simplex r epoch, .duplex r epoch] →
        exec c s = .next (sendWop 3 0x31 0 0 0xFF [] s)) ∧
      (x.code = 1 → ∃ u, exec (.simplex r x.epoch) s = .next u ∧ u.buddy.mirror.simplex = true ∧ u.buddy.mirror.held = [] ∧
        u.buddy.mirror.resync = none ∧ getRole u r = { x with peerSynced := false } ∧ (s.buddy.mirror.held = [] → u.dram = s.dram)) ∧
      (x.code = 1 → s.buddy.mirror.up = false → exec (.duplex r x.epoch) s =
        .next (sendWop 3 0 0 0 0xFF [] (updMirror (fun m => { m with simplex := false }) s))) ∧
      (x.code = 1 → s.buddy.mirror.up = true → ∃ u, exec (.duplex r x.epoch) s = .next u ∧ u.buddy.mirror.simplex = false ∧
        u.buddy.mirror.resync = some 0 ∧ u.buddy.mirror.copy = s.buddy.mirror.copy ∧ (r = 2 ∨ duplexLines s = [] → u.dram = s.dram)) ∧
      -- ROLE_SWAP_CMD
      (x.code = 1 → x.peerSynced = true → exec (.roleSwapCmd r) s = .next (answerFm 0x2801 0 (.ok, setObj 0x2800 r 0 s))) ∧
      (x.code ≠ 1 ∨ x.peerSynced = false → exec (.roleSwapCmd r) s = .next (send (.cmdAnswer 0x31) s))) ∧
    (r ≠ 1 → r ≠ 2 → exec (.roleSwapCmd r) s = .next (send (.cmdAnswer 0x33) s)) ∧
    -- DIVERGENCE_RESOLVE
    (∀ n, n < 65536 →
      (smFind? n s.buddy.frozen = none → rwsFrozen s n = [] → exec (.divergenceResolve n) s = .next (send (.cmdAnswer 0x31) s)) ∧
      (smFind? n s.buddy.frozen = none → rwsFrozen s n ≠ [] →
        let kept (second : Bool) : State := (rwsFrozen s n).foldl (fun s k => resolveRws second k s) s
        exec (.divergenceResolve n) s = .next (answerFm 0x2803 0 (.ok, kept false)) ∧
        exec (.divergenceResolve (n + 2 ^ 31)) s = .next (answerFm 0x2803 0 (.ok, kept true))) ∧
      (∀ theirs, smFind? n s.buddy.frozen = some theirs →
        exec (.divergenceResolve n) s = .next (answerFm 0x2803 0 (.ok, { s with buddy := { s.buddy with frozen := smErase n s.buddy.frozen } })) ∧
        exec (.divergenceResolve (n + 2 ^ 31)) s = .next (answerFm 0x2803 0 (.ok, { s with buddy := { s.buddy with
          frozen := smErase n s.buddy.frozen, ownRecs := smPut n theirs s.buddy.ownRecs } }))) ∧
      exec (.divergenceResolve (n + 2 ^ 16)) s = .next (send (.cmdAnswer 0x33) s))

/-- Mirror cells (R283, R394-R399): a cell is what the lanes decide in a cell time; one that comes on a link that is down changes
nothing; one that fails its CRC-32 or is not of the type it is taken for moves the lanes alone; a cell out of sequence is not
accepted; the next in sequence is accepted, its MACK frees the cells it
acknowledges, and it acts by its type: a line is put together from four cells and applied, a cycle is applied only with its
COMMIT, ROLE cells note what the other module does. -/
def Obligations.MirrorCellsActInSequence : Prop :=
  ∀ (s : State) (rx : Decided),
    let m := s.buddy.mirror
    let cell := (cellReceived rx s).1
    let s0 := updLane 14 (fun _ => (cellReceived rx s).2) s
    let b := mcBody cell
    let sound : Prop := m.up = true ∧ crc32 (slice cell 0 28) = leAt cell 28 4
    let back : MirrorSt := if laterW 16 (mcAck cell) m.acked then { m with
      acked := mcAck cell, replay := m.replay.filter (fun e => laterW 16 e.1 (mcAck cell)) } else m
    let got : MirrorSt := { back with peerHold := mcHold cell, accepted := mcSeq cell, recover := false }
    let fin (m : MirrorSt) : MirrorSt := if m.asm.isNone && m.metas.isEmpty then { m with mack := m.accepted } else m
    let goes (c : Instr) (n : MirrorSt) (f : State → State) : Prop := exec c s = .next (mirrorIdle (updMirror (fun _ => n) (f s0)))
    cell.length = 32 ∧
    (∀ c, c ∈ [Instr.lineHead rx, .lineData rx, .tagOnly rx, .metaCell rx, .commitCell rx, .resyncHead rx, .roleReady rx,
      .roleSynced rx, .roleHandover rx, .roleRelease rx] → m.up = false → exec c s = .next s) ∧
    (∀ c, c ∈ [Instr.lineHead rx, .lineData rx, .tagOnly rx, .metaCell rx, .commitCell rx, .resyncHead rx] →
      m.up = true → ¬ sound → exec c s = .next s0) ∧
    (∀ c n, (c, n) ∈ [(Instr.roleReady rx, 1), (.roleSynced rx, 2), (.roleHandover rx, 3), (.roleRelease rx, 4)] → m.up = true →
      (mcType cell = 6 → leAt b 0 1 ≠ n → exec c s = .next s) ∧
      (mcType cell ≠ 6 ∨ leAt b 0 1 = n → ¬ sound ∨ (mcType cell ≠ 6 ∧ mcType cell ≠ 0) → exec c s = .next s0)) ∧
    (∀ c n, (c, n) ∈ [(Instr.lineHead rx, 1), (.lineData rx, 2), (.tagOnly rx, 3), (.metaCell rx, 4), (.commitCell rx, 5), (.resyncHead rx, 7)] →
      m.up = true → mcType cell ≠ 0 → mcType cell ≠ n → exec c s = .next s0) ∧
    (sound → m.queue = [] → m.held = [] → mcType cell ≠ 0 → mcSeq cell ≠ (m.accepted + 1) % 65536 →
      let stays (c : Instr) : Prop := goes c { back with peerHold := mcHold cell, recover := m.recover || laterW 16 (mcSeq cell) m.accepted } id
      (mcType cell = 1 → stays (.lineHead rx)) ∧ (mcType cell = 2 → stays (.lineData rx)) ∧ (mcType cell = 3 → stays (.tagOnly rx)) ∧
      (mcType cell = 4 → stays (.metaCell rx)) ∧ (mcType cell = 5 → stays (.commitCell rx)) ∧ (mcType cell = 7 → stays (.resyncHead rx))) ∧
    (sound → m.queue = [] → m.held = [] → mcSeq cell = (m.accepted + 1) % 65536 →
      -- a line
      (mcType cell = 1 → goes (.lineHead rx)
        { got with asm := some { resync := false, pa := leAt b 0 5, tag := leAt b 5 1, data := slice b 8 14 } } noteStandby) ∧
      (mcType cell = 7 → goes (.resyncHead rx)
        { got with asm := some { resync := true, pa := leAt b 0 5, tag := leAt b 5 1, data := slice b 8 14 } } noteStandby) ∧
      (mcType cell = 2 → m.asm = none → goes (.lineData rx) (fin got) id) ∧
      (∀ a, mcType cell = 2 → m.asm = some a → a.data.length + 22 < 64 →
        goes (.lineData rx) { got with asm := some { a with data := a.data ++ b } } id) ∧
      (∀ a, mcType cell = 2 → m.asm = some a → 64 ≤ a.data.length + 22 →
        (acceptsLines s a.resync = false → goes (.lineData rx) (fin { got with asm := none }) id) ∧
        (acceptsLines s a.resync = true → forOwn s = false → goes (.lineData rx)
          (fin { got with asm := none, copy := smPut (a.pa / 64) (a.tag, slice (a.data ++ b) 0 64) m.copy }) id) ∧
        (forOwn s = true → poolQuiet s → ∃ u, exec (.lineData rx) s = .next u ∧
          u.dram = (invalidateGranule (a.pa / 64) (writeLine (a.pa / 64) (slice (a.data ++ b) 0 64) a.tag s)).dram ∧ u.buddy.mirror = fin { got with asm := none })) ∧
      (∀ t d, mcType cell = 3 → acceptsLines s false = true → forOwn s = false → smFind? (leAt b 0 5 / 64) m.copy = some (t, d) →
        goes (.tagOnly rx) (fin { got with copy := smPut (leAt b 0 5 / 64) (leAt b 5 1, slice d 0 64) m.copy }) id) ∧
      (mcType cell = 3 → acceptsLines s false = false → goes (.tagOnly rx) (fin got) id) ∧
      -- a cycle
      (mcType cell = 4 → goes (.metaCell rx) { got with metas := m.metas ++ [(leAt b 0 2, leAt b 2 2, slice b 4 18)] } noteStandby) ∧
      (let r := if forOwn s then 1 else 2
       let whole : Prop := crc32 ((m.metas.map (fun x => x.2.2)).flatten) = leAt b 12 4 ∧ laterW 32 (getRole s r).epoch (leAt b 8 4) = false
       mcType cell = 5 →
        (¬ whole → goes (.commitCell rx) (fin { got with metas := [], accepted := m.mack, recover := true }) id) ∧
        (whole → ∃ u, exec (.commitCell rx) s = .next u ∧ u.buddy.mirror = fin { got with metas := [], cycle := leAt b 0 8 % 2 ^ 48 } ∧
          (getRole u r).epoch = leAt b 8 4 ∧ (getRole u r).code = (getRole s r).code ∧ u.dram = s.dram ∧
          (r = 2 → u.buddy.ownRecs = s.buddy.ownRecs ∧ ∀ n rec, smFind? n (cycleImages m.metas) = some rec → ∀ d, recOfImage rec = some d →
            smFind? n u.buddy.otherRecs = some d) ∧
          (r = 1 → u.buddy.otherRecs = s.buddy.otherRecs))) ∧
      -- what the other module does with a role
      (mcType cell = 6 → let r := if leAt b 1 1 = 0 then 2 else 1
        (leAt b 0 1 = 2 → goes (.roleSynced rx) (fin got)
          (if (getRole s r).code = 1 then updRole r (fun x => { x with peerSynced := true }) else id)) ∧
        (leAt b 0 1 = 3 → goes (.roleHandover rx) (fin got)
          (if (getRole s r).code = 1 then id else updRole r (fun x => { x with released := true }))) ∧
        (leAt b 0 1 = 4 → goes (.roleRelease rx) (fin got)
          (if (getRole s r).code = 1 then id else updRole r (fun x => { x with released := true }))) ∧
        (leAt b 0 1 = 1 → (getRole s r).code ≠ 1 → goes (.roleReady rx) (fin got) id) ∧
        (leAt b 0 1 = 1 → (getRole s r).code = 1 → ∃ u, exec (.roleReady rx) s = .next u ∧ (getRole u r).peerSynced = false ∧
          u.buddy.mirror.resync = some 0 ∧ u.buddy.mirror.accepted = mcSeq cell ∧ (r = 2 ∨ duplexLines s = [] → u.dram = s.dram))))

/-! ## Power (spec/19), resets of CXL ports (spec/17) -/

/-- The input, its qualifications, temperatures, core-rail phases, references and CXL ports (R388, R401-R407, R371): each
sample and timer moves only the bits the table names for it; a protective shutdown switches the main stage off, loses the
DRAM, keeps MRAM and the RWS objects and records its cause; a start begins only with the input in range; a lost reference
stops what it drives and a restored one starts it again. -/
def Obligations.InputsTemperaturesAndReferencesAreWatched : Prop :=
  ∀ s : State,
    let p := s.power
    (p.powered = false → ∀ phases vin j t r c, c ∈ [Instr.inputSample vin, .inputQualified phases, .uvWarning, .pfailRelease, .thermalSample j t,
      .referenceLoss r, .referenceRestored r] → exec c s = .next s) ∧
    -- what a protective shutdown leaves
    (let down (c : Instr) (cause junction stack : Nat) : Prop := ∃ u, exec c s = .next u ∧ u.power.mainOn = false ∧ u.power.shutdown = cause ∧
       u.power.pfail = true ∧ u.power.pfailHeld = true ∧ u.power.phase = 0x0B ∧ u.ready = false ∧ u.dram = State.reset.dram ∧
       u.work.jobs = [] ∧ u.hosts.regions = [] ∧ u.cxl.trained = 0 ∧ u.mram.fmKey = s.mram.fmKey ∧ u.mram.remaps = s.mram.remaps ∧
       u.mram.lastShutdown = leAt (leBytes 8 s.ptime ++ leBytes 1 cause ++ leBytes 2 p.vin ++ leBytes 1 (max junction stack)) 0 16 ∧
       (∀ i r, objRow? i 0 = some r → r.kind = .rws → obj u i 0 = obj s i 0)
     (p.mainOn = true → p.dip = true → p.vin < 3600 → down .uvQualificationExpiry 1 p.junction p.stack) ∧
     (p.mainOn = true → p.ov = true → down .ovQualificationExpiry 2 p.junction p.stack) ∧
     (p.mainOn = true → s.buddy.phases ≠ 0 → s.buddy.phases - 1 < 20 → down .phaseFailure 3 p.junction p.stack) ∧
     (∀ j t, p.powered = true → p.mainOn = true → j < 256 → t < 256 → 110 ≤ j ∨ 105 ≤ t → down (.thermalSample j t) 4 j t)) ∧
    (p.mainOn = false ∨ p.dip = false ∨ 3600 ≤ p.vin → exec .uvQualificationExpiry s = .next s) ∧
    (p.mainOn = false ∨ p.ov = false → exec .ovQualificationExpiry s = .next s) ∧
    (p.mainOn = false ∨ s.buddy.phases = 0 → exec .phaseFailure s = .next s) ∧
    (∀ n, p.mainOn = true → s.buddy.phases = n + 1 → 20 ≤ n → exec .phaseFailure s =
      .next (bump 0x3803 4 (raiseEvent 0x0063 (leBytes 1 n) { s with buddy := { s.buddy with phases := n } }))) ∧
    (p.powered = true →
      -- samples of the input
      (∀ vin, vin < 3600 → exec (.inputSample vin) s = .next { s with power := { p with
        vin := vin, pfail := true, dip := p.dip || p.mainOn, ov := false } }) ∧
      (∀ vin, 3600 ≤ vin → vin ≤ 6000 → p.dip = false → exec (.inputSample vin) s = .next { s with power := { p with
        vin := vin, uvWarn := p.uvWarn && decide (vin < 3800), ov := false } }) ∧
      (∀ vin, 3600 ≤ vin → vin ≤ 6000 → p.dip = true → ∃ u, exec (.inputSample vin) s = .next u ∧ u.power = { p with
        vin := vin, dip := false, uvWarn := p.uvWarn && decide (vin < 3800), ov := false } ∧ obj u 0x3002 1 = (counterAdd (obj s 0x3002 1) 1).1 ∧ u.dram = s.dram) ∧
      (∀ vin, 6000 < vin → vin < 16384 → p.dip = false →
        let x : PowerSt := { p with vin := vin, uvWarn := false }
        (p.ov = true → exec (.inputSample vin) s = .next { s with power := x }) ∧
        (p.ov = false → exec (.inputSample vin) s =
          .next (bump 0x3002 3 (raiseEvent 0x0071 (leBytes 2 vin) { s with power := { x with ov := true } })))) ∧
      (p.vin < 3800 → p.uvWarn = false → exec .uvWarning s =
        .next (bump 0x3002 2 (raiseEvent 0x0070 (leBytes 2 p.vin) { s with power := { p with uvWarn := true } }))) ∧
      (3800 ≤ p.vin ∨ p.uvWarn = true → exec .uvWarning s = .next s) ∧
      (3800 ≤ p.vin → p.pfailHeld = false → exec .pfailRelease s = .next { s with power := { p with pfail := false } }) ∧
      (p.vin < 3800 ∨ p.pfailHeld = true → exec .pfailRelease s = .next s) ∧
      -- a cold start
      (let may : Prop := 4000 ≤ p.vin ∧ p.vin ≤ 6000 ∧ p.mainOn = false ∧ p.shutdown ≠ 4 ∧ p.state ≠ 3
       (∀ n, may → ∃ u, exec (.inputQualified n) s = .next u ∧ u.power.mainOn = true ∧ u.power.kind = 1 ∧ u.power.image = none ∧
         u.power.shutdown = 0 ∧ u.buddy.phases = min n 26 ∧ u.dram = s.dram ∧ u.mram = s.mram ∧
         obj u 0x3A02 1 = (counterAdd (obj s 0x3A02 1) 1).1 ∧ u.power.phase = if p.ref25 && !s.mgmt.jtagHold then 3 else 1) ∧
       (∀ n, ¬ may → exec (.inputQualified n) s = .next s)) ∧
      -- temperatures below the limits of a shutdown
      (∀ j t, j < 110 → t < 105 →
        let warm : Bool := decide (obj s 0x4001 0 ≤ j) || decide (95 ≤ t)
        let x : State := { s with power := { p with junction := j, stack := t, hot := warm } }
        (warm = false ∨ p.hot = true → exec (.thermalSample j t) s = .next x) ∧
        (warm = true → p.hot = false → exec (.thermalSample j t) s = .next (bump 0x3002 5 (raiseEvent 0x0072 (leBytes 1 j ++ leBytes 1 t) x)))) ∧
      -- references
      (∀ ref c, ref ≠ 25 → ref ≠ 100 → ref ≠ 156 → c ∈ [Instr.referenceLoss ref, .referenceRestored ref] → exec c s = .next s) ∧
      (p.ref25 = false → exec (.referenceLoss 25) s = .next s) ∧
      (p.ref25 = true → p.mainOn = false → exec (.referenceLoss 25) s =
        .next (bump 0x3002 6 (raiseEvent 0x0074 (leBytes 1 25) { s with power := { p with ref25 := false, degraded := true } }))) ∧
      (p.ref25 = true → p.mainOn = true → p.kind = 2 ∨ 7 ≤ p.phase → ∃ u, exec (.referenceLoss 25) s = .next u ∧ u.power.ref25 = false ∧
        u.power.degraded = true ∧ u.power.warmWait = true ∧ u.power.phase = 2 ∧ u.power.resetCause = 6 ∧
        u.power.sramFixed = (bootRom s).power.sramFixed ∧ (s.hosts.dirCache = [] → u.mram = s.mram)) ∧
      (p.ref100 = true → exec (.referenceLoss 100) s = .next (bump 0x3002 6 (raiseEvent 0x0074 (leBytes 1 100)
        { s with cxl := { s.cxl with trained := 0 }, power := { p with ref100 := false } }))) ∧
      (p.ref156 = true → ∃ u, exec (.referenceLoss 156) s = .next u ∧ u.power.ref156 = false ∧ u.dram = s.dram ∧
        ∀ i, i < 15 → (getLane u i).state = if (getLane s i).state = 5 then 1 else (getLane s i).state) ∧
      (p.warmWait = false → p.mainOn = false ∨ p.phase ≠ 1 → exec (.referenceRestored 25) s = .next { s with power := { p with ref25 := true, warmWait := false } }) ∧
      (p.warmWait = true → s.mgmt.jtagHold = false → ∃ u, exec (.referenceRestored 25) s = .next u ∧ u.power.ref25 = true ∧ u.power.warmWait = false ∧
        u.power.phase = (match p.image with | some _ => 4 | none => 3) ∧ u.dram = s.dram) ∧
      (p.warmWait = false → p.mainOn = true → p.phase = 1 → s.mgmt.jtagHold = false → ∃ u, exec (.referenceRestored 25) s = .next u ∧
        u.power = { p with ref25 := true, warmWait := false, phase := 3, sramFixed := (bootRom s).power.sramFixed }) ∧
      (∃ u, exec (.referenceRestored 100) s = .next u ∧ u.power = { p with ref100 := true } ∧
        ∀ i, i < 4 → u.cxl.trained.getLsbD i = (p.mainOn && !s.cxl.perst.getLsbD i && !s.cxl.gated.getLsbD i)) ∧
      (p.ref156 = true → exec (.referenceRestored 156) s = .next s) ∧
      (p.ref156 = false → ∃ u, exec (.referenceRestored 156) s = .next u ∧ u.power = { p with ref156 := true } ∧
        ∀ i, i < 15 → (getLane u i).state = if portOff s i then 0 else 1)) ∧
    -- the resets of a CXL port
    (∀ i n c, 4 ≤ i → c ∈ [Instr.perstAssert i, .perstRelease { port := i, lanes := n }, .cxlPortReset { port := i, lanes := n }] →
      exec c s = .next s) ∧
    (∀ i, i < 4 →
      let cleared (u : State) : Prop := u.hosts = { s.hosts with hdm := s.hosts.hdm.filter (fun h => h / 128 != i) } ∧ u.sched = smErase (16 + i) s.sched ∧
        u.cxl.ide = smErase i s.cxl.ide ∧
        u.dram = s.dram ∧ u.work = s.work ∧ u.objs = s.objs ∧ ∀ k, k < 4 → k ≠ i → u.cxl.trained.getLsbD k = s.cxl.trained.getLsbD k ∧
          u.cxl.perst.getLsbD k = s.cxl.perst.getLsbD k
      let wide (n : Nat) : Prop := n = 16 ∨ n = 8 ∨ n = 4
      -- to 16 lanes, or down to 8 or 4
      let trains (n : Nat) (u : State) : Prop := (wide n → smGet 16 i u.cxl.lanes = n ∧
          u.cxl.trained.getLsbD i = (p.mainOn && !u.cxl.perst.getLsbD i && !s.cxl.gated.getLsbD i && p.ref100)) ∧
        (¬ wide n → u.cxl.trained.getLsbD i = false ∧ u.cxl.lanes = s.cxl.lanes)
      (∃ u, exec (.perstAssert i) s = .next u ∧ cleared u ∧ u.cxl.perst.getLsbD i = true ∧ u.cxl.trained.getLsbD i = false) ∧
      ∀ n, (∃ u, exec (.perstRelease { port := i, lanes := n }) s = .next u ∧ u.cxl.perst.getLsbD i = false ∧ trains n u ∧
          u.hosts = s.hosts ∧ u.sched = s.sched ∧ u.dram = s.dram ∧ u.cxl.ide = s.cxl.ide) ∧
        (∃ u, exec (.cxlPortReset { port := i, lanes := n }) s = .next u ∧ cleared u ∧ u.cxl.perst = s.cxl.perst ∧ trains n u))

/-- Power states (R408-R412, R427): POWER_STATE_CMD is accepted only in its format, in a start that is over, with no
transition running, along a permitted transition and with its conditions met, and only sets BUSY, the target and what leaves
the domain; the transition's end waits for rest and then gates, retains or loses what its state says. -/
def Obligations.PowerStatesGateRetainAndHold : Prop :=
  ∀ (s : State),
    let p := s.power
    (∀ (cmd : Bytes) (via : Option Nat) m c, (m, c) ∈ [(0, Instr.powerStateM0 via cmd), (1, .powerStateM1 via cmd), (2, .powerStateM2 via cmd), (3, .powerStateM3 via cmd)] →
      let b := powerBytes m cmd
      let refused (code : Nat) : Prop := exec c s = .next (send (.cmdAnswer code) s)
      let due : Prop := (∀ ld, via = some ld → mbPowerOk s ld = true) ∧ powerForm b = true ∧ (p.shutdown ≠ 4 ∨ p.mainOn = true) ∧ (s.ready = true ∨ p.state = 3)
      (∀ ld, via = some ld → mbPowerOk s ld = false → refused 0x31) ∧
      (via = none → powerForm b = false → refused 0x33) ∧
      (via = none → powerForm b = true → p.shutdown ≠ 4 → s.ready = false → p.state ≠ 3 → refused 0x31) ∧
      (due → p.busy = true → refused 0x11) ∧
      (due → p.busy = false → (powerPermits p.state m && powerConds s m (leAt b 8 8) (leAt b 18 1)) = false → refused 0x31) ∧
      (due → p.busy = false → powerPermits p.state m = true → powerConds s m (leAt b 8 8) (leAt b 18 1) = true → s.coh.lines = [] →
        ∃ u, exec c s = .next (answerBy via 0x2000 (.ok, u)) ∧
          u.power = { p with busy := true, token := leAt b 2 2, target := m, newTileGate := leAt b 8 8, newNlGate := leAt b 16 2,
                             newCxlGate := leAt b 18 1, closing := p.closing || m == 3 } ∧
          u.cxl = (if 2 ≤ m then { s.cxl with creditHeld := 15 } else s.cxl) ∧ u.dram = s.dram ∧ u.work = s.work ∧
          ∀ t, t < 64 → t < geomTiles s → tileState u t = if (2 ≤ m ∨ bitOf (leAt b 8 8) t = true) ∧ tileState s t = 0 then 1 else tileState s t)) ∧
    -- M0 over WOP after a thermal shutdown
    (∀ cmd : Bytes, powerForm (powerBytes 0 cmd) = true → p.shutdown = 4 → p.mainOn = false → p.powered = true →
      (p.junction < 90 → p.stack < 90 → p.vin < 4000 → exec (.powerStateM0 none cmd) s = .next (answerFm 0x2000 0 (.ok,
        { s with power := { p with shutdown := 0, token := leAt cmd 2 2, lastStatus := 0 } }))) ∧
      (90 ≤ p.junction ∨ 90 ≤ p.stack → exec (.powerStateM0 none cmd) s = .next (send (.cmdAnswer 0x31) s))) ∧
    -- the end of a transition
    (p.busy = false → exec .powerTransitionEnd s = .next s) ∧
    -- what has come to rest since leaves the domain while the transition waits
    (p.busy = true → p.target = 2 ∨ p.target = 3 → atRest s = false →
      exec .powerTransitionEnd s = .next ((List.range (geomTiles s)).foldl (fun s t => leaveDomain t s) s) ∧
      (s.coh.lines = [] → exec .powerTransitionEnd s = .next s)) ∧
    (p.busy = true → p.target < 2 → p.state < 2 → (∃ t, t < 64 ∧ bitOf p.newTileGate t = true ∧ tileLines s t ≠ []) →
      exec .powerTransitionEnd s = .next (leaveTiles (onesBelow 64 p.newTileGate) s)) ∧
    -- the directory cache fits its overflow area
    (let spills : Prop := s.hosts.dirOver.length + s.hosts.dirCache.length ≤ 16777216
    (p.busy = true → p.target = 2 → atRest s = true → spills → geomTiles s ≤ 64 → ∃ u, exec .powerTransitionEnd s = .next u ∧ u.power.state = 2 ∧ u.power.busy = false ∧
      u.power.lastStatus = 0 ∧ sameMemory s u ∧ u.dram.selfRefresh = true ∧ u.cxl.trained = 0 ∧ u.hosts.dirCache = [] ∧ u.mram = s.mram ∧
      (∀ i, i < 15 → (getLane u i).state = 0) ∧ ∀ t, t < 64 → t < geomTiles s → tileState s t ≠ 2 → tileState u t = 3 ∧ getTile u t = tile0) ∧
    (p.busy = true → p.target = 3 → atRest s = true → spills → geomTiles s ≤ 64 → ∃ u, exec .powerTransitionEnd s = .next u ∧ u.power.state = 3 ∧ u.power.busy = false ∧
      u.power.mainOn = false ∧ u.dram = State.reset.dram ∧ u.work.jobs = [] ∧ u.tiles = [] ∧ u.power.image = none ∧ u.mram = s.mram ∧
      ∀ i r, objRow? i 0 = some r → r.kind = .rws → obj u i 0 = obj s i 0)) ∧
    (p.busy = true → p.target = 0 → p.state = 2 → geomTiles s ≤ 64 → ∃ u, exec .powerTransitionEnd s = .next u ∧ u.power.state = 0 ∧ u.power.busy = false ∧
      sameMemory s u ∧ u.dram.selfRefresh = false ∧ u.cxl.creditHeld = 0 ∧
      ∀ t, t < 64 → t < geomTiles s → tileState s t ≠ 2 → tileState u t = 0 ∧ getTile u t = tile0) ∧
    (p.busy = true → p.target = 0 → p.state = 3 → ∃ u, exec .powerTransitionEnd s = .next u ∧ u.power.mainOn = true ∧ u.power.kind = 1 ∧
      u.power.busy = false ∧ u.power.state = 0 ∧ u.mram = s.mram) ∧
    (p.busy = true → p.target < 2 → p.state < 2 → s.coh.lines = [] → poolQuiet s → geomTiles s ≤ 64 → ∃ u, exec .powerTransitionEnd s = .next u ∧
      u.power.state = p.target ∧ u.power.busy = false ∧ u.power.tileGate = p.newTileGate ∧ u.power.nlGate = p.newNlGate ∧
      u.power.cxlGate = p.newCxlGate ∧ sameMemory s u ∧ u.cxl.gated = BitVec.ofNat 4 p.newCxlGate ∧
      (∀ i, i < 14 → bitOf p.newNlGate i = true → (getLane u i).state = 0) ∧
      (∀ i, i < 4 → bitOf p.newCxlGate i = true → u.cxl.trained.getLsbD i = false) ∧
      ∀ t, t < 64 → t < geomTiles s → tileState s t ≠ 2 →
        tileState u t = if bitOf p.newTileGate t then 4 else if tileState s t = 4 then 0 else tileState s t)

/-! ## Starts (spec/19, spec/04, spec/05, spec/20) -/

/-- The phases of a start (R85-R87, R100, R413-R420, R424): an image is requested, gathered in order and verified; tiles come
up wave by wave and are mapped; channels are trained, memory is tested and zeroed; every port is judged, and READY follows
only when no required port is absent and none differs; a command of another phase changes nothing. -/
def Obligations.StartsGoThroughTheirPhases : Prop :=
  ∀ s : State,
    let p := s.power
    -- the image over the network
    (p.phase = 3 → obj s 0x2A00 0 ≠ 2 → exec .imageRequestTimer s =
      .next (sendWop 6 0 (p.netImage.length % 65536) (p.netImage.length / 65536 % 256) 0xFF [] s)) ∧
    (p.phase ≠ 3 ∨ obj s 0x2A00 0 = 2 → exec .imageRequestTimer s = .next s) ∧
    (∀ off (data : Bytes), let b := p.netImage ++ data
      (p.phase = 3 ∨ p.phase = 4 → obj s 0x2A00 0 ≠ 2 → off = p.netImage.length → data.length ≤ 1152 →
        (imageWhole b = false → exec (.imageData off data) s = .next { s with power := { p with netImage := b } }) ∧
        (imageWhole b = true → ∃ u, exec (.imageData off data) s = .next u ∧
          u.power = { p with netImage := [], images := p.images ++ [b], phase := 4 } ∧ u.dram = s.dram)) ∧
      ((p.phase ≠ 3 ∧ p.phase ≠ 4) ∨ obj s 0x2A00 0 = 2 ∨ off ≠ p.netImage.length ∨ 1152 < data.length → exec (.imageData off data) s = .next s)) ∧
    -- the image through a mailbox
    (∀ ld input, p.mainOn = false → exec (.imageWrite ld input) s = .next s) ∧
    (∀ ld input, p.mainOn = true → s.ready = true ∨ obj s 0x2A00 0 = 1 → exec (.imageWrite ld input) s = .next (send (.mailbox ld [0x31]) s)) ∧
    (∀ ld (input : Bytes), p.mainOn = true → s.ready = false → obj s 0x2A00 0 ≠ 1 →
      (input.length < 8 ∨ 4096 < input.length ∨ 1 < leAt input 4 1 → exec (.imageWrite ld input) s = .next (send (.mailbox ld [0x33]) s)) ∧
      (8 ≤ input.length → input.length ≤ 4096 → leAt input 0 4 = p.mbImage.length →
        p.mbImage.length + (input.length - 8) ≤ 256 + 7340032 → p.phase = 3 ∨ p.phase = 4 →
        (leAt input 4 1 = 0 → exec (.imageWrite ld input) s = .next (send (.mailbox ld [0])
          { s with power := { p with mbImage := p.mbImage ++ input.drop 8 } })) ∧
        (leAt input 4 1 = 1 → ∃ u, exec (.imageWrite ld input) s = .next (send (.mailbox ld [0]) u) ∧
          u.power = { p with mbImage := [], images := p.images ++ [p.mbImage ++ input.drop 8], phase := 4 }))) ∧
    -- its verification
    (∀ i rest, p.phase = 4 → p.images = i :: rest → let v := imageVerdict s.mram.rollback i
      ∃ u, exec .imageVerify s = .next u ∧ u.mram = s.mram ∧ u.dram = s.dram ∧
        (v = 0 → u.power = { p with image := some i, images := [], netImage := [], mbImage := [], wave := 0, phase := 5 }) ∧
        (v ≠ 0 → u.power = { p with fwReject := v, images := rest, phase := if rest = [] then 3 else 4 } ∧
          obj u 0x3A02 3 = (counterAdd (obj s 0x3A02 3) 1).1) ∧
        (i.length < 256 ∨ leAt i 0 4 ≠ 0x31574D46 ∨ i.length ≠ 256 + leAt i 8 4 → v = 1) ∧
        (releaseVerify (slice i 0 160) (slice i 160 96) = false → v = 1 ∨ v = 2) ∧ (leAt i 6 1 < s.mram.rollback → v ≠ 0)) ∧
    (p.phase ≠ 4 ∨ p.images = [] → exec .imageVerify s = .next s) ∧
    (∀ v, (unlocked s (expertGroup 0x4A00) false = false → exec (.fwRollbackCommit v) s = .next (send (.cmdAnswer 0x31) s)) ∧
      (unlocked s (expertGroup 0x4A00) false = true →
        (∀ i, p.image = some i → v = leAt i 6 1 → exec (.fwRollbackCommit v) s = .next (answerFm 0x4A00 0 (.ok,
          { s with mram := { s.mram with rollback := max s.mram.rollback v } }))) ∧
        ((∀ i, p.image = some i → v ≠ leAt i 6 1) → exec (.fwRollbackCommit v) s = .next (send (.cmdAnswer 0x31) s)))) ∧
    -- tiles
    (∀ present passed, p.phase = 5 → p.wave < 9 → ∃ u, exec (.tileWave present passed) s = .next u ∧ u.power = { p with wave := p.wave + 1 } ∧
      (∀ i, i < 8 → (8 * p.wave + i ∈ u.coh.tilesUp ↔ bitOf present i = true ∧ 8 * p.wave + i < 68 ∧ 8 * p.wave + i ∉ s.mram.failedTiles ∧
        (p.kind = 2 ∨ bitOf passed i = true))) ∧
      (∀ t, t / 8 ≠ p.wave → (t ∈ u.coh.tilesUp ↔ t ∈ s.coh.tilesUp)) ∧ u.dram = s.dram ∧ u.objs = s.objs) ∧
    (∀ present passed, p.phase ≠ 5 ∨ 9 ≤ p.wave → exec (.tileWave present passed) s = .next s) ∧
    (∀ bad : List Nat, p.phase = 5 → 9 ≤ p.wave →
      let up := s.coh.tilesUp.filter (fun t => !bad.contains t)
      ∃ u, exec (.tileFirmwareDelivery bad) s = .next u ∧ u.power = { p with phase := 6 } ∧ u.coh.tilesUp = up ∧
        geomTiles u = (tileMap up).length ∧ obj u 0x1103 0 = (tileMap up).length * obj s 0x1102 0 ∧ (∀ t ∈ s.coh.tilesUp, t ∈ bad → t ∈ u.mram.failedTiles) ∧
        ∀ l t, (tileMap up)[l]? = some t → tilePhys u l = t ∧ tileState u l = 0 ∧ tileRing u l = ringOfPhys t ∧ getTile u l = tile0) ∧
    (∀ bad, p.phase ≠ 5 ∨ p.wave < 9 → exec (.tileFirmwareDelivery bad) s = .next s) ∧
    -- memory
    (∀ reports rows, p.phase ≠ 6 ∨ p.trained = true → exec (.dramTrainingDone reports rows) s = .next s) ∧
    (∀ (r : ChanReport), p.phase = 6 → p.trained = false → p.kind = 1 → ∃ u, exec (.dramTrainingDone [r] []) s = .next u ∧
      u.power = { p with trained := true } ∧ u.dram.selfRefresh = false ∧ obj u 0x4301 0 = 0 ∧
      obj u 0x1108 0 = 4 * obj u 0x1107 0 ∧
      obj u 0x1107 0 = ((List.range 32).filter (fun l => !u.mram.deadStacks.contains (physStack u l))).length ∧
      (channelTrains r = true → ∃ t, smFind? r.pchan u.mram.train = some t ∧ t.stack = r.pchan / 4 ∧ t.chan = r.pchan % 4 ∧
        t.deviceId = r.deviceId ∧ t.rate = obj s 0x4300 0 ∧ t.temperature = r.temperature ∧ t.lanes = r.lanes.map laneSettings ∧
        t.epoch = (match smFind? r.pchan s.mram.train with | some old => old.epoch + 1 | none => 1) ∧ t.crc = trainCrc t) ∧
      (channelTrains r = false → r.pchan / 4 ∈ u.mram.deadStacks ∧ u.mram.train = s.mram.train) ∧
      (r.lanes ≠ [] → (∃ l ∈ r.lanes, (l.rdLast - l.rdFirst) * 100 < 30 * 64 ∨ (l.wrLast - l.wrFirst) * 100 < 30 * 64) → channelTrains r = false)) ∧
    (∀ (r : ChanReport), p.phase = 6 → p.trained = false → p.kind = 2 → needsTraining s r = false → (∀ q, q < 64 → partState s q = 0) →
      s.hosts.regions = [] → ∃ u, exec (.dramTrainingDone [r] []) s = .next u ∧ u.power = { p with trained := true, phase := 7 } ∧
        sameMemory s u ∧ u.mram = s.mram) ∧
    (p.phase = 6 → p.kind = 1 → p.trained = true → ∃ u, exec .memoryTestDone s = .next u ∧ u.power = { p with phase := 7 } ∧ u.dram.cells = [] ∧
      u.dram.lost = [] ∧ u.dram.init = BitVec.allOnes 3584 ∧ ∀ i, i < 15 → (getLane u i).off = false) ∧
    (p.phase ≠ 6 ∨ p.kind ≠ 1 ∨ p.trained = false → exec .memoryTestDone s = .next s) ∧
    -- the topology
    (∀ e h, p.phase ≠ 7 → p.phase ≠ 8 → exec (.topologyCheck e h) s = .next s) ∧
    (∀ e h, p.phase = 7 ∨ p.phase = 8 →
      let absent : Prop := ∃ i, i < 15 ∧ portAbsent s i = true
      let differs : Prop := ∃ i, i < 15 ∧ portMismatch s i = true
      (e = false → absent → ∃ u, exec (.topologyCheck e h) s = .next u ∧ u.power = { p with phase := 8 } ∧ u.ready = s.ready ∧ u.lanes = s.lanes) ∧
      ((e = true ∧ absent) ∨ (¬ absent ∧ differs) → ∃ u, exec (.topologyCheck e h) s = .next u ∧ u.power.phase = 9 ∧ u.ready = s.ready ∧
        ∀ i, i < 15 → portMismatch s i = true → (getLane u i).state = 7) ∧
      (¬ absent → ¬ differs → ∃ u, exec (.topologyCheck e h) s = .next u ∧ u.power.phase = 0x0A ∧ u.ready = true ∧ u.cxl.creditHeld = 0 ∧
        u.power.pfailHeld = false)) ∧
    (∀ mask, mask < 2 ^ 15 → ∃ u, exec (.topoAccept mask) s = .next (answerFm 0x2A02 0 (.ok, u)) ∧ ∀ i, i < 15 →
      expectedEntry u i = if bitOf mask i then discovered s i % 2 ^ 51 else expectedEntry s i) ∧
    (∀ mask, 2 ^ 15 ≤ mask → exec (.topoAccept mask) s = .next (send (.cmdAnswer 0x33) s)) ∧
    (∀ v, v < 2 ^ 960 → (∀ i, i < 15 → field v (64 * i + 63) (64 * i + 51) = 0) →
      ∃ u, exec (.expectedTopologyWrite v) s = .next (answerFm 0x2A01 0 (.ok, u)) ∧ obj u 0x2A01 0 = v) ∧
    (∀ v, 2 ^ 960 ≤ v ∨ field v 63 51 ≠ 0 → exec (.expectedTopologyWrite v) s = .next (send (.cmdAnswer 0x33) s)) ∧
    -- CLAIM_CLR_N
    exec (.claimClrSample true true) s = .next { s with mram := { s.mram with fmKey := none, fmCtr := 0 } } ∧
    (∀ a b, a = false ∨ b = false → exec (.claimClrSample a b) s = .next s)

/-! ## The management island (spec/20) -/

/-- The object dictionary (R421-R424, R429, R433, R437-R439): an access is refused by its row, its role, its lock, its
partition and its format, in that order, and then changes nothing; a parameter takes the value written, a counter only zero;
an unlock lasts EXPERT_UNLOCK_S; the FM key is installed only by a command that opens and names this module; the black box is
read, frozen and cleared as LOVAGE_CONTROL says, and the record written last reads back from all three copies. -/
def Obligations.ObjectsAreReadAndWrittenByTheirRows : Prop :=
  ∀ s : State,
    (∀ role index sub part (data : Bytes),
      let no (code : Nat) : Prop := exec (.objectWrite role index sub part data) s = .next (send (.cmdAnswer code) s)
      (objRow? index sub = none → no 0x30) ∧
      (∀ row, objRow? index sub = some row →
        (mayWrite s role row sub = false ∨ row.kind = .ro ∨ row.kind = .const → no 0x31) ∧
        (row.expert = true → unlocked s (expertGroup index) (role == .mon) = false → no 0x31) ∧
        (mayWrite s role row sub = true → row.kind ≠ .ro → row.kind ≠ .const → row.expert = false ∨ unlocked s (expertGroup index) (role == .mon) = true →
          (inWindow index = true → (∀ p, role ≠ .pd p) → part = 0xFF ∨ geomParts s ≤ part → no 0x33) ∧
          (∀ p, inWindow index = true → role = .pd p → partState s p = 0 → no 0x31) ∧
          (inWindow index = false → data.length ≠ row.width ∨ valueOk row.check (ofLe data) = false → no 0x33) ∧
          (inWindow index = false → data.length = row.width → valueOk row.check (ofLe data) = true → role = .fm →
            (row.kind = .counter ∨ row.kind = .counterRws →
              (ofLe data = 0 → exec (.objectWrite role index sub part data) s =
                .next (answerCmd (.ok, writeRecorded 0 index sub part (setObj index sub 0 s)))) ∧
              (ofLe data ≠ 0 → no 0x33)) ∧
            (row.kind = .rw ∨ row.kind = .rws → 0x4000 ≤ index → index < 0x5000 → index ∉ [0x4330, 0x4400, 0x4405, 0x4407, 0x4500, 0x4501, 0x4A00] →
              (relationOk s index (ofLe data) = true → exec (.objectWrite role index sub part data) s =
                .next (answerCmd (.ok, writeRecorded 0 index sub part (setObj index sub (ofLe data) s)))) ∧
              (relationOk s index (ofLe data) = false → no 0x33)) ∧
            -- a forced preset is taken by the lanes, shaping credits by their new CAP
            (index = 0x4405 → exec (.objectWrite role index sub part data) s =
              .next (answerCmd (.ok, writeRecorded 0 index sub part (sendAllTaps (sub - 1) (setObj index sub (ofLe data) s))))) ∧
            (index = 0x4500 ∨ index = 0x4501 → relationOk s index (ofLe data) = true → exec (.objectWrite role index sub part data) s =
              .next (answerCmd (.ok, writeRecorded 0 index sub part (capCredits (sub - 1) (setObj index sub (ofLe data) s))))))))) ∧
    -- unlocks
    (∀ g, g < 12 →
      (∃ u, exec (.expertUnlock .fm g) s = .next u ∧ smFind? (unlockKey g false) u.mgmt.unlocks = some (s.ptime + obj s 0x4B00 0 * 1000000000) ∧
        u.dram = s.dram ∧ (0 < obj s 0x4B00 0 → unlocked u g false = true)) ∧
      (∃ u, exec (.expertLock .fm g) s = .next u ∧ smFind? (unlockKey g false) u.mgmt.unlocks = none ∧ unlocked u g false = false ∧ u.dram = s.dram) ∧
      (∀ r c, r = Role.any ∨ (∃ p, r = Role.pd p) → c ∈ [Instr.expertUnlock r g, .expertLock r g] → exec c s = .next (send (.cmdAnswer 0x31) s)) ∧
      (debugging s = false → exec (.expertUnlock .mon g) s = .next (send (.cmdAnswer 0x31) s))) ∧
    (∀ g mon,
      (∀ t, smFind? (unlockKey g mon) s.mgmt.unlocks = some t →
        (s.ptime < t → exec (.expertUnlockLapse mon g) s = .next s) ∧
        (t ≤ s.ptime → exec (.expertUnlockLapse mon g) s = .next { s with mgmt := { s.mgmt with unlocks := smErase (unlockKey g mon) s.mgmt.unlocks } })) ∧
      (smFind? (unlockKey g mon) s.mgmt.unlocks = none → exec (.expertUnlockLapse mon g) s = .next s)) ∧
    -- the FM key
    (∀ r (cmd : Bytes), r ≠ Role.fm → s.mram.fmKey ≠ none → exec (.fmKeyCmd r cmd) s = .next (send (.cmdAnswer 0x31) s)) ∧
    (∀ r (cmd : Bytes), r = Role.fm ∨ s.mram.fmKey = none → cmd.length ≠ 176 ∨ leAt cmd 0 1 ≠ 1 ∨ leAt cmd 1 1 ≠ 0 → exec (.fmKeyCmd r cmd) s = .next (send (.cmdAnswer 0x33) s)) ∧
    (∀ (cmd : Bytes), cmd.length = 176 → leAt cmd 0 1 = 1 → leAt cmd 1 1 = 0 → ((slice cmd 105 7).any (· != 0) || (slice cmd 160 16).any (· != 0)) = false →
      let mine : Prop := leAt cmd 4 4 = Config.serial.toNat % 2 ^ 32
      (¬ mine ∨ commandKey labelFm cmd = none → exec (.fmKeyCmd .fm cmd) s = .next (send (.cmdAnswer 0x60) s)) ∧
      (∀ k, mine → commandKey labelFm cmd = some k → exec (.fmKeyCmd .fm cmd) s = .next (answerCmd (.ok, writeRecorded 0 0x7050 0 0xFF
        { s with mram := { s.mram with fmKey := some k, fmCtr := 0 }, mgmt := { s.mgmt with ctr := 0 } })))) ∧
    -- the black box
    (let does (c : Instr) (u : State) : Prop := exec c s = .next (answerCmd (.ok, writeRecorded 0 0x8000 0 0xFF u))
     (∀ n seq, 1 ≤ n → n ≤ 16 → seq < 2 ^ 32 → does (.lovageRead .fm n seq) (lovageResult ((List.range n).map (fun i => lovageRead s (seq + i))) s)) ∧
     (∀ n seq, n = 0 ∨ (16 < n ∧ n < 256) → exec (.lovageRead .fm n seq) s = .next (send (.cmdAnswer 0x33) s)) ∧
     (∀ seq, seq < 2 ^ 32 → does (.lovageReadCopies .fm seq) (lovageResult (lovageCopies s seq) s)) ∧
     does (.lovageFreeze .fm) (lovageResult [] { s with lovage := { s.lovage with frozen := true } }) ∧
     does (.lovageUnfreeze .fm) (lovageResult [] { s with lovage := { s.lovage with frozen := false } }) ∧
     (unlocked s 9 false = true → does (.lovageClear .fm) (lovageResult [] { s with lovage := { s.lovage with a := [], b := [], c := [], next := 0, count := 0 } })) ∧
     (unlocked s 9 false = false → exec (.lovageClear .fm) s = .next (send (.cmdAnswer 0x31) s)) ∧
     (∀ r c, r = Role.any ∨ (∃ p, r = Role.pd p) → c ∈ [Instr.lovageRead r 1 0, .lovageReadCopies r 0, .lovageFreeze r, .lovageUnfreeze r, .lovageClear r] →
       exec c s = .next (send (.cmdAnswer 0x31) s))) ∧
    (∀ code group sev (data : Bytes), s.lovage.frozen = false → s.lovage.next < lovageRing → s.lovage.seq < 2 ^ 32 →
      let r := lovageRecord s.ptime s.lovage.seq code group sev data
      lovageRead (lovageStore code group sev data s).2 s.lovage.seq = (3, r) ∧ r.length = 64)

/-- The paths to the dictionary (R421, R425-R428, R434, R435): a WOP request without a tag acts in no role, one with a tag
only once it verifies and its CTR is new, a request already answered is answered again and everything else is dropped; an
event stays until it is acknowledged and is resent in order; mailbox, object window, MGMT cells and Fife reach the same
objects in the role of their sender and answer its status; JTAG holds the module in reset until it releases it. -/
def Obligations.PathsReachTheDictionaryInTheirRole : Prop :=
  ∀ s : State,
    (s.power.powered = false → ∀ ctr index sub part data tag n g c, c ∈ [Instr.wopRead ctr index sub part tag, .wopWrite ctr index sub part data tag,
      .eventResendTimer, .fifeStatus, .fifeGet index sub, .fifeSet index sub data, .fifeLovage n, .fifeUnlock g, .fifeLock g, .fifeReset] → exec c s = .next s) ∧
    (s.power.powered = true →
      -- WOP
      (∀ ctr index sub part (data : Bytes),
        (let r := objRead .any index sub part s
         exec (.wopRead ctr index sub part none) s = .next (wopAnswer ctr [] index sub part (r, s))) ∧
        (let w := objWrite true .any index sub part data s
         exec (.wopWrite ctr index sub part data none) s = .next (wopAnswer ctr [] index sub part ((w.1, []), w.2))) ∧
        (∀ t, let kept := s.mgmt.responses.find? (fun r => r.1 == ctr && r.2.1 == t)
          let drops : Prop := exec (.wopRead ctr index sub part (some t)) s = .next (bump 0x3B02 1 s) ∧
            exec (.wopWrite ctr index sub part data (some t)) s = .next (bump 0x3B02 1 s)
          (∀ k, kept = some k → exec (.wopRead ctr index sub part (some t)) s = .next (send k.2.2 s) ∧
            exec (.wopWrite ctr index sub part data (some t)) s = .next (send k.2.2 s)) ∧
          (kept = none → s.mram.fmKey = none ∨ ctr ≤ s.mram.fmCtr → drops) ∧
          (∀ key, kept = none → s.mram.fmKey = some key → s.mram.fmCtr < ctr →
            (gcmOpen key (wopNonce 0 ctr) (wopHeader 2 1 0 ctr 0 index sub part data.length) data t = none →
              exec (.wopWrite ctr index sub part data (some t)) s = .next (bump 0x3B02 1 s)) ∧
            (∀ d, gcmOpen key (wopNonce 0 ctr) (wopHeader 2 1 0 ctr 0 index sub part data.length) data t = some d →
              let s1 : State := { s with mram := { s.mram with fmCtr := ctr } }
              let w := objWrite true .fm index sub part d s1
              exec (.wopWrite ctr index sub part data (some t)) s = .next (wopAnswer ctr t index sub part ((w.1, []), w.2)))))) ∧
      (∀ ctr tag index sub part x (v : State), ∃ m, wopAnswer ctr tag index sub part (x, v) = { v with
        outbox := v.outbox ++ [m], mgmt := { v.mgmt with
          ctr := v.mgmt.ctr + 1, responses := (v.mgmt.responses ++ [(ctr, tag, m)]).drop (v.mgmt.responses.length - 15) } }) ∧
      -- resending
      (∃ u, exec .eventResendTimer s = .next u ∧ u.mgmt.unacked.map (fun e => (e.code, e.ptime, e.data)) = s.mgmt.unacked.map (fun e => (e.code, e.ptime, e.data)) ∧
        u.mgmt.ctr = s.mgmt.ctr + s.mgmt.unacked.length ∧ u.outbox.length = s.outbox.length + s.mgmt.unacked.length ∧
        u.mgmt.events = s.mgmt.events ∧ u.objs = s.objs ∧ u.dram = s.dram) ∧
      -- Fife
      exec .fifeStatus s = .next (send (.fife .ok (leBytes 4 (powerState s.power) ++ leBytes 4 (bringupStatus s.power) ++
        leBytes 4 (inputStatus s.power) ++ leBytes 8 s.ptime)) s) ∧
      (∀ n, n = 0 ∨ 64 < n → exec (.fifeLovage n) s = .next (send (.fife .errFormat []) s)) ∧
      (∀ n, 1 ≤ n → n ≤ 64 → ∃ b, exec (.fifeLovage n) s = .next (send (.fife .ok b) s) ∧ b.length = 65 * n) ∧
      (debugging s = false → exec .fifeReset s = .next (send (.fife .errPermission []) s)) ∧
      (debugging s = true → s.power.mainOn = true → s.power.kind = 2 ∨ 7 ≤ s.power.phase →
        ∃ u, exec .fifeReset s = .next u ∧ u.power.resetCause = 3 ∧ u.ready = false ∧ u.work.jobs = [] ∧ (s.hosts.dirCache = [] → u.mram = s.mram)) ∧
      (s.power.image = none → ∀ index sub data g c, c ∈ [Instr.fifeGet index sub, .fifeSet index sub data, .fifeUnlock g, .fifeLock g] → exec c s = .next s) ∧
      (s.power.image ≠ none → ∀ index sub data g,
        (let r := objRead .mon index sub 0xFF s
         exec (.fifeGet index sub) s = .next (send (.fife r.1 r.2) s)) ∧
        (let w := objWrite false .mon index sub 0xFF data s
         exec (.fifeSet index sub data) s = .next (send (.fife w.1 []) w.2)) ∧
        (debugging s = false → (index ≠ 0x7050 → exec (.fifeSet index sub data) s =
            .next (send (.fife (objWrite false .mon index sub 0xFF data s).1 []) s)) ∧
          exec (.fifeUnlock g) s = exec (.fifeLock g) s) ∧
        (debugging s = true → g = 3 ∨ g = 4 →
          (∃ u, exec (.fifeUnlock g) s = .next (send (.fife .ok []) u) ∧
            smFind? (unlockKey g true) u.mgmt.unlocks = some (s.ptime + obj s 0x4B00 0 * 1000000000) ∧ u.dram = s.dram) ∧
          (∃ u, exec (.fifeLock g) s = .next (send (.fife .ok []) u) ∧ smFind? (unlockKey g true) u.mgmt.unlocks = none ∧ u.dram = s.dram)))) ∧
    -- acknowledgement
    (∀ ctr, (∀ e ∈ s.mgmt.unacked, e.ctr ≠ ctr) → exec (.eventAck ctr) s = .next s) ∧
    (∀ ctr, (∃ e ∈ s.mgmt.unacked, e.ctr = ctr) → s.mgmt.lost = 0 →
      let rest : State := { s with mgmt := { s.mgmt with unacked := s.mgmt.unacked.filter (fun e => e.ctr != ctr) } }
      (s.mgmt.events = [] → exec (.eventAck ctr) s = .next rest) ∧
      (∀ e, s.mgmt.events = [e] → exec (.eventAck ctr) s = .next (sendEvent rest))) ∧
    -- the mailbox and the object window
    (s.power.mainOn = false → ∀ ld index sub part data t a l c, c ∈ [Instr.objRead ld index sub part, .objWrite ld index sub part data,
      .objWindowRead ld t a l data, .objWindowWrite ld t a l data] → exec c s = .next s) ∧
    (s.power.mainOn = true → ∀ ld index sub part (data : Bytes),
      (let r := objRead (ldRole s ld) index sub part s
       exec (.objRead ld index sub part) s = .next (send (.mailbox ld (leBytes 1 (statusCode r.1) ++ r.2)) s)) ∧
      (let w := objWrite false (ldRole s ld) index sub part data s
       exec (.objWrite ld index sub part data) s = .next (send (.mailbox ld [BitVec.ofNat 8 (statusCode w.1)]) w.2)) ∧
      ((getWin s ld).busy = true → ∀ t a l c, c ∈ [Instr.objWindowRead ld t a l data, .objWindowWrite ld t a l data] → exec c s = .next s) ∧
      ((getWin s ld).busy = false → ∀ t addr n, t < 65536 → addr < 2 ^ 32 →
        let shows (u : State) (st : Status) (d : Bytes) : Prop := getWin u ld = { addr := addr, len := n, token := t, status := statusCode st, busy := false, data := d }
        (n = 0 ∨ (2048 < n ∧ n < 4096) → ∀ c, c ∈ [Instr.objWindowRead ld t addr n data, .objWindowWrite ld t addr n data] →
          ∃ u, exec c s = .next u ∧ shows u .errFormat (slice (slice data 0 2048) 0 2048) ∧ u.objs = s.objs) ∧
        (1 ≤ n → n ≤ 2048 →
          (let r := objRead (ldRole s ld) (addr % 65536) (addr / 65536 % 256) (addr / 2 ^ 24) s
           (r.1 = .ok → r.2.length = n → ∃ u, exec (.objWindowRead ld t addr n data) s = .next u ∧
             shows u .ok (slice (splice (slice data 0 2048) 0 r.2) 0 2048) ∧ u.objs = s.objs) ∧
           (r.1 = .ok → r.2.length ≠ n → ∃ u, exec (.objWindowRead ld t addr n data) s = .next u ∧ (getWin u ld).status = 0x33) ∧
           (r.1 ≠ .ok → ∃ u, exec (.objWindowRead ld t addr n data) s = .next u ∧ (getWin u ld).status = statusCode r.1)) ∧
          (let w := objWrite false (ldRole s ld) (addr % 65536) (addr / 65536 % 256) (addr / 2 ^ 24) (slice data 0 n) s
           ∃ u, exec (.objWindowWrite ld t addr n data) s = .next u ∧ (getWin u ld).status = statusCode w.1 ∧ (getWin u ld).token = t ∧
             (getWin u ld).busy = false ∧ u.objs = w.2.objs ∧ u.dram = w.2.dram)))) ∧
    -- MGMT cells
    (∀ cell : Bytes, let r := cellRole s (leAt cell 2 1)
      let index := leAt cell 6 2
      let sub := leAt cell 8 1
      let n := leAt cell 9 1
      (n = 0 ∨ 8 < n →
        exec (.mgmtCellRead cell) s = .next (mgmtAnswer (cellOp 1 cell) ((.errFormat, []), s)) ∧
        exec (.mgmtCellWrite cell) s = .next (mgmtAnswer (cellOp 2 cell) ((.errFormat, []), s))) ∧
      (1 ≤ n → n ≤ 8 →
        (let x := objRead r index sub 0xFF s
         (x.1 ≠ .ok ∨ x.2.length = n → exec (.mgmtCellRead cell) s = .next (mgmtAnswer (cellOp 1 cell) (x, s))) ∧
         (x.1 = .ok → x.2.length ≠ n → exec (.mgmtCellRead cell) s = .next (mgmtAnswer (cellOp 1 cell) ((.errFormat, []), s)))) ∧
        (let w := objWrite false r index sub 0xFF (slice cell 16 n) s
         exec (.mgmtCellWrite cell) s = .next (mgmtAnswer (cellOp 2 cell) ((w.1, []), w.2))))) ∧
    -- JTAG: which instruction is loaded and what is shifted in are free values (log entry 115)
    (let s1 : State := { s with fresh := s.fresh + 10 }
     let ins := tapTest s.fresh
     let quiet := tapQuiet s.fresh
     let shifted := tapCells (s.fresh + 1)
     (s.power.powered = false → exec .jtagTestInstruction s = .next s1 ∧ exec .jtagTestRelease s = .next s1) ∧
     (s.power.powered = true → s.power.mainOn = true → s.power.kind = 2 ∨ 7 ≤ s.power.phase → ∃ u, exec .jtagTestInstruction s = .next u ∧
       u.mgmt.jtagHold = true ∧ u.mgmt.tap = .test ins ∧ u.mgmt.cells = (if ins = .clamp ∨ ins = .highz then s.mgmt.cells else shifted) ∧
       u.outbox.getLast? = some (landTest ins u.mgmt.cells) ∧ u.power.resetCause = 4 ∧ u.power.phase = 2 ∧ u.ready = false ∧
       u.work.jobs = [] ∧ (s.hosts.dirCache = [] → u.mram = s.mram)) ∧
     (s.power.powered = true → ∃ u, exec .jtagTestRelease s = .next u ∧ u.mgmt.tap = .quiet quiet ∧
       u.mgmt.cells = (if quiet = .samplePreload then shifted else s.mgmt.cells) ∧ u.dram = s.dram ∧ u.mram = s.mram ∧
       (quiet = .dxdbg ∧ debugging s = true → u.mgmt.jtagHold = s.mgmt.jtagHold ∧ u.power = s.power) ∧
       (¬ (quiet = .dxdbg ∧ debugging s = true) → u.mgmt.jtagHold = false ∧
         (s.mgmt.jtagHold = false ∨ s.power.mainOn = false → u.power = s.power) ∧
         (s.mgmt.jtagHold = true → s.power.mainOn = true → s.power.kind = 2 → s.power.phase = 2 → s.power.warmWait = false →
           u.power.phase = (match s.power.image with | some _ => 4 | none => 3)))))

end
end

