-- ==== Sys2Proof/Laws/Maps.lean ====
section
/-!
SUPPORT. Laws of sparse maps: what a key reads as after an entry is put, set, changed or erased, and that the canonical
form is kept.
-/
namespace Sys2Proof.Machine

section
variable {α : Type}

@[simp] theorem smFind?_nil (k : Nat) : smFind? k ([] : SMap α) = none := rfl

theorem smFind?_erase (k j : Nat) (m : SMap α) : smFind? k (smErase j m) = if k = j then none else smFind? k m := by
  induction m with
  | nil => simp [smErase]
  | cons e m ih =>
    obtain ⟨i, v⟩ := e
    simp only [smErase, smFind?]
    by_cases h : i = j
    · subst h
      rw [if_pos rfl, ih]
      by_cases hk : k = i
      · rw [if_pos hk, if_pos hk]
      · rw [if_neg hk, if_neg hk, if_neg (Ne.symm hk)]
    · rw [if_neg h, smFind?, ih]
      by_cases hk : i = k
      · subst hk; rw [if_pos rfl, if_neg h, if_pos rfl]
      · rw [if_neg hk, if_neg hk]

theorem smFind?_insert (k j : Nat) (v : α) (m : SMap α) (h : smFind? j m = none) :
    smFind? k (smInsert j v m) = if k = j then some v else smFind? k m := by
  induction m with
  | nil => simp [smInsert, smFind?, eq_comm]
  | cons e m ih =>
    obtain ⟨i, u⟩ := e
    simp only [smFind?] at h
    split at h
    · cases h
    · rename_i hij
      simp only [smInsert]
      split
      · simp [smFind?, eq_comm]
      · simp only [smFind?, ih h]
        by_cases hk : i = k
        · subst hk; simp [hij]
        · simp [hk]

/-- What a key reads as after an entry is put. -/
theorem smFind?_put (k j : Nat) (v : α) (m : SMap α) : smFind? k (smPut j v m) = if k = j then some v else smFind? k m := by
  rw [smPut, smFind?_insert k j v _ (by simp [smFind?_erase]), smFind?_erase]
  by_cases h : k = j <;> simp [h]

@[simp] theorem smFind?_put_self (k : Nat) (v : α) (m : SMap α) : smFind? k (smPut k v m) = some v := by
  simp [smFind?_put]

theorem smFind?_put_other {k j : Nat} (v : α) (m : SMap α) (h : k ≠ j) : smFind? k (smPut j v m) = smFind? k m := by
  simp [smFind?_put, h]

@[simp] theorem smGet_put_self (d : α) (k : Nat) (v : α) (m : SMap α) : smGet d k (smPut k v m) = v := by
  simp [smGet]

theorem smGet_put_other (d : α) {k j : Nat} (v : α) (m : SMap α) (h : k ≠ j) : smGet d k (smPut j v m) = smGet d k m := by
  simp [smGet, smFind?_put_other _ _ h]

theorem smGet_erase (d : α) (k j : Nat) (m : SMap α) : smGet d k (smErase j m) = if k = j then d else smGet d k m := by
  simp only [smGet, smFind?_erase]
  by_cases h : k = j <;> simp [h]

section
variable [DecidableEq α]

/-- What a key reads as after a value is set, with the map's own default. -/
theorem smGet_set (d : α) (k j : Nat) (v : α) (m : SMap α) : smGet d k (smSet d j v m) = if k = j then v else smGet d k m := by
  unfold smSet
  by_cases hv : v = d
  · simp [hv, smGet_erase]
  · simp only [hv, if_false, smGet, smFind?_put]
    by_cases h : k = j <;> simp [h]

@[simp] theorem smGet_set_self (d : α) (k : Nat) (v : α) (m : SMap α) : smGet d k (smSet d k v m) = v := by
  simp [smGet_set]

theorem smGet_set_other (d : α) {k j : Nat} (v : α) (m : SMap α) (h : k ≠ j) : smGet d k (smSet d j v m) = smGet d k m := by
  simp [smGet_set, h]

theorem smFind?_set_other (d : α) {k j : Nat} (v : α) (m : SMap α) (h : k ≠ j) :
    smFind? k (smSet d j v m) = smFind? k m := by
  unfold smSet
  split
  · simp [smFind?_erase, h]
  · exact smFind?_put_other _ _ h

/-- An unlisted key set to its default stays unlisted. -/
theorem getD_find?_set_self (d : α) (k : Nat) (v : α) (m : SMap α) : (smFind? k (smSet d k v m)).getD d = v := by
  have := smGet_set_self d k v m
  simpa [smGet] using this

@[simp] theorem smGet_upd_self (d : α) (k : Nat) (f : α → α) (m : SMap α) :
    smGet d k (smUpd d k f m) = f (smGet d k m) := by
  simp [smUpd]

theorem smGet_upd_other (d : α) {k j : Nat} (f : α → α) (m : SMap α) (h : k ≠ j) :
    smGet d k (smUpd d j f m) = smGet d k m := by
  simp [smUpd, smGet_set_other _ _ _ h]
end

/-- What a key reads as after an entry is changed. -/
theorem smFind?_alter (k j : Nat) (f : α → α) (m : SMap α) :
    smFind? k (smAlter j f m) = if k = j then (smFind? k m).map f else smFind? k m := by
  induction m with
  | nil => simp [smAlter]
  | cons e m ih =>
    obtain ⟨i, v⟩ := e
    simp only [smAlter, smFind?]
    by_cases hij : i = j
    · subst hij
      rw [if_pos rfl, smFind?]
      by_cases hk : i = k
      · subst hk; simp
      · have hk' : ¬ k = i := fun e => hk e.symm
        simp [hk, hk']
    · rw [if_neg hij, smFind?, ih]
      by_cases hk : i = k
      · subst hk; simp [hij]
      · simp [hk]

/-! ## The canonical form -/

theorem smRisingFrom_mono {lo lo' : Nat} (h : lo' ≤ lo) (m : SMap α) (r : smRisingFrom lo m = true) :
    smRisingFrom lo' m = true := by
  cases m with
  | nil => rfl
  | cons e m =>
    simp only [smRisingFrom, Bool.and_eq_true, decide_eq_true_eq] at r ⊢
    exact ⟨Nat.le_trans h r.1, r.2⟩

theorem smRisingFrom_erase (k : Nat) (m : SMap α) : ∀ lo, smRisingFrom lo m = true → smRisingFrom lo (smErase k m) = true := by
  induction m with
  | nil => intro lo h; rfl
  | cons e m ih =>
    intro lo h
    simp only [smRisingFrom, Bool.and_eq_true, decide_eq_true_eq] at h
    simp only [smErase]
    split
    · exact ih lo (smRisingFrom_mono (by omega) m h.2)
    · simp only [smRisingFrom, Bool.and_eq_true, decide_eq_true_eq]
      exact ⟨h.1, ih _ h.2⟩

theorem smErase_none_of_rising (k : Nat) (m : SMap α) : smFind? k (smErase k m) = none := by
  simp [smFind?_erase]

theorem smRisingFrom_insert (k : Nat) (v : α) (m : SMap α) :
    ∀ lo, lo ≤ k → smFind? k m = none → smRisingFrom lo m = true → smRisingFrom lo (smInsert k v m) = true := by
  induction m with
  | nil => intro lo h _ _; simp [smInsert, smRisingFrom, h]
  | cons e m ih =>
    obtain ⟨i, u⟩ := e
    intro lo h hn r
    simp only [smRisingFrom, Bool.and_eq_true, decide_eq_true_eq] at r
    simp only [smFind?] at hn
    split at hn
    · cases hn
    · rename_i hik
      simp only [smInsert]
      split
      · rename_i hki
        simp only [smRisingFrom, Bool.and_eq_true, decide_eq_true_eq]
        exact ⟨h, by omega, r.2⟩
      · simp only [smRisingFrom, Bool.and_eq_true, decide_eq_true_eq]
        exact ⟨r.1, ih _ (by omega) hn r.2⟩

/-- Putting an entry keeps keys strictly rising. -/
theorem smRising_put (k : Nat) (v : α) (m : SMap α) (h : smRisingFrom 0 m = true) : smRisingFrom 0 (smPut k v m) = true :=
  smRisingFrom_insert k v _ 0 (Nat.zero_le _) (smErase_none_of_rising k m) (smRisingFrom_erase k m 0 h)

/-- Setting a value keeps keys strictly rising. -/
theorem smRising_set [DecidableEq α] (d : α) (k : Nat) (v : α) (m : SMap α) (h : smRisingFrom 0 m = true) :
    smRisingFrom 0 (smSet d k v m) = true := by
  unfold smSet
  split
  · exact smRisingFrom_erase k m 0 h
  · exact smRising_put k v m h

theorem mem_smErase {e : Nat × α} {k : Nat} {m : SMap α} (h : e ∈ smErase k m) : e ∈ m ∧ e.1 ≠ k := by
  induction m with
  | nil => simp [smErase] at h
  | cons x m ih =>
    obtain ⟨i, v⟩ := x
    simp only [smErase] at h
    split at h
    · exact ⟨List.mem_cons_of_mem _ (ih h).1, (ih h).2⟩
    · rename_i hik
      rcases List.mem_cons.1 h with rfl | h
      · exact ⟨List.mem_cons_self .., hik⟩
      · exact ⟨List.mem_cons_of_mem _ (ih h).1, (ih h).2⟩

theorem mem_smInsert {e : Nat × α} {k : Nat} {v : α} {m : SMap α} (h : e ∈ smInsert k v m) : e = (k, v) ∨ e ∈ m := by
  induction m with
  | nil => exact Or.inl (by simpa [smInsert] using h)
  | cons x m ih =>
    simp only [smInsert] at h
    split at h
    · simpa using h
    · rcases List.mem_cons.1 h with rfl | h
      · exact Or.inr (List.mem_cons_self ..)
      · rcases ih h with rfl | h
        · exact Or.inl rfl
        · exact Or.inr (List.mem_cons_of_mem _ h)

/-- An entry of a map after a value is set: the value set, which is not the default, or an entry of another key. -/
theorem mem_smSet [DecidableEq α] {e : Nat × α} {d : α} {k : Nat} {v : α} {m : SMap α} (h : e ∈ smSet d k v m) :
    (e = (k, v) ∧ v ≠ d) ∨ (e ∈ m ∧ e.1 ≠ k) := by
  unfold smSet at h
  split at h
  · exact Or.inr (mem_smErase h)
  · rename_i hv
    rcases mem_smInsert h with rfl | h
    · exact Or.inl ⟨rfl, hv⟩
    · exact Or.inr (mem_smErase h)

theorem smRisingFrom_filter (p : Nat × α → Bool) (m : SMap α) :
    ∀ lo, smRisingFrom lo m = true → smRisingFrom lo (m.filter p) = true := by
  induction m with
  | nil => intro lo h; rfl
  | cons e m ih =>
    intro lo h
    simp only [smRisingFrom, Bool.and_eq_true, decide_eq_true_eq] at h
    simp only [List.filter]
    split
    · simp only [smRisingFrom, Bool.and_eq_true, decide_eq_true_eq]
      exact ⟨h.1, ih _ h.2⟩
    · exact ih lo (smRisingFrom_mono (by omega) m h.2)

end

end Sys2Proof.Machine
end

