-- ==== Sys2Proof/Laws/Memory.lean ====
section
/-!
SUPPORT. Laws of stored memory: a byte read after a line is stored, every other byte as before, and the canonical form
kept by every operation that writes stored bytes.
-/
namespace Sys2Proof.Machine
open Sys2Proof.Safety

/-! ## Reading after storing -/

theorem putCells_get (lost : SMap Nat) (bs : List Byte) : ∀ (key : Nat) (m : List Host.Cell) (k : Nat),
    smGet (cellDefault lost k) k (putCells lost key bs m) =
      if key ≤ k ∧ k < key + bs.length then bs.getD (k - key) 0 else smGet (cellDefault lost k) k m := by
  induction bs with
  | nil =>
    intro key m k
    simp [putCells]
  | cons b bs ih =>
    intro key m k
    rw [putCells, ih]
    by_cases h0 : k = key
    · subst h0
      rw [if_neg (by omega), smGet_set_self, if_pos (by simp)]
      simp
    · by_cases h1 : key + 1 ≤ k ∧ k < key + 1 + bs.length
      · rw [if_pos h1, if_pos (by simp; omega)]
        obtain ⟨n, hn⟩ : ∃ n, k - key = n + 1 := ⟨k - key - 1, by omega⟩
        have : k - (key + 1) = n := by omega
        rw [hn, this]; simp
      · rw [if_neg h1, if_neg (by simp; omega), smGet, smFind?_set_other _ _ _ h0, smGet]

/-- What a stored byte reads as after a line's bytes are stored on a stack. -/
theorem cell_storeOn (ps line : Nat) (bs : List Byte) (s : State) (k : Nat) :
    cell (storeOn ps line bs s) k =
      if cellKey ps line 0 ≤ k ∧ k < cellKey ps line 0 + (bs.take 68).length
      then (bs.take 68).getD (k - cellKey ps line 0) 0 else cell s k := by
  simp only [cell, storeOn]
  exact putCells_get _ _ _ _ _

theorem cellKey_add (ps line i : Nat) : cellKey ps line i = cellKey ps line 0 + i := by simp [cellKey]

/-- A line stored on a stack reads back byte for byte. -/
theorem cell_storeOn_line (ps line i : Nat) (bs : List Byte) (s : State) (hb : bs.length = 68) (hi : i < 68) :
    cell (storeOn ps line bs s) (cellKey ps line i) = bs.getD i 0 := by
  rw [cell_storeOn, cellKey_add ps line i, if_pos (by simp [hb]; omega)]
  simp [List.take_of_length_le (by omega : bs.length ≤ 68)]

/-- Storing a line leaves the bytes of every other line, and of every other stack, as they were. -/
theorem cell_storeOn_other (ps line : Nat) (bs : List Byte) (s : State) (ps' line' i : Nat)
    (hl : line < 2 ^ 41) (hl' : line' < 2 ^ 41) (hi : i < 68) (h : ps' ≠ ps ∨ line' ≠ line) :
    cell (storeOn ps line bs s) (cellKey ps' line' i) = cell s (cellKey ps' line' i) := by
  rw [cell_storeOn, if_neg]
  have hn : (bs.take 68).length ≤ 68 := by simp
  simp only [cellKey]
  rintro ⟨h1, h2⟩
  have e1 : ps' = ps := by omega
  subst e1
  omega

/-! ## The canonical form -/

theorem putCells_rising (lost : SMap Nat) (bs : List Byte) : ∀ (key : Nat) (m : List Host.Cell),
    smRisingFrom 0 m = true → smRisingFrom 0 (putCells lost key bs m) = true := by
  induction bs with
  | nil => intro _ _ h; exact h
  | cons b bs ih => intro key m h; exact ih _ _ (smRising_set _ _ _ _ h)

theorem putCells_differ (lost : SMap Nat) (bs : List Byte) : ∀ (key : Nat) (m : List Host.Cell),
    (∀ c ∈ m, c.2 ≠ cellDefault lost c.1) → ∀ c ∈ putCells lost key bs m, c.2 ≠ cellDefault lost c.1 := by
  induction bs with
  | nil => intro _ _ h; exact h
  | cons b bs ih =>
    intro key m h
    refine ih _ _ ?_
    intro c hc
    rcases mem_smSet hc with ⟨rfl, hv⟩ | ⟨hc, _⟩
    · exact hv
    · exact h c hc

theorem memoryWf_iff (s : State) :
    memoryWf s = true ↔ smRisingFrom 0 s.dram.cells = true ∧ ∀ c ∈ s.dram.cells, c.2 ≠ cellDefault s.dram.lost c.1 := by
  simp [memoryWf]

/-- Memory's canonical form is a matter of the cells and of what is lost, and of nothing else in the state. -/
theorem memoryWf_of_eq {s t : State} (hc : t.dram.cells = s.dram.cells) (hl : t.dram.lost = s.dram.lost) :
    memoryWf t = memoryWf s := by
  simp [memoryWf, hc, hl]

/-- Storing a line's bytes keeps the canonical form. -/
theorem memoryWf_storeOn (ps line : Nat) (bs : List Byte) (s : State) (h : memoryWf s = true) :
    memoryWf (storeOn ps line bs s) = true := by
  rw [memoryWf_iff] at h ⊢
  exact ⟨putCells_rising _ _ _ _ h.1, putCells_differ _ _ _ _ h.2⟩

theorem memoryWf_storeLine (line : Nat) (bs : List Byte) (s : State) (h : memoryWf s = true) :
    memoryWf (storeLine line bs s) = true := by
  unfold storeLine
  split
  · exact h
  · have h1 : memoryWf (if s.mram.deadStacks.contains (physStack s (lstackOf (line * 64))) then s
        else storeOn (physStack s (lstackOf (line * 64))) line bs s) = true := by
      split
      · exact h
      · exact memoryWf_storeOn _ _ _ _ h
    dsimp only
    split
    · exact memoryWf_storeOn _ _ _ _ h1
    · exact h1

theorem memoryWf_writeLine (line : Nat) (data : Bytes) (tag : Nat) (s : State) (h : memoryWf s = true) :
    memoryWf (writeLine line data tag s) = true := memoryWf_storeLine _ _ _ h

/-- Dropping stored bytes, what is lost unchanged, keeps the canonical form. -/
theorem memoryWf_filter (p : Host.Cell → Bool) (s t : State) (hc : t.dram.cells = s.dram.cells.filter p)
    (hl : t.dram.lost = s.dram.lost) (h : memoryWf s = true) : memoryWf t = true := by
  rw [memoryWf_iff] at h ⊢
  rw [hc, hl]
  exact ⟨smRisingFrom_filter p _ 0 h.1, fun c hm => h.2 c (List.mem_filter.1 hm).1⟩

/-- Memory at power-on is in canonical form. -/
theorem memoryWf_reset : memoryWf State.reset = true := rfl

end Sys2Proof.Machine
end

