-- ==== Sys2Proof/Laws/State.lean ====
section
/-!
SUPPORT. Laws of the state: for each change of a part of State, what every field is after it.
-/
namespace Sys2Proof.Machine

section
variable (s : State)

@[simp] theorem send_ptime (m : Msg) : (send m s).ptime = s.ptime := rfl
@[simp] theorem send_ready (m : Msg) : (send m s).ready = s.ready := rfl
@[simp] theorem send_mram (m : Msg) : (send m s).mram = s.mram := rfl
@[simp] theorem send_objs (m : Msg) : (send m s).objs = s.objs := rfl
@[simp] theorem send_dram (m : Msg) : (send m s).dram = s.dram := rfl
@[simp] theorem send_coh (m : Msg) : (send m s).coh = s.coh := rfl
@[simp] theorem send_hosts (m : Msg) : (send m s).hosts = s.hosts := rfl
@[simp] theorem send_cxl (m : Msg) : (send m s).cxl = s.cxl := rfl
@[simp] theorem send_work (m : Msg) : (send m s).work = s.work := rfl
@[simp] theorem send_tiles (m : Msg) : (send m s).tiles = s.tiles := rfl
@[simp] theorem send_sync (m : Msg) : (send m s).sync = s.sync := rfl
@[simp] theorem send_fabric (m : Msg) : (send m s).fabric = s.fabric := rfl
@[simp] theorem send_sched (m : Msg) : (send m s).sched = s.sched := rfl
@[simp] theorem send_lanes (m : Msg) : (send m s).lanes = s.lanes := rfl
@[simp] theorem send_eyeCmd (m : Msg) : (send m s).eyeCmd = s.eyeCmd := rfl
@[simp] theorem send_links (m : Msg) : (send m s).links = s.links := rfl
@[simp] theorem send_sec (m : Msg) : (send m s).sec = s.sec := rfl
@[simp] theorem send_buddy (m : Msg) : (send m s).buddy = s.buddy := rfl
@[simp] theorem send_mgmt (m : Msg) : (send m s).mgmt = s.mgmt := rfl
@[simp] theorem send_lovage (m : Msg) : (send m s).lovage = s.lovage := rfl
@[simp] theorem send_power (m : Msg) : (send m s).power = s.power := rfl
@[simp] theorem send_rings (m : Msg) : (send m s).rings = s.rings := rfl
@[simp] theorem send_fresh (m : Msg) : (send m s).fresh = s.fresh := rfl
@[simp] theorem send_pending (m : Msg) : (send m s).pending = s.pending := rfl
@[simp] theorem send_outbox (m : Msg) : (send m s).outbox = s.outbox ++ [m] := rfl

@[simp] theorem setPobj_mram_sramRows (p i u v : Nat) : (setPobj p i u v s).mram.sramRows = s.mram.sramRows := by
  simp only [setPobj]; split <;> rfl
@[simp] theorem setPobj_mram_minutes (p i u v : Nat) : (setPobj p i u v s).mram.minutes = s.mram.minutes := by
  simp only [setPobj]; split <;> rfl
@[simp] theorem setPobj_mram_hours (p i u v : Nat) : (setPobj p i u v s).mram.hours = s.mram.hours := by
  simp only [setPobj]; split <;> rfl
@[simp] theorem setPobj_mram_train (p i u v : Nat) : (setPobj p i u v s).mram.train = s.mram.train := by
  simp only [setPobj]; split <;> rfl
@[simp] theorem setPobj_mram_failedTiles (p i u v : Nat) : (setPobj p i u v s).mram.failedTiles = s.mram.failedTiles := by
  simp only [setPobj]; split <;> rfl
@[simp] theorem setPobj_mram_deadStacks (p i u v : Nat) : (setPobj p i u v s).mram.deadStacks = s.mram.deadStacks := by
  simp only [setPobj]; split <;> rfl
@[simp] theorem setPobj_mram_remaps (p i u v : Nat) : (setPobj p i u v s).mram.remaps = s.mram.remaps := by
  simp only [setPobj]; split <;> rfl
@[simp] theorem setPobj_mram_fmKey (p i u v : Nat) : (setPobj p i u v s).mram.fmKey = s.mram.fmKey := by
  simp only [setPobj]; split <;> rfl
@[simp] theorem setPobj_mram_fmCtr (p i u v : Nat) : (setPobj p i u v s).mram.fmCtr = s.mram.fmCtr := by
  simp only [setPobj]; split <;> rfl
@[simp] theorem setPobj_mram_rollback (p i u v : Nat) : (setPobj p i u v s).mram.rollback = s.mram.rollback := by
  simp only [setPobj]; split <;> rfl
@[simp] theorem setPobj_mram_lastShutdown (p i u v : Nat) : (setPobj p i u v s).mram.lastShutdown = s.mram.lastShutdown := by
  simp only [setPobj]; split <;> rfl
theorem setPobj_mram (p i u v : Nat) (h : objIs .rws i u = false) : (setPobj p i u v s).mram = s.mram := by
  simp only [setPobj, h]; rfl
theorem setPobj_mram_rws (p i u v : Nat) (h : objIs .rws i u = true) : (setPobj p i u v s).mram = commitRws p i u v s.mram := by
  simp only [setPobj, h]; rfl
@[simp] theorem setPobj_ptime (p i u v : Nat) : (setPobj p i u v s).ptime = s.ptime := rfl
@[simp] theorem setPobj_ready (p i u v : Nat) : (setPobj p i u v s).ready = s.ready := rfl
@[simp] theorem setPobj_dram (p i u v : Nat) : (setPobj p i u v s).dram = s.dram := rfl
@[simp] theorem setPobj_coh (p i u v : Nat) : (setPobj p i u v s).coh = s.coh := rfl
@[simp] theorem setPobj_hosts (p i u v : Nat) : (setPobj p i u v s).hosts = s.hosts := rfl
@[simp] theorem setPobj_cxl (p i u v : Nat) : (setPobj p i u v s).cxl = s.cxl := rfl
@[simp] theorem setPobj_work (p i u v : Nat) : (setPobj p i u v s).work = s.work := rfl
@[simp] theorem setPobj_tiles (p i u v : Nat) : (setPobj p i u v s).tiles = s.tiles := rfl
@[simp] theorem setPobj_sync (p i u v : Nat) : (setPobj p i u v s).sync = s.sync := rfl
@[simp] theorem setPobj_fabric (p i u v : Nat) : (setPobj p i u v s).fabric = s.fabric := rfl
@[simp] theorem setPobj_sched (p i u v : Nat) : (setPobj p i u v s).sched = s.sched := rfl
@[simp] theorem setPobj_lanes (p i u v : Nat) : (setPobj p i u v s).lanes = s.lanes := rfl
@[simp] theorem setPobj_eyeCmd (p i u v : Nat) : (setPobj p i u v s).eyeCmd = s.eyeCmd := rfl
@[simp] theorem setPobj_links (p i u v : Nat) : (setPobj p i u v s).links = s.links := rfl
@[simp] theorem setPobj_sec (p i u v : Nat) : (setPobj p i u v s).sec = s.sec := rfl
@[simp] theorem setPobj_buddy (p i u v : Nat) : (setPobj p i u v s).buddy = s.buddy := rfl
@[simp] theorem setPobj_mgmt (p i u v : Nat) : (setPobj p i u v s).mgmt = s.mgmt := rfl
@[simp] theorem setPobj_lovage (p i u v : Nat) : (setPobj p i u v s).lovage = s.lovage := rfl
@[simp] theorem setPobj_power (p i u v : Nat) : (setPobj p i u v s).power = s.power := rfl
@[simp] theorem setPobj_rings (p i u v : Nat) : (setPobj p i u v s).rings = s.rings := rfl
@[simp] theorem setPobj_fresh (p i u v : Nat) : (setPobj p i u v s).fresh = s.fresh := rfl
@[simp] theorem setPobj_outbox (p i u v : Nat) : (setPobj p i u v s).outbox = s.outbox := rfl
@[simp] theorem setPobj_pending (p i u v : Nat) : (setPobj p i u v s).pending = s.pending := rfl

@[simp] theorem setObj_mram_sramRows (i u v : Nat) : (setObj i u v s).mram.sramRows = s.mram.sramRows := by
  simp only [setObj, setPobj]; split <;> rfl
@[simp] theorem setObj_mram_minutes (i u v : Nat) : (setObj i u v s).mram.minutes = s.mram.minutes := by
  simp only [setObj, setPobj]; split <;> rfl
@[simp] theorem setObj_mram_hours (i u v : Nat) : (setObj i u v s).mram.hours = s.mram.hours := by
  simp only [setObj, setPobj]; split <;> rfl
@[simp] theorem setObj_mram_train (i u v : Nat) : (setObj i u v s).mram.train = s.mram.train := by
  simp only [setObj, setPobj]; split <;> rfl
@[simp] theorem setObj_mram_failedTiles (i u v : Nat) : (setObj i u v s).mram.failedTiles = s.mram.failedTiles := by
  simp only [setObj, setPobj]; split <;> rfl
@[simp] theorem setObj_mram_deadStacks (i u v : Nat) : (setObj i u v s).mram.deadStacks = s.mram.deadStacks := by
  simp only [setObj, setPobj]; split <;> rfl
@[simp] theorem setObj_mram_remaps (i u v : Nat) : (setObj i u v s).mram.remaps = s.mram.remaps := by
  simp only [setObj, setPobj]; split <;> rfl
@[simp] theorem setObj_mram_fmKey (i u v : Nat) : (setObj i u v s).mram.fmKey = s.mram.fmKey := by
  simp only [setObj, setPobj]; split <;> rfl
@[simp] theorem setObj_mram_fmCtr (i u v : Nat) : (setObj i u v s).mram.fmCtr = s.mram.fmCtr := by
  simp only [setObj, setPobj]; split <;> rfl
@[simp] theorem setObj_mram_rollback (i u v : Nat) : (setObj i u v s).mram.rollback = s.mram.rollback := by
  simp only [setObj, setPobj]; split <;> rfl
@[simp] theorem setObj_mram_lastShutdown (i u v : Nat) : (setObj i u v s).mram.lastShutdown = s.mram.lastShutdown := by
  simp only [setObj, setPobj]; split <;> rfl
theorem setObj_mram (i u v : Nat) (h : objIs .rws i u = false) : (setObj i u v s).mram = s.mram := by
  simp only [setObj, setPobj, h]; rfl
theorem setObj_mram_rws (i u v : Nat) (h : objIs .rws i u = true) : (setObj i u v s).mram = commitRws 0 i u v s.mram := by
  simp only [setObj, setPobj, h]; rfl
@[simp] theorem setObj_ptime (i u v : Nat) : (setObj i u v s).ptime = s.ptime := rfl
@[simp] theorem setObj_ready (i u v : Nat) : (setObj i u v s).ready = s.ready := rfl
@[simp] theorem setObj_dram (i u v : Nat) : (setObj i u v s).dram = s.dram := rfl
@[simp] theorem setObj_coh (i u v : Nat) : (setObj i u v s).coh = s.coh := rfl
@[simp] theorem setObj_hosts (i u v : Nat) : (setObj i u v s).hosts = s.hosts := rfl
@[simp] theorem setObj_cxl (i u v : Nat) : (setObj i u v s).cxl = s.cxl := rfl
@[simp] theorem setObj_work (i u v : Nat) : (setObj i u v s).work = s.work := rfl
@[simp] theorem setObj_tiles (i u v : Nat) : (setObj i u v s).tiles = s.tiles := rfl
@[simp] theorem setObj_sync (i u v : Nat) : (setObj i u v s).sync = s.sync := rfl
@[simp] theorem setObj_fabric (i u v : Nat) : (setObj i u v s).fabric = s.fabric := rfl
@[simp] theorem setObj_sched (i u v : Nat) : (setObj i u v s).sched = s.sched := rfl
@[simp] theorem setObj_lanes (i u v : Nat) : (setObj i u v s).lanes = s.lanes := rfl
@[simp] theorem setObj_eyeCmd (i u v : Nat) : (setObj i u v s).eyeCmd = s.eyeCmd := rfl
@[simp] theorem setObj_links (i u v : Nat) : (setObj i u v s).links = s.links := rfl
@[simp] theorem setObj_sec (i u v : Nat) : (setObj i u v s).sec = s.sec := rfl
@[simp] theorem setObj_buddy (i u v : Nat) : (setObj i u v s).buddy = s.buddy := rfl
@[simp] theorem setObj_mgmt (i u v : Nat) : (setObj i u v s).mgmt = s.mgmt := rfl
@[simp] theorem setObj_lovage (i u v : Nat) : (setObj i u v s).lovage = s.lovage := rfl
@[simp] theorem setObj_power (i u v : Nat) : (setObj i u v s).power = s.power := rfl
@[simp] theorem setObj_rings (i u v : Nat) : (setObj i u v s).rings = s.rings := rfl
@[simp] theorem setObj_fresh (i u v : Nat) : (setObj i u v s).fresh = s.fresh := rfl
@[simp] theorem setObj_outbox (i u v : Nat) : (setObj i u v s).outbox = s.outbox := rfl
@[simp] theorem setObj_pending (i u v : Nat) : (setObj i u v s).pending = s.pending := rfl

@[simp] theorem updTile_ptime (t : Nat) (f : TileSt → TileSt) : (updTile t f s).ptime = s.ptime := rfl
@[simp] theorem updTile_ready (t : Nat) (f : TileSt → TileSt) : (updTile t f s).ready = s.ready := rfl
@[simp] theorem updTile_mram (t : Nat) (f : TileSt → TileSt) : (updTile t f s).mram = s.mram := rfl
@[simp] theorem updTile_objs (t : Nat) (f : TileSt → TileSt) : (updTile t f s).objs = s.objs := rfl
@[simp] theorem updTile_dram (t : Nat) (f : TileSt → TileSt) : (updTile t f s).dram = s.dram := rfl
@[simp] theorem updTile_coh (t : Nat) (f : TileSt → TileSt) : (updTile t f s).coh = s.coh := rfl
@[simp] theorem updTile_hosts (t : Nat) (f : TileSt → TileSt) : (updTile t f s).hosts = s.hosts := rfl
@[simp] theorem updTile_cxl (t : Nat) (f : TileSt → TileSt) : (updTile t f s).cxl = s.cxl := rfl
@[simp] theorem updTile_work (t : Nat) (f : TileSt → TileSt) : (updTile t f s).work = s.work := rfl
@[simp] theorem updTile_sync (t : Nat) (f : TileSt → TileSt) : (updTile t f s).sync = s.sync := rfl
@[simp] theorem updTile_fabric (t : Nat) (f : TileSt → TileSt) : (updTile t f s).fabric = s.fabric := rfl
@[simp] theorem updTile_sched (t : Nat) (f : TileSt → TileSt) : (updTile t f s).sched = s.sched := rfl
@[simp] theorem updTile_lanes (t : Nat) (f : TileSt → TileSt) : (updTile t f s).lanes = s.lanes := rfl
@[simp] theorem updTile_eyeCmd (t : Nat) (f : TileSt → TileSt) : (updTile t f s).eyeCmd = s.eyeCmd := rfl
@[simp] theorem updTile_links (t : Nat) (f : TileSt → TileSt) : (updTile t f s).links = s.links := rfl
@[simp] theorem updTile_sec (t : Nat) (f : TileSt → TileSt) : (updTile t f s).sec = s.sec := rfl
@[simp] theorem updTile_buddy (t : Nat) (f : TileSt → TileSt) : (updTile t f s).buddy = s.buddy := rfl
@[simp] theorem updTile_mgmt (t : Nat) (f : TileSt → TileSt) : (updTile t f s).mgmt = s.mgmt := rfl
@[simp] theorem updTile_lovage (t : Nat) (f : TileSt → TileSt) : (updTile t f s).lovage = s.lovage := rfl
@[simp] theorem updTile_power (t : Nat) (f : TileSt → TileSt) : (updTile t f s).power = s.power := rfl
@[simp] theorem updTile_rings (t : Nat) (f : TileSt → TileSt) : (updTile t f s).rings = s.rings := rfl
@[simp] theorem updTile_fresh (t : Nat) (f : TileSt → TileSt) : (updTile t f s).fresh = s.fresh := rfl
@[simp] theorem updTile_outbox (t : Nat) (f : TileSt → TileSt) : (updTile t f s).outbox = s.outbox := rfl
@[simp] theorem updTile_pending (t : Nat) (f : TileSt → TileSt) : (updTile t f s).pending = s.pending := rfl

@[simp] theorem updPart_ptime (p : Nat) (f : PartSt → PartSt) : (updPart p f s).ptime = s.ptime := rfl
@[simp] theorem updPart_ready (p : Nat) (f : PartSt → PartSt) : (updPart p f s).ready = s.ready := rfl
@[simp] theorem updPart_mram (p : Nat) (f : PartSt → PartSt) : (updPart p f s).mram = s.mram := rfl
@[simp] theorem updPart_objs (p : Nat) (f : PartSt → PartSt) : (updPart p f s).objs = s.objs := rfl
@[simp] theorem updPart_dram (p : Nat) (f : PartSt → PartSt) : (updPart p f s).dram = s.dram := rfl
@[simp] theorem updPart_coh (p : Nat) (f : PartSt → PartSt) : (updPart p f s).coh = s.coh := rfl
@[simp] theorem updPart_hosts (p : Nat) (f : PartSt → PartSt) : (updPart p f s).hosts = s.hosts := rfl
@[simp] theorem updPart_cxl (p : Nat) (f : PartSt → PartSt) : (updPart p f s).cxl = s.cxl := rfl
@[simp] theorem updPart_tiles (p : Nat) (f : PartSt → PartSt) : (updPart p f s).tiles = s.tiles := rfl
@[simp] theorem updPart_sync (p : Nat) (f : PartSt → PartSt) : (updPart p f s).sync = s.sync := rfl
@[simp] theorem updPart_fabric (p : Nat) (f : PartSt → PartSt) : (updPart p f s).fabric = s.fabric := rfl
@[simp] theorem updPart_sched (p : Nat) (f : PartSt → PartSt) : (updPart p f s).sched = s.sched := rfl
@[simp] theorem updPart_lanes (p : Nat) (f : PartSt → PartSt) : (updPart p f s).lanes = s.lanes := rfl
@[simp] theorem updPart_eyeCmd (p : Nat) (f : PartSt → PartSt) : (updPart p f s).eyeCmd = s.eyeCmd := rfl
@[simp] theorem updPart_links (p : Nat) (f : PartSt → PartSt) : (updPart p f s).links = s.links := rfl
@[simp] theorem updPart_sec (p : Nat) (f : PartSt → PartSt) : (updPart p f s).sec = s.sec := rfl
@[simp] theorem updPart_buddy (p : Nat) (f : PartSt → PartSt) : (updPart p f s).buddy = s.buddy := rfl
@[simp] theorem updPart_mgmt (p : Nat) (f : PartSt → PartSt) : (updPart p f s).mgmt = s.mgmt := rfl
@[simp] theorem updPart_lovage (p : Nat) (f : PartSt → PartSt) : (updPart p f s).lovage = s.lovage := rfl
@[simp] theorem updPart_power (p : Nat) (f : PartSt → PartSt) : (updPart p f s).power = s.power := rfl
@[simp] theorem updPart_rings (p : Nat) (f : PartSt → PartSt) : (updPart p f s).rings = s.rings := rfl
@[simp] theorem updPart_fresh (p : Nat) (f : PartSt → PartSt) : (updPart p f s).fresh = s.fresh := rfl
@[simp] theorem updPart_outbox (p : Nat) (f : PartSt → PartSt) : (updPart p f s).outbox = s.outbox := rfl
@[simp] theorem updPart_pending (p : Nat) (f : PartSt → PartSt) : (updPart p f s).pending = s.pending := rfl
@[simp] theorem updPart_work_queues (p : Nat) (f : PartSt → PartSt) : (updPart p f s).work.queues = s.work.queues := rfl
@[simp] theorem updPart_work_jobs (p : Nat) (f : PartSt → PartSt) : (updPart p f s).work.jobs = s.work.jobs := rfl
@[simp] theorem updPart_work_nextJob (p : Nat) (f : PartSt → PartSt) : (updPart p f s).work.nextJob = s.work.nextJob := rfl
@[simp] theorem updPart_work_groups (p : Nat) (f : PartSt → PartSt) : (updPart p f s).work.groups = s.work.groups := rfl
@[simp] theorem updPart_work_fills (p : Nat) (f : PartSt → PartSt) : (updPart p f s).work.fills = s.work.fills := rfl
@[simp] theorem updPart_work_cmdRunning (p : Nat) (f : PartSt → PartSt) : (updPart p f s).work.cmdRunning = s.work.cmdRunning := rfl

@[simp] theorem updQueue_ptime (q : Nat) (f : QueueSt → QueueSt) : (updQueue q f s).ptime = s.ptime := rfl
@[simp] theorem updQueue_ready (q : Nat) (f : QueueSt → QueueSt) : (updQueue q f s).ready = s.ready := rfl
@[simp] theorem updQueue_mram (q : Nat) (f : QueueSt → QueueSt) : (updQueue q f s).mram = s.mram := rfl
@[simp] theorem updQueue_objs (q : Nat) (f : QueueSt → QueueSt) : (updQueue q f s).objs = s.objs := rfl
@[simp] theorem updQueue_dram (q : Nat) (f : QueueSt → QueueSt) : (updQueue q f s).dram = s.dram := rfl
@[simp] theorem updQueue_coh (q : Nat) (f : QueueSt → QueueSt) : (updQueue q f s).coh = s.coh := rfl
@[simp] theorem updQueue_hosts (q : Nat) (f : QueueSt → QueueSt) : (updQueue q f s).hosts = s.hosts := rfl
@[simp] theorem updQueue_cxl (q : Nat) (f : QueueSt → QueueSt) : (updQueue q f s).cxl = s.cxl := rfl
@[simp] theorem updQueue_tiles (q : Nat) (f : QueueSt → QueueSt) : (updQueue q f s).tiles = s.tiles := rfl
@[simp] theorem updQueue_sync (q : Nat) (f : QueueSt → QueueSt) : (updQueue q f s).sync = s.sync := rfl
@[simp] theorem updQueue_fabric (q : Nat) (f : QueueSt → QueueSt) : (updQueue q f s).fabric = s.fabric := rfl
@[simp] theorem updQueue_sched (q : Nat) (f : QueueSt → QueueSt) : (updQueue q f s).sched = s.sched := rfl
@[simp] theorem updQueue_lanes (q : Nat) (f : QueueSt → QueueSt) : (updQueue q f s).lanes = s.lanes := rfl
@[simp] theorem updQueue_eyeCmd (q : Nat) (f : QueueSt → QueueSt) : (updQueue q f s).eyeCmd = s.eyeCmd := rfl
@[simp] theorem updQueue_links (q : Nat) (f : QueueSt → QueueSt) : (updQueue q f s).links = s.links := rfl
@[simp] theorem updQueue_sec (q : Nat) (f : QueueSt → QueueSt) : (updQueue q f s).sec = s.sec := rfl
@[simp] theorem updQueue_buddy (q : Nat) (f : QueueSt → QueueSt) : (updQueue q f s).buddy = s.buddy := rfl
@[simp] theorem updQueue_mgmt (q : Nat) (f : QueueSt → QueueSt) : (updQueue q f s).mgmt = s.mgmt := rfl
@[simp] theorem updQueue_lovage (q : Nat) (f : QueueSt → QueueSt) : (updQueue q f s).lovage = s.lovage := rfl
@[simp] theorem updQueue_power (q : Nat) (f : QueueSt → QueueSt) : (updQueue q f s).power = s.power := rfl
@[simp] theorem updQueue_rings (q : Nat) (f : QueueSt → QueueSt) : (updQueue q f s).rings = s.rings := rfl
@[simp] theorem updQueue_fresh (q : Nat) (f : QueueSt → QueueSt) : (updQueue q f s).fresh = s.fresh := rfl
@[simp] theorem updQueue_outbox (q : Nat) (f : QueueSt → QueueSt) : (updQueue q f s).outbox = s.outbox := rfl
@[simp] theorem updQueue_pending (q : Nat) (f : QueueSt → QueueSt) : (updQueue q f s).pending = s.pending := rfl
@[simp] theorem updQueue_work_parts (q : Nat) (f : QueueSt → QueueSt) : (updQueue q f s).work.parts = s.work.parts := rfl
@[simp] theorem updQueue_work_jobs (q : Nat) (f : QueueSt → QueueSt) : (updQueue q f s).work.jobs = s.work.jobs := rfl
@[simp] theorem updQueue_work_nextJob (q : Nat) (f : QueueSt → QueueSt) : (updQueue q f s).work.nextJob = s.work.nextJob := rfl
@[simp] theorem updQueue_work_groups (q : Nat) (f : QueueSt → QueueSt) : (updQueue q f s).work.groups = s.work.groups := rfl
@[simp] theorem updQueue_work_fills (q : Nat) (f : QueueSt → QueueSt) : (updQueue q f s).work.fills = s.work.fills := rfl
@[simp] theorem updQueue_work_cmdRunning (q : Nat) (f : QueueSt → QueueSt) : (updQueue q f s).work.cmdRunning = s.work.cmdRunning := rfl

@[simp] theorem updJob_ptime (j : Nat) (f : JobSt → JobSt) : (updJob j f s).ptime = s.ptime := rfl
@[simp] theorem updJob_ready (j : Nat) (f : JobSt → JobSt) : (updJob j f s).ready = s.ready := rfl
@[simp] theorem updJob_mram (j : Nat) (f : JobSt → JobSt) : (updJob j f s).mram = s.mram := rfl
@[simp] theorem updJob_objs (j : Nat) (f : JobSt → JobSt) : (updJob j f s).objs = s.objs := rfl
@[simp] theorem updJob_dram (j : Nat) (f : JobSt → JobSt) : (updJob j f s).dram = s.dram := rfl
@[simp] theorem updJob_coh (j : Nat) (f : JobSt → JobSt) : (updJob j f s).coh = s.coh := rfl
@[simp] theorem updJob_hosts (j : Nat) (f : JobSt → JobSt) : (updJob j f s).hosts = s.hosts := rfl
@[simp] theorem updJob_cxl (j : Nat) (f : JobSt → JobSt) : (updJob j f s).cxl = s.cxl := rfl
@[simp] theorem updJob_tiles (j : Nat) (f : JobSt → JobSt) : (updJob j f s).tiles = s.tiles := rfl
@[simp] theorem updJob_sync (j : Nat) (f : JobSt → JobSt) : (updJob j f s).sync = s.sync := rfl
@[simp] theorem updJob_fabric (j : Nat) (f : JobSt → JobSt) : (updJob j f s).fabric = s.fabric := rfl
@[simp] theorem updJob_sched (j : Nat) (f : JobSt → JobSt) : (updJob j f s).sched = s.sched := rfl
@[simp] theorem updJob_lanes (j : Nat) (f : JobSt → JobSt) : (updJob j f s).lanes = s.lanes := rfl
@[simp] theorem updJob_eyeCmd (j : Nat) (f : JobSt → JobSt) : (updJob j f s).eyeCmd = s.eyeCmd := rfl
@[simp] theorem updJob_links (j : Nat) (f : JobSt → JobSt) : (updJob j f s).links = s.links := rfl
@[simp] theorem updJob_sec (j : Nat) (f : JobSt → JobSt) : (updJob j f s).sec = s.sec := rfl
@[simp] theorem updJob_buddy (j : Nat) (f : JobSt → JobSt) : (updJob j f s).buddy = s.buddy := rfl
@[simp] theorem updJob_mgmt (j : Nat) (f : JobSt → JobSt) : (updJob j f s).mgmt = s.mgmt := rfl
@[simp] theorem updJob_lovage (j : Nat) (f : JobSt → JobSt) : (updJob j f s).lovage = s.lovage := rfl
@[simp] theorem updJob_power (j : Nat) (f : JobSt → JobSt) : (updJob j f s).power = s.power := rfl
@[simp] theorem updJob_rings (j : Nat) (f : JobSt → JobSt) : (updJob j f s).rings = s.rings := rfl
@[simp] theorem updJob_fresh (j : Nat) (f : JobSt → JobSt) : (updJob j f s).fresh = s.fresh := rfl
@[simp] theorem updJob_outbox (j : Nat) (f : JobSt → JobSt) : (updJob j f s).outbox = s.outbox := rfl
@[simp] theorem updJob_pending (j : Nat) (f : JobSt → JobSt) : (updJob j f s).pending = s.pending := rfl
@[simp] theorem updJob_work_parts (j : Nat) (f : JobSt → JobSt) : (updJob j f s).work.parts = s.work.parts := rfl
@[simp] theorem updJob_work_queues (j : Nat) (f : JobSt → JobSt) : (updJob j f s).work.queues = s.work.queues := rfl
@[simp] theorem updJob_work_nextJob (j : Nat) (f : JobSt → JobSt) : (updJob j f s).work.nextJob = s.work.nextJob := rfl
@[simp] theorem updJob_work_groups (j : Nat) (f : JobSt → JobSt) : (updJob j f s).work.groups = s.work.groups := rfl
@[simp] theorem updJob_work_fills (j : Nat) (f : JobSt → JobSt) : (updJob j f s).work.fills = s.work.fills := rfl
@[simp] theorem updJob_work_cmdRunning (j : Nat) (f : JobSt → JobSt) : (updJob j f s).work.cmdRunning = s.work.cmdRunning := rfl

@[simp] theorem updCtx_ptime (p k : Nat) (f : CtxSt → CtxSt) : (updCtx p k f s).ptime = s.ptime := rfl
@[simp] theorem updCtx_ready (p k : Nat) (f : CtxSt → CtxSt) : (updCtx p k f s).ready = s.ready := rfl
@[simp] theorem updCtx_mram (p k : Nat) (f : CtxSt → CtxSt) : (updCtx p k f s).mram = s.mram := rfl
@[simp] theorem updCtx_objs (p k : Nat) (f : CtxSt → CtxSt) : (updCtx p k f s).objs = s.objs := rfl
@[simp] theorem updCtx_dram (p k : Nat) (f : CtxSt → CtxSt) : (updCtx p k f s).dram = s.dram := rfl
@[simp] theorem updCtx_coh (p k : Nat) (f : CtxSt → CtxSt) : (updCtx p k f s).coh = s.coh := rfl
@[simp] theorem updCtx_hosts (p k : Nat) (f : CtxSt → CtxSt) : (updCtx p k f s).hosts = s.hosts := rfl
@[simp] theorem updCtx_cxl (p k : Nat) (f : CtxSt → CtxSt) : (updCtx p k f s).cxl = s.cxl := rfl
@[simp] theorem updCtx_tiles (p k : Nat) (f : CtxSt → CtxSt) : (updCtx p k f s).tiles = s.tiles := rfl
@[simp] theorem updCtx_sync (p k : Nat) (f : CtxSt → CtxSt) : (updCtx p k f s).sync = s.sync := rfl
@[simp] theorem updCtx_fabric (p k : Nat) (f : CtxSt → CtxSt) : (updCtx p k f s).fabric = s.fabric := rfl
@[simp] theorem updCtx_sched (p k : Nat) (f : CtxSt → CtxSt) : (updCtx p k f s).sched = s.sched := rfl
@[simp] theorem updCtx_lanes (p k : Nat) (f : CtxSt → CtxSt) : (updCtx p k f s).lanes = s.lanes := rfl
@[simp] theorem updCtx_eyeCmd (p k : Nat) (f : CtxSt → CtxSt) : (updCtx p k f s).eyeCmd = s.eyeCmd := rfl
@[simp] theorem updCtx_links (p k : Nat) (f : CtxSt → CtxSt) : (updCtx p k f s).links = s.links := rfl
@[simp] theorem updCtx_sec (p k : Nat) (f : CtxSt → CtxSt) : (updCtx p k f s).sec = s.sec := rfl
@[simp] theorem updCtx_buddy (p k : Nat) (f : CtxSt → CtxSt) : (updCtx p k f s).buddy = s.buddy := rfl
@[simp] theorem updCtx_mgmt (p k : Nat) (f : CtxSt → CtxSt) : (updCtx p k f s).mgmt = s.mgmt := rfl
@[simp] theorem updCtx_lovage (p k : Nat) (f : CtxSt → CtxSt) : (updCtx p k f s).lovage = s.lovage := rfl
@[simp] theorem updCtx_power (p k : Nat) (f : CtxSt → CtxSt) : (updCtx p k f s).power = s.power := rfl
@[simp] theorem updCtx_rings (p k : Nat) (f : CtxSt → CtxSt) : (updCtx p k f s).rings = s.rings := rfl
@[simp] theorem updCtx_fresh (p k : Nat) (f : CtxSt → CtxSt) : (updCtx p k f s).fresh = s.fresh := rfl
@[simp] theorem updCtx_outbox (p k : Nat) (f : CtxSt → CtxSt) : (updCtx p k f s).outbox = s.outbox := rfl
@[simp] theorem updCtx_pending (p k : Nat) (f : CtxSt → CtxSt) : (updCtx p k f s).pending = s.pending := rfl
@[simp] theorem updCtx_work_queues (p k : Nat) (f : CtxSt → CtxSt) : (updCtx p k f s).work.queues = s.work.queues := rfl
@[simp] theorem updCtx_work_jobs (p k : Nat) (f : CtxSt → CtxSt) : (updCtx p k f s).work.jobs = s.work.jobs := rfl
@[simp] theorem updCtx_work_nextJob (p k : Nat) (f : CtxSt → CtxSt) : (updCtx p k f s).work.nextJob = s.work.nextJob := rfl
@[simp] theorem updCtx_work_groups (p k : Nat) (f : CtxSt → CtxSt) : (updCtx p k f s).work.groups = s.work.groups := rfl
@[simp] theorem updCtx_work_fills (p k : Nat) (f : CtxSt → CtxSt) : (updCtx p k f s).work.fills = s.work.fills := rfl
@[simp] theorem updCtx_work_cmdRunning (p k : Nat) (f : CtxSt → CtxSt) : (updCtx p k f s).work.cmdRunning = s.work.cmdRunning := rfl

@[simp] theorem updGroup_ptime (k : Nat) (f : ExpGroup → ExpGroup) : (updGroup k f s).ptime = s.ptime := rfl
@[simp] theorem updGroup_ready (k : Nat) (f : ExpGroup → ExpGroup) : (updGroup k f s).ready = s.ready := rfl
@[simp] theorem updGroup_mram (k : Nat) (f : ExpGroup → ExpGroup) : (updGroup k f s).mram = s.mram := rfl
@[simp] theorem updGroup_objs (k : Nat) (f : ExpGroup → ExpGroup) : (updGroup k f s).objs = s.objs := rfl
@[simp] theorem updGroup_dram (k : Nat) (f : ExpGroup → ExpGroup) : (updGroup k f s).dram = s.dram := rfl
@[simp] theorem updGroup_coh (k : Nat) (f : ExpGroup → ExpGroup) : (updGroup k f s).coh = s.coh := rfl
@[simp] theorem updGroup_hosts (k : Nat) (f : ExpGroup → ExpGroup) : (updGroup k f s).hosts = s.hosts := rfl
@[simp] theorem updGroup_cxl (k : Nat) (f : ExpGroup → ExpGroup) : (updGroup k f s).cxl = s.cxl := rfl
@[simp] theorem updGroup_tiles (k : Nat) (f : ExpGroup → ExpGroup) : (updGroup k f s).tiles = s.tiles := rfl
@[simp] theorem updGroup_sync (k : Nat) (f : ExpGroup → ExpGroup) : (updGroup k f s).sync = s.sync := rfl
@[simp] theorem updGroup_fabric (k : Nat) (f : ExpGroup → ExpGroup) : (updGroup k f s).fabric = s.fabric := rfl
@[simp] theorem updGroup_sched (k : Nat) (f : ExpGroup → ExpGroup) : (updGroup k f s).sched = s.sched := rfl
@[simp] theorem updGroup_lanes (k : Nat) (f : ExpGroup → ExpGroup) : (updGroup k f s).lanes = s.lanes := rfl
@[simp] theorem updGroup_eyeCmd (k : Nat) (f : ExpGroup → ExpGroup) : (updGroup k f s).eyeCmd = s.eyeCmd := rfl
@[simp] theorem updGroup_links (k : Nat) (f : ExpGroup → ExpGroup) : (updGroup k f s).links = s.links := rfl
@[simp] theorem updGroup_sec (k : Nat) (f : ExpGroup → ExpGroup) : (updGroup k f s).sec = s.sec := rfl
@[simp] theorem updGroup_buddy (k : Nat) (f : ExpGroup → ExpGroup) : (updGroup k f s).buddy = s.buddy := rfl
@[simp] theorem updGroup_mgmt (k : Nat) (f : ExpGroup → ExpGroup) : (updGroup k f s).mgmt = s.mgmt := rfl
@[simp] theorem updGroup_lovage (k : Nat) (f : ExpGroup → ExpGroup) : (updGroup k f s).lovage = s.lovage := rfl
@[simp] theorem updGroup_power (k : Nat) (f : ExpGroup → ExpGroup) : (updGroup k f s).power = s.power := rfl
@[simp] theorem updGroup_rings (k : Nat) (f : ExpGroup → ExpGroup) : (updGroup k f s).rings = s.rings := rfl
@[simp] theorem updGroup_fresh (k : Nat) (f : ExpGroup → ExpGroup) : (updGroup k f s).fresh = s.fresh := rfl
@[simp] theorem updGroup_outbox (k : Nat) (f : ExpGroup → ExpGroup) : (updGroup k f s).outbox = s.outbox := rfl
@[simp] theorem updGroup_pending (k : Nat) (f : ExpGroup → ExpGroup) : (updGroup k f s).pending = s.pending := rfl
@[simp] theorem updGroup_work_parts (k : Nat) (f : ExpGroup → ExpGroup) : (updGroup k f s).work.parts = s.work.parts := rfl
@[simp] theorem updGroup_work_queues (k : Nat) (f : ExpGroup → ExpGroup) : (updGroup k f s).work.queues = s.work.queues := rfl
@[simp] theorem updGroup_work_jobs (k : Nat) (f : ExpGroup → ExpGroup) : (updGroup k f s).work.jobs = s.work.jobs := rfl
@[simp] theorem updGroup_work_nextJob (k : Nat) (f : ExpGroup → ExpGroup) : (updGroup k f s).work.nextJob = s.work.nextJob := rfl
@[simp] theorem updGroup_work_fills (k : Nat) (f : ExpGroup → ExpGroup) : (updGroup k f s).work.fills = s.work.fills := rfl
@[simp] theorem updGroup_work_cmdRunning (k : Nat) (f : ExpGroup → ExpGroup) : (updGroup k f s).work.cmdRunning = s.work.cmdRunning := rfl

@[simp] theorem updLink_ptime (p : Nat) (f : LinkSt → LinkSt) : (updLink p f s).ptime = s.ptime := rfl
@[simp] theorem updLink_ready (p : Nat) (f : LinkSt → LinkSt) : (updLink p f s).ready = s.ready := rfl
@[simp] theorem updLink_mram (p : Nat) (f : LinkSt → LinkSt) : (updLink p f s).mram = s.mram := rfl
@[simp] theorem updLink_objs (p : Nat) (f : LinkSt → LinkSt) : (updLink p f s).objs = s.objs := rfl
@[simp] theorem updLink_dram (p : Nat) (f : LinkSt → LinkSt) : (updLink p f s).dram = s.dram := rfl
@[simp] theorem updLink_coh (p : Nat) (f : LinkSt → LinkSt) : (updLink p f s).coh = s.coh := rfl
@[simp] theorem updLink_hosts (p : Nat) (f : LinkSt → LinkSt) : (updLink p f s).hosts = s.hosts := rfl
@[simp] theorem updLink_cxl (p : Nat) (f : LinkSt → LinkSt) : (updLink p f s).cxl = s.cxl := rfl
@[simp] theorem updLink_work (p : Nat) (f : LinkSt → LinkSt) : (updLink p f s).work = s.work := rfl
@[simp] theorem updLink_tiles (p : Nat) (f : LinkSt → LinkSt) : (updLink p f s).tiles = s.tiles := rfl
@[simp] theorem updLink_sync (p : Nat) (f : LinkSt → LinkSt) : (updLink p f s).sync = s.sync := rfl
@[simp] theorem updLink_fabric (p : Nat) (f : LinkSt → LinkSt) : (updLink p f s).fabric = s.fabric := rfl
@[simp] theorem updLink_sched (p : Nat) (f : LinkSt → LinkSt) : (updLink p f s).sched = s.sched := rfl
@[simp] theorem updLink_lanes (p : Nat) (f : LinkSt → LinkSt) : (updLink p f s).lanes = s.lanes := rfl
@[simp] theorem updLink_eyeCmd (p : Nat) (f : LinkSt → LinkSt) : (updLink p f s).eyeCmd = s.eyeCmd := rfl
@[simp] theorem updLink_sec (p : Nat) (f : LinkSt → LinkSt) : (updLink p f s).sec = s.sec := rfl
@[simp] theorem updLink_buddy (p : Nat) (f : LinkSt → LinkSt) : (updLink p f s).buddy = s.buddy := rfl
@[simp] theorem updLink_mgmt (p : Nat) (f : LinkSt → LinkSt) : (updLink p f s).mgmt = s.mgmt := rfl
@[simp] theorem updLink_lovage (p : Nat) (f : LinkSt → LinkSt) : (updLink p f s).lovage = s.lovage := rfl
@[simp] theorem updLink_power (p : Nat) (f : LinkSt → LinkSt) : (updLink p f s).power = s.power := rfl
@[simp] theorem updLink_rings (p : Nat) (f : LinkSt → LinkSt) : (updLink p f s).rings = s.rings := rfl
@[simp] theorem updLink_fresh (p : Nat) (f : LinkSt → LinkSt) : (updLink p f s).fresh = s.fresh := rfl
@[simp] theorem updLink_outbox (p : Nat) (f : LinkSt → LinkSt) : (updLink p f s).outbox = s.outbox := rfl
@[simp] theorem updLink_pending (p : Nat) (f : LinkSt → LinkSt) : (updLink p f s).pending = s.pending := rfl

@[simp] theorem updLane_ptime (p : Nat) (f : LaneSt → LaneSt) : (updLane p f s).ptime = s.ptime := rfl
@[simp] theorem updLane_ready (p : Nat) (f : LaneSt → LaneSt) : (updLane p f s).ready = s.ready := rfl
@[simp] theorem updLane_mram (p : Nat) (f : LaneSt → LaneSt) : (updLane p f s).mram = s.mram := rfl
@[simp] theorem updLane_objs (p : Nat) (f : LaneSt → LaneSt) : (updLane p f s).objs = s.objs := rfl
@[simp] theorem updLane_dram (p : Nat) (f : LaneSt → LaneSt) : (updLane p f s).dram = s.dram := rfl
@[simp] theorem updLane_coh (p : Nat) (f : LaneSt → LaneSt) : (updLane p f s).coh = s.coh := rfl
@[simp] theorem updLane_hosts (p : Nat) (f : LaneSt → LaneSt) : (updLane p f s).hosts = s.hosts := rfl
@[simp] theorem updLane_cxl (p : Nat) (f : LaneSt → LaneSt) : (updLane p f s).cxl = s.cxl := rfl
@[simp] theorem updLane_work (p : Nat) (f : LaneSt → LaneSt) : (updLane p f s).work = s.work := rfl
@[simp] theorem updLane_tiles (p : Nat) (f : LaneSt → LaneSt) : (updLane p f s).tiles = s.tiles := rfl
@[simp] theorem updLane_sync (p : Nat) (f : LaneSt → LaneSt) : (updLane p f s).sync = s.sync := rfl
@[simp] theorem updLane_fabric (p : Nat) (f : LaneSt → LaneSt) : (updLane p f s).fabric = s.fabric := rfl
@[simp] theorem updLane_sched (p : Nat) (f : LaneSt → LaneSt) : (updLane p f s).sched = s.sched := rfl
@[simp] theorem updLane_eyeCmd (p : Nat) (f : LaneSt → LaneSt) : (updLane p f s).eyeCmd = s.eyeCmd := rfl
@[simp] theorem updLane_links (p : Nat) (f : LaneSt → LaneSt) : (updLane p f s).links = s.links := rfl
@[simp] theorem updLane_sec (p : Nat) (f : LaneSt → LaneSt) : (updLane p f s).sec = s.sec := rfl
@[simp] theorem updLane_buddy (p : Nat) (f : LaneSt → LaneSt) : (updLane p f s).buddy = s.buddy := rfl
@[simp] theorem updLane_mgmt (p : Nat) (f : LaneSt → LaneSt) : (updLane p f s).mgmt = s.mgmt := rfl
@[simp] theorem updLane_lovage (p : Nat) (f : LaneSt → LaneSt) : (updLane p f s).lovage = s.lovage := rfl
@[simp] theorem updLane_power (p : Nat) (f : LaneSt → LaneSt) : (updLane p f s).power = s.power := rfl
@[simp] theorem updLane_rings (p : Nat) (f : LaneSt → LaneSt) : (updLane p f s).rings = s.rings := rfl
@[simp] theorem updLane_fresh (p : Nat) (f : LaneSt → LaneSt) : (updLane p f s).fresh = s.fresh := rfl
@[simp] theorem updLane_outbox (p : Nat) (f : LaneSt → LaneSt) : (updLane p f s).outbox = s.outbox := rfl
@[simp] theorem updLane_pending (p : Nat) (f : LaneSt → LaneSt) : (updLane p f s).pending = s.pending := rfl

@[simp] theorem updSched_ptime (p : Nat) (f : SchedPort → SchedPort) : (updSched p f s).ptime = s.ptime := rfl
@[simp] theorem updSched_ready (p : Nat) (f : SchedPort → SchedPort) : (updSched p f s).ready = s.ready := rfl
@[simp] theorem updSched_mram (p : Nat) (f : SchedPort → SchedPort) : (updSched p f s).mram = s.mram := rfl
@[simp] theorem updSched_objs (p : Nat) (f : SchedPort → SchedPort) : (updSched p f s).objs = s.objs := rfl
@[simp] theorem updSched_dram (p : Nat) (f : SchedPort → SchedPort) : (updSched p f s).dram = s.dram := rfl
@[simp] theorem updSched_coh (p : Nat) (f : SchedPort → SchedPort) : (updSched p f s).coh = s.coh := rfl
@[simp] theorem updSched_hosts (p : Nat) (f : SchedPort → SchedPort) : (updSched p f s).hosts = s.hosts := rfl
@[simp] theorem updSched_cxl (p : Nat) (f : SchedPort → SchedPort) : (updSched p f s).cxl = s.cxl := rfl
@[simp] theorem updSched_work (p : Nat) (f : SchedPort → SchedPort) : (updSched p f s).work = s.work := rfl
@[simp] theorem updSched_tiles (p : Nat) (f : SchedPort → SchedPort) : (updSched p f s).tiles = s.tiles := rfl
@[simp] theorem updSched_sync (p : Nat) (f : SchedPort → SchedPort) : (updSched p f s).sync = s.sync := rfl
@[simp] theorem updSched_fabric (p : Nat) (f : SchedPort → SchedPort) : (updSched p f s).fabric = s.fabric := rfl
@[simp] theorem updSched_lanes (p : Nat) (f : SchedPort → SchedPort) : (updSched p f s).lanes = s.lanes := rfl
@[simp] theorem updSched_eyeCmd (p : Nat) (f : SchedPort → SchedPort) : (updSched p f s).eyeCmd = s.eyeCmd := rfl
@[simp] theorem updSched_links (p : Nat) (f : SchedPort → SchedPort) : (updSched p f s).links = s.links := rfl
@[simp] theorem updSched_sec (p : Nat) (f : SchedPort → SchedPort) : (updSched p f s).sec = s.sec := rfl
@[simp] theorem updSched_buddy (p : Nat) (f : SchedPort → SchedPort) : (updSched p f s).buddy = s.buddy := rfl
@[simp] theorem updSched_mgmt (p : Nat) (f : SchedPort → SchedPort) : (updSched p f s).mgmt = s.mgmt := rfl
@[simp] theorem updSched_lovage (p : Nat) (f : SchedPort → SchedPort) : (updSched p f s).lovage = s.lovage := rfl
@[simp] theorem updSched_power (p : Nat) (f : SchedPort → SchedPort) : (updSched p f s).power = s.power := rfl
@[simp] theorem updSched_rings (p : Nat) (f : SchedPort → SchedPort) : (updSched p f s).rings = s.rings := rfl
@[simp] theorem updSched_fresh (p : Nat) (f : SchedPort → SchedPort) : (updSched p f s).fresh = s.fresh := rfl
@[simp] theorem updSched_outbox (p : Nat) (f : SchedPort → SchedPort) : (updSched p f s).outbox = s.outbox := rfl
@[simp] theorem updSched_pending (p : Nat) (f : SchedPort → SchedPort) : (updSched p f s).pending = s.pending := rfl

@[simp] theorem updRegion_ptime (r : Nat) (f : Region → Region) : (updRegion r f s).ptime = s.ptime := rfl
@[simp] theorem updRegion_ready (r : Nat) (f : Region → Region) : (updRegion r f s).ready = s.ready := rfl
@[simp] theorem updRegion_mram (r : Nat) (f : Region → Region) : (updRegion r f s).mram = s.mram := rfl
@[simp] theorem updRegion_objs (r : Nat) (f : Region → Region) : (updRegion r f s).objs = s.objs := rfl
@[simp] theorem updRegion_dram (r : Nat) (f : Region → Region) : (updRegion r f s).dram = s.dram := rfl
@[simp] theorem updRegion_coh (r : Nat) (f : Region → Region) : (updRegion r f s).coh = s.coh := rfl
@[simp] theorem updRegion_cxl (r : Nat) (f : Region → Region) : (updRegion r f s).cxl = s.cxl := rfl
@[simp] theorem updRegion_work (r : Nat) (f : Region → Region) : (updRegion r f s).work = s.work := rfl
@[simp] theorem updRegion_tiles (r : Nat) (f : Region → Region) : (updRegion r f s).tiles = s.tiles := rfl
@[simp] theorem updRegion_sync (r : Nat) (f : Region → Region) : (updRegion r f s).sync = s.sync := rfl
@[simp] theorem updRegion_fabric (r : Nat) (f : Region → Region) : (updRegion r f s).fabric = s.fabric := rfl
@[simp] theorem updRegion_sched (r : Nat) (f : Region → Region) : (updRegion r f s).sched = s.sched := rfl
@[simp] theorem updRegion_lanes (r : Nat) (f : Region → Region) : (updRegion r f s).lanes = s.lanes := rfl
@[simp] theorem updRegion_eyeCmd (r : Nat) (f : Region → Region) : (updRegion r f s).eyeCmd = s.eyeCmd := rfl
@[simp] theorem updRegion_links (r : Nat) (f : Region → Region) : (updRegion r f s).links = s.links := rfl
@[simp] theorem updRegion_sec (r : Nat) (f : Region → Region) : (updRegion r f s).sec = s.sec := rfl
@[simp] theorem updRegion_buddy (r : Nat) (f : Region → Region) : (updRegion r f s).buddy = s.buddy := rfl
@[simp] theorem updRegion_mgmt (r : Nat) (f : Region → Region) : (updRegion r f s).mgmt = s.mgmt := rfl
@[simp] theorem updRegion_lovage (r : Nat) (f : Region → Region) : (updRegion r f s).lovage = s.lovage := rfl
@[simp] theorem updRegion_power (r : Nat) (f : Region → Region) : (updRegion r f s).power = s.power := rfl
@[simp] theorem updRegion_rings (r : Nat) (f : Region → Region) : (updRegion r f s).rings = s.rings := rfl
@[simp] theorem updRegion_fresh (r : Nat) (f : Region → Region) : (updRegion r f s).fresh = s.fresh := rfl
@[simp] theorem updRegion_outbox (r : Nat) (f : Region → Region) : (updRegion r f s).outbox = s.outbox := rfl
@[simp] theorem updRegion_pending (r : Nat) (f : Region → Region) : (updRegion r f s).pending = s.pending := rfl
@[simp] theorem updRegion_hosts_ldMap (r : Nat) (f : Region → Region) : (updRegion r f s).hosts.ldMap = s.hosts.ldMap := rfl
@[simp] theorem updRegion_hosts_hdm (r : Nat) (f : Region → Region) : (updRegion r f s).hosts.hdm = s.hosts.hdm := rfl
@[simp] theorem updRegion_hosts_pub (r : Nat) (f : Region → Region) : (updRegion r f s).hosts.pub = s.hosts.pub := rfl
@[simp] theorem updRegion_hosts_extents (r : Nat) (f : Region → Region) : (updRegion r f s).hosts.extents = s.hosts.extents := rfl
@[simp] theorem updRegion_hosts_dirCache (r : Nat) (f : Region → Region) : (updRegion r f s).hosts.dirCache = s.hosts.dirCache := rfl
@[simp] theorem updRegion_hosts_dirOver (r : Nat) (f : Region → Region) : (updRegion r f s).hosts.dirOver = s.hosts.dirOver := rfl
@[simp] theorem updRegion_hosts_snoops (r : Nat) (f : Region → Region) : (updRegion r f s).hosts.snoops = s.hosts.snoops := rfl
@[simp] theorem updRegion_hosts_answered (r : Nat) (f : Region → Region) : (updRegion r f s).hosts.answered = s.hosts.answered := rfl
@[simp] theorem updRegion_hosts_waiting (r : Nat) (f : Region → Region) : (updRegion r f s).hosts.waiting = s.hosts.waiting := rfl
@[simp] theorem updRegion_hosts_nextReq (r : Nat) (f : Region → Region) : (updRegion r f s).hosts.nextReq = s.hosts.nextReq := rfl
@[simp] theorem updRegion_hosts_recalls (r : Nat) (f : Region → Region) : (updRegion r f s).hosts.recalls = s.hosts.recalls := rfl
@[simp] theorem updRegion_hosts_nextRecall (r : Nat) (f : Region → Region) : (updRegion r f s).hosts.nextRecall = s.hosts.nextRecall := rfl
@[simp] theorem updRegion_hosts_cmdRunning (r : Nat) (f : Region → Region) : (updRegion r f s).hosts.cmdRunning = s.hosts.cmdRunning := rfl
@[simp] theorem updRegion_hosts_sweeps (r : Nat) (f : Region → Region) : (updRegion r f s).hosts.sweeps = s.hosts.sweeps := rfl

@[simp] theorem updPub_ptime (ld : Nat) (f : PubPage → PubPage) : (updPub ld f s).ptime = s.ptime := rfl
@[simp] theorem updPub_ready (ld : Nat) (f : PubPage → PubPage) : (updPub ld f s).ready = s.ready := rfl
@[simp] theorem updPub_mram (ld : Nat) (f : PubPage → PubPage) : (updPub ld f s).mram = s.mram := rfl
@[simp] theorem updPub_objs (ld : Nat) (f : PubPage → PubPage) : (updPub ld f s).objs = s.objs := rfl
@[simp] theorem updPub_dram (ld : Nat) (f : PubPage → PubPage) : (updPub ld f s).dram = s.dram := rfl
@[simp] theorem updPub_coh (ld : Nat) (f : PubPage → PubPage) : (updPub ld f s).coh = s.coh := rfl
@[simp] theorem updPub_cxl (ld : Nat) (f : PubPage → PubPage) : (updPub ld f s).cxl = s.cxl := rfl
@[simp] theorem updPub_work (ld : Nat) (f : PubPage → PubPage) : (updPub ld f s).work = s.work := rfl
@[simp] theorem updPub_tiles (ld : Nat) (f : PubPage → PubPage) : (updPub ld f s).tiles = s.tiles := rfl
@[simp] theorem updPub_sync (ld : Nat) (f : PubPage → PubPage) : (updPub ld f s).sync = s.sync := rfl
@[simp] theorem updPub_fabric (ld : Nat) (f : PubPage → PubPage) : (updPub ld f s).fabric = s.fabric := rfl
@[simp] theorem updPub_sched (ld : Nat) (f : PubPage → PubPage) : (updPub ld f s).sched = s.sched := rfl
@[simp] theorem updPub_lanes (ld : Nat) (f : PubPage → PubPage) : (updPub ld f s).lanes = s.lanes := rfl
@[simp] theorem updPub_eyeCmd (ld : Nat) (f : PubPage → PubPage) : (updPub ld f s).eyeCmd = s.eyeCmd := rfl
@[simp] theorem updPub_links (ld : Nat) (f : PubPage → PubPage) : (updPub ld f s).links = s.links := rfl
@[simp] theorem updPub_sec (ld : Nat) (f : PubPage → PubPage) : (updPub ld f s).sec = s.sec := rfl
@[simp] theorem updPub_buddy (ld : Nat) (f : PubPage → PubPage) : (updPub ld f s).buddy = s.buddy := rfl
@[simp] theorem updPub_mgmt (ld : Nat) (f : PubPage → PubPage) : (updPub ld f s).mgmt = s.mgmt := rfl
@[simp] theorem updPub_lovage (ld : Nat) (f : PubPage → PubPage) : (updPub ld f s).lovage = s.lovage := rfl
@[simp] theorem updPub_power (ld : Nat) (f : PubPage → PubPage) : (updPub ld f s).power = s.power := rfl
@[simp] theorem updPub_rings (ld : Nat) (f : PubPage → PubPage) : (updPub ld f s).rings = s.rings := rfl
@[simp] theorem updPub_fresh (ld : Nat) (f : PubPage → PubPage) : (updPub ld f s).fresh = s.fresh := rfl
@[simp] theorem updPub_outbox (ld : Nat) (f : PubPage → PubPage) : (updPub ld f s).outbox = s.outbox := rfl
@[simp] theorem updPub_pending (ld : Nat) (f : PubPage → PubPage) : (updPub ld f s).pending = s.pending := rfl
@[simp] theorem updPub_hosts_ldMap (ld : Nat) (f : PubPage → PubPage) : (updPub ld f s).hosts.ldMap = s.hosts.ldMap := rfl
@[simp] theorem updPub_hosts_hdm (ld : Nat) (f : PubPage → PubPage) : (updPub ld f s).hosts.hdm = s.hosts.hdm := rfl
@[simp] theorem updPub_hosts_regions (ld : Nat) (f : PubPage → PubPage) : (updPub ld f s).hosts.regions = s.hosts.regions := rfl
@[simp] theorem updPub_hosts_extents (ld : Nat) (f : PubPage → PubPage) : (updPub ld f s).hosts.extents = s.hosts.extents := rfl
@[simp] theorem updPub_hosts_dirCache (ld : Nat) (f : PubPage → PubPage) : (updPub ld f s).hosts.dirCache = s.hosts.dirCache := rfl
@[simp] theorem updPub_hosts_dirOver (ld : Nat) (f : PubPage → PubPage) : (updPub ld f s).hosts.dirOver = s.hosts.dirOver := rfl
@[simp] theorem updPub_hosts_snoops (ld : Nat) (f : PubPage → PubPage) : (updPub ld f s).hosts.snoops = s.hosts.snoops := rfl
@[simp] theorem updPub_hosts_answered (ld : Nat) (f : PubPage → PubPage) : (updPub ld f s).hosts.answered = s.hosts.answered := rfl
@[simp] theorem updPub_hosts_waiting (ld : Nat) (f : PubPage → PubPage) : (updPub ld f s).hosts.waiting = s.hosts.waiting := rfl
@[simp] theorem updPub_hosts_nextReq (ld : Nat) (f : PubPage → PubPage) : (updPub ld f s).hosts.nextReq = s.hosts.nextReq := rfl
@[simp] theorem updPub_hosts_recalls (ld : Nat) (f : PubPage → PubPage) : (updPub ld f s).hosts.recalls = s.hosts.recalls := rfl
@[simp] theorem updPub_hosts_nextRecall (ld : Nat) (f : PubPage → PubPage) : (updPub ld f s).hosts.nextRecall = s.hosts.nextRecall := rfl
@[simp] theorem updPub_hosts_cmdRunning (ld : Nat) (f : PubPage → PubPage) : (updPub ld f s).hosts.cmdRunning = s.hosts.cmdRunning := rfl
@[simp] theorem updPub_hosts_sweeps (ld : Nat) (f : PubPage → PubPage) : (updPub ld f s).hosts.sweeps = s.hosts.sweeps := rfl

@[simp] theorem updSlot_ptime (k : Nat) (f : KeySlot → KeySlot) : (updSlot k f s).ptime = s.ptime := rfl
@[simp] theorem updSlot_ready (k : Nat) (f : KeySlot → KeySlot) : (updSlot k f s).ready = s.ready := rfl
@[simp] theorem updSlot_mram (k : Nat) (f : KeySlot → KeySlot) : (updSlot k f s).mram = s.mram := rfl
@[simp] theorem updSlot_objs (k : Nat) (f : KeySlot → KeySlot) : (updSlot k f s).objs = s.objs := rfl
@[simp] theorem updSlot_dram (k : Nat) (f : KeySlot → KeySlot) : (updSlot k f s).dram = s.dram := rfl
@[simp] theorem updSlot_coh (k : Nat) (f : KeySlot → KeySlot) : (updSlot k f s).coh = s.coh := rfl
@[simp] theorem updSlot_hosts (k : Nat) (f : KeySlot → KeySlot) : (updSlot k f s).hosts = s.hosts := rfl
@[simp] theorem updSlot_cxl (k : Nat) (f : KeySlot → KeySlot) : (updSlot k f s).cxl = s.cxl := rfl
@[simp] theorem updSlot_work (k : Nat) (f : KeySlot → KeySlot) : (updSlot k f s).work = s.work := rfl
@[simp] theorem updSlot_tiles (k : Nat) (f : KeySlot → KeySlot) : (updSlot k f s).tiles = s.tiles := rfl
@[simp] theorem updSlot_sync (k : Nat) (f : KeySlot → KeySlot) : (updSlot k f s).sync = s.sync := rfl
@[simp] theorem updSlot_fabric (k : Nat) (f : KeySlot → KeySlot) : (updSlot k f s).fabric = s.fabric := rfl
@[simp] theorem updSlot_sched (k : Nat) (f : KeySlot → KeySlot) : (updSlot k f s).sched = s.sched := rfl
@[simp] theorem updSlot_lanes (k : Nat) (f : KeySlot → KeySlot) : (updSlot k f s).lanes = s.lanes := rfl
@[simp] theorem updSlot_eyeCmd (k : Nat) (f : KeySlot → KeySlot) : (updSlot k f s).eyeCmd = s.eyeCmd := rfl
@[simp] theorem updSlot_links (k : Nat) (f : KeySlot → KeySlot) : (updSlot k f s).links = s.links := rfl
@[simp] theorem updSlot_buddy (k : Nat) (f : KeySlot → KeySlot) : (updSlot k f s).buddy = s.buddy := rfl
@[simp] theorem updSlot_mgmt (k : Nat) (f : KeySlot → KeySlot) : (updSlot k f s).mgmt = s.mgmt := rfl
@[simp] theorem updSlot_lovage (k : Nat) (f : KeySlot → KeySlot) : (updSlot k f s).lovage = s.lovage := rfl
@[simp] theorem updSlot_power (k : Nat) (f : KeySlot → KeySlot) : (updSlot k f s).power = s.power := rfl
@[simp] theorem updSlot_rings (k : Nat) (f : KeySlot → KeySlot) : (updSlot k f s).rings = s.rings := rfl
@[simp] theorem updSlot_fresh (k : Nat) (f : KeySlot → KeySlot) : (updSlot k f s).fresh = s.fresh := rfl
@[simp] theorem updSlot_outbox (k : Nat) (f : KeySlot → KeySlot) : (updSlot k f s).outbox = s.outbox := rfl
@[simp] theorem updSlot_pending (k : Nat) (f : KeySlot → KeySlot) : (updSlot k f s).pending = s.pending := rfl
@[simp] theorem updSlot_sec_attest (k : Nat) (f : KeySlot → KeySlot) : (updSlot k f s).sec.attest = s.sec.attest := rfl
@[simp] theorem updSlot_sec_blob (k : Nat) (f : KeySlot → KeySlot) : (updSlot k f s).sec.blob = s.sec.blob := rfl

@[simp] theorem updRefresh_ptime (n : Nat) (f : RefreshSt → RefreshSt) : (updRefresh n f s).ptime = s.ptime := rfl
@[simp] theorem updRefresh_ready (n : Nat) (f : RefreshSt → RefreshSt) : (updRefresh n f s).ready = s.ready := rfl
@[simp] theorem updRefresh_mram (n : Nat) (f : RefreshSt → RefreshSt) : (updRefresh n f s).mram = s.mram := rfl
@[simp] theorem updRefresh_objs (n : Nat) (f : RefreshSt → RefreshSt) : (updRefresh n f s).objs = s.objs := rfl
@[simp] theorem updRefresh_coh (n : Nat) (f : RefreshSt → RefreshSt) : (updRefresh n f s).coh = s.coh := rfl
@[simp] theorem updRefresh_hosts (n : Nat) (f : RefreshSt → RefreshSt) : (updRefresh n f s).hosts = s.hosts := rfl
@[simp] theorem updRefresh_cxl (n : Nat) (f : RefreshSt → RefreshSt) : (updRefresh n f s).cxl = s.cxl := rfl
@[simp] theorem updRefresh_work (n : Nat) (f : RefreshSt → RefreshSt) : (updRefresh n f s).work = s.work := rfl
@[simp] theorem updRefresh_tiles (n : Nat) (f : RefreshSt → RefreshSt) : (updRefresh n f s).tiles = s.tiles := rfl
@[simp] theorem updRefresh_sync (n : Nat) (f : RefreshSt → RefreshSt) : (updRefresh n f s).sync = s.sync := rfl
@[simp] theorem updRefresh_fabric (n : Nat) (f : RefreshSt → RefreshSt) : (updRefresh n f s).fabric = s.fabric := rfl
@[simp] theorem updRefresh_sched (n : Nat) (f : RefreshSt → RefreshSt) : (updRefresh n f s).sched = s.sched := rfl
@[simp] theorem updRefresh_lanes (n : Nat) (f : RefreshSt → RefreshSt) : (updRefresh n f s).lanes = s.lanes := rfl
@[simp] theorem updRefresh_eyeCmd (n : Nat) (f : RefreshSt → RefreshSt) : (updRefresh n f s).eyeCmd = s.eyeCmd := rfl
@[simp] theorem updRefresh_links (n : Nat) (f : RefreshSt → RefreshSt) : (updRefresh n f s).links = s.links := rfl
@[simp] theorem updRefresh_sec (n : Nat) (f : RefreshSt → RefreshSt) : (updRefresh n f s).sec = s.sec := rfl
@[simp] theorem updRefresh_buddy (n : Nat) (f : RefreshSt → RefreshSt) : (updRefresh n f s).buddy = s.buddy := rfl
@[simp] theorem updRefresh_mgmt (n : Nat) (f : RefreshSt → RefreshSt) : (updRefresh n f s).mgmt = s.mgmt := rfl
@[simp] theorem updRefresh_lovage (n : Nat) (f : RefreshSt → RefreshSt) : (updRefresh n f s).lovage = s.lovage := rfl
@[simp] theorem updRefresh_power (n : Nat) (f : RefreshSt → RefreshSt) : (updRefresh n f s).power = s.power := rfl
@[simp] theorem updRefresh_rings (n : Nat) (f : RefreshSt → RefreshSt) : (updRefresh n f s).rings = s.rings := rfl
@[simp] theorem updRefresh_fresh (n : Nat) (f : RefreshSt → RefreshSt) : (updRefresh n f s).fresh = s.fresh := rfl
@[simp] theorem updRefresh_outbox (n : Nat) (f : RefreshSt → RefreshSt) : (updRefresh n f s).outbox = s.outbox := rfl
@[simp] theorem updRefresh_pending (n : Nat) (f : RefreshSt → RefreshSt) : (updRefresh n f s).pending = s.pending := rfl
@[simp] theorem updRefresh_dram_cells (n : Nat) (f : RefreshSt → RefreshSt) : (updRefresh n f s).dram.cells = s.dram.cells := rfl
@[simp] theorem updRefresh_dram_lost (n : Nat) (f : RefreshSt → RefreshSt) : (updRefresh n f s).dram.lost = s.dram.lost := rfl
@[simp] theorem updRefresh_dram_stackMap (n : Nat) (f : RefreshSt → RefreshSt) : (updRefresh n f s).dram.stackMap = s.dram.stackMap := rfl
@[simp] theorem updRefresh_dram_init (n : Nat) (f : RefreshSt → RefreshSt) : (updRefresh n f s).dram.init = s.dram.init := rfl
@[simp] theorem updRefresh_dram_summary (n : Nat) (f : RefreshSt → RefreshSt) : (updRefresh n f s).dram.summary = s.dram.summary := rfl
@[simp] theorem updRefresh_dram_evac (n : Nat) (f : RefreshSt → RefreshSt) : (updRefresh n f s).dram.evac = s.dram.evac := rfl
@[simp] theorem updRefresh_dram_evacWait (n : Nat) (f : RefreshSt → RefreshSt) : (updRefresh n f s).dram.evacWait = s.dram.evacWait := rfl
@[simp] theorem updRefresh_dram_rowCe (n : Nat) (f : RefreshSt → RefreshSt) : (updRefresh n f s).dram.rowCe = s.dram.rowCe := rfl
@[simp] theorem updRefresh_dram_chanUe (n : Nat) (f : RefreshSt → RefreshSt) : (updRefresh n f s).dram.chanUe = s.dram.chanUe := rfl
@[simp] theorem updRefresh_dram_heldRows (n : Nat) (f : RefreshSt → RefreshSt) : (updRefresh n f s).dram.heldRows = s.dram.heldRows := rfl
@[simp] theorem updRefresh_dram_refusedRows (n : Nat) (f : RefreshSt → RefreshSt) : (updRefresh n f s).dram.refusedRows = s.dram.refusedRows := rfl
@[simp] theorem updRefresh_dram_dqs (n : Nat) (f : RefreshSt → RefreshSt) : (updRefresh n f s).dram.dqs = s.dram.dqs := rfl
@[simp] theorem updRefresh_dram_selfRefresh (n : Nat) (f : RefreshSt → RefreshSt) : (updRefresh n f s).dram.selfRefresh = s.dram.selfRefresh := rfl

@[simp] theorem updMirror_ptime (f : MirrorSt → MirrorSt) : (updMirror f s).ptime = s.ptime := rfl
@[simp] theorem updMirror_ready (f : MirrorSt → MirrorSt) : (updMirror f s).ready = s.ready := rfl
@[simp] theorem updMirror_mram (f : MirrorSt → MirrorSt) : (updMirror f s).mram = s.mram := rfl
@[simp] theorem updMirror_objs (f : MirrorSt → MirrorSt) : (updMirror f s).objs = s.objs := rfl
@[simp] theorem updMirror_dram (f : MirrorSt → MirrorSt) : (updMirror f s).dram = s.dram := rfl
@[simp] theorem updMirror_coh (f : MirrorSt → MirrorSt) : (updMirror f s).coh = s.coh := rfl
@[simp] theorem updMirror_hosts (f : MirrorSt → MirrorSt) : (updMirror f s).hosts = s.hosts := rfl
@[simp] theorem updMirror_cxl (f : MirrorSt → MirrorSt) : (updMirror f s).cxl = s.cxl := rfl
@[simp] theorem updMirror_work (f : MirrorSt → MirrorSt) : (updMirror f s).work = s.work := rfl
@[simp] theorem updMirror_tiles (f : MirrorSt → MirrorSt) : (updMirror f s).tiles = s.tiles := rfl
@[simp] theorem updMirror_sync (f : MirrorSt → MirrorSt) : (updMirror f s).sync = s.sync := rfl
@[simp] theorem updMirror_fabric (f : MirrorSt → MirrorSt) : (updMirror f s).fabric = s.fabric := rfl
@[simp] theorem updMirror_sched (f : MirrorSt → MirrorSt) : (updMirror f s).sched = s.sched := rfl
@[simp] theorem updMirror_lanes (f : MirrorSt → MirrorSt) : (updMirror f s).lanes = s.lanes := rfl
@[simp] theorem updMirror_eyeCmd (f : MirrorSt → MirrorSt) : (updMirror f s).eyeCmd = s.eyeCmd := rfl
@[simp] theorem updMirror_links (f : MirrorSt → MirrorSt) : (updMirror f s).links = s.links := rfl
@[simp] theorem updMirror_sec (f : MirrorSt → MirrorSt) : (updMirror f s).sec = s.sec := rfl
@[simp] theorem updMirror_mgmt (f : MirrorSt → MirrorSt) : (updMirror f s).mgmt = s.mgmt := rfl
@[simp] theorem updMirror_lovage (f : MirrorSt → MirrorSt) : (updMirror f s).lovage = s.lovage := rfl
@[simp] theorem updMirror_power (f : MirrorSt → MirrorSt) : (updMirror f s).power = s.power := rfl
@[simp] theorem updMirror_rings (f : MirrorSt → MirrorSt) : (updMirror f s).rings = s.rings := rfl
@[simp] theorem updMirror_fresh (f : MirrorSt → MirrorSt) : (updMirror f s).fresh = s.fresh := rfl
@[simp] theorem updMirror_outbox (f : MirrorSt → MirrorSt) : (updMirror f s).outbox = s.outbox := rfl
@[simp] theorem updMirror_pending (f : MirrorSt → MirrorSt) : (updMirror f s).pending = s.pending := rfl
@[simp] theorem updMirror_buddy_own (f : MirrorSt → MirrorSt) : (updMirror f s).buddy.own = s.buddy.own := rfl
@[simp] theorem updMirror_buddy_other (f : MirrorSt → MirrorSt) : (updMirror f s).buddy.other = s.buddy.other := rfl
@[simp] theorem updMirror_buddy_ownRecs (f : MirrorSt → MirrorSt) : (updMirror f s).buddy.ownRecs = s.buddy.ownRecs := rfl
@[simp] theorem updMirror_buddy_otherRecs (f : MirrorSt → MirrorSt) : (updMirror f s).buddy.otherRecs = s.buddy.otherRecs := rfl
@[simp] theorem updMirror_buddy_changed (f : MirrorSt → MirrorSt) : (updMirror f s).buddy.changed = s.buddy.changed := rfl
@[simp] theorem updMirror_buddy_frozen (f : MirrorSt → MirrorSt) : (updMirror f s).buddy.frozen = s.buddy.frozen := rfl
@[simp] theorem updMirror_buddy_phases (f : MirrorSt → MirrorSt) : (updMirror f s).buddy.phases = s.buddy.phases := rfl
@[simp] theorem updMirror_buddy_buddyHolds (f : MirrorSt → MirrorSt) : (updMirror f s).buddy.buddyHolds = s.buddy.buddyHolds := rfl
@[simp] theorem updMirror_buddy_mirror (f : MirrorSt → MirrorSt) : (updMirror f s).buddy.mirror = f s.buddy.mirror := rfl

@[simp] theorem updPower_ptime (f : PowerSt → PowerSt) : (updPower f s).ptime = s.ptime := rfl
@[simp] theorem updPower_ready (f : PowerSt → PowerSt) : (updPower f s).ready = s.ready := rfl
@[simp] theorem updPower_mram (f : PowerSt → PowerSt) : (updPower f s).mram = s.mram := rfl
@[simp] theorem updPower_objs (f : PowerSt → PowerSt) : (updPower f s).objs = s.objs := rfl
@[simp] theorem updPower_dram (f : PowerSt → PowerSt) : (updPower f s).dram = s.dram := rfl
@[simp] theorem updPower_coh (f : PowerSt → PowerSt) : (updPower f s).coh = s.coh := rfl
@[simp] theorem updPower_hosts (f : PowerSt → PowerSt) : (updPower f s).hosts = s.hosts := rfl
@[simp] theorem updPower_cxl (f : PowerSt → PowerSt) : (updPower f s).cxl = s.cxl := rfl
@[simp] theorem updPower_work (f : PowerSt → PowerSt) : (updPower f s).work = s.work := rfl
@[simp] theorem updPower_tiles (f : PowerSt → PowerSt) : (updPower f s).tiles = s.tiles := rfl
@[simp] theorem updPower_sync (f : PowerSt → PowerSt) : (updPower f s).sync = s.sync := rfl
@[simp] theorem updPower_fabric (f : PowerSt → PowerSt) : (updPower f s).fabric = s.fabric := rfl
@[simp] theorem updPower_sched (f : PowerSt → PowerSt) : (updPower f s).sched = s.sched := rfl
@[simp] theorem updPower_lanes (f : PowerSt → PowerSt) : (updPower f s).lanes = s.lanes := rfl
@[simp] theorem updPower_eyeCmd (f : PowerSt → PowerSt) : (updPower f s).eyeCmd = s.eyeCmd := rfl
@[simp] theorem updPower_links (f : PowerSt → PowerSt) : (updPower f s).links = s.links := rfl
@[simp] theorem updPower_sec (f : PowerSt → PowerSt) : (updPower f s).sec = s.sec := rfl
@[simp] theorem updPower_buddy (f : PowerSt → PowerSt) : (updPower f s).buddy = s.buddy := rfl
@[simp] theorem updPower_mgmt (f : PowerSt → PowerSt) : (updPower f s).mgmt = s.mgmt := rfl
@[simp] theorem updPower_lovage (f : PowerSt → PowerSt) : (updPower f s).lovage = s.lovage := rfl
@[simp] theorem updPower_rings (f : PowerSt → PowerSt) : (updPower f s).rings = s.rings := rfl
@[simp] theorem updPower_fresh (f : PowerSt → PowerSt) : (updPower f s).fresh = s.fresh := rfl
@[simp] theorem updPower_outbox (f : PowerSt → PowerSt) : (updPower f s).outbox = s.outbox := rfl
@[simp] theorem updPower_pending (f : PowerSt → PowerSt) : (updPower f s).pending = s.pending := rfl
@[simp] theorem updPower_power (f : PowerSt → PowerSt) : (updPower f s).power = f s.power := rfl

@[simp] theorem setSyncObj_ptime (n : Nat) (o : SyncObj) : (setSyncObj n o s).ptime = s.ptime := rfl
@[simp] theorem setSyncObj_ready (n : Nat) (o : SyncObj) : (setSyncObj n o s).ready = s.ready := rfl
@[simp] theorem setSyncObj_mram (n : Nat) (o : SyncObj) : (setSyncObj n o s).mram = s.mram := rfl
@[simp] theorem setSyncObj_objs (n : Nat) (o : SyncObj) : (setSyncObj n o s).objs = s.objs := rfl
@[simp] theorem setSyncObj_dram (n : Nat) (o : SyncObj) : (setSyncObj n o s).dram = s.dram := rfl
@[simp] theorem setSyncObj_coh (n : Nat) (o : SyncObj) : (setSyncObj n o s).coh = s.coh := rfl
@[simp] theorem setSyncObj_hosts (n : Nat) (o : SyncObj) : (setSyncObj n o s).hosts = s.hosts := rfl
@[simp] theorem setSyncObj_cxl (n : Nat) (o : SyncObj) : (setSyncObj n o s).cxl = s.cxl := rfl
@[simp] theorem setSyncObj_work (n : Nat) (o : SyncObj) : (setSyncObj n o s).work = s.work := rfl
@[simp] theorem setSyncObj_tiles (n : Nat) (o : SyncObj) : (setSyncObj n o s).tiles = s.tiles := rfl
@[simp] theorem setSyncObj_fabric (n : Nat) (o : SyncObj) : (setSyncObj n o s).fabric = s.fabric := rfl
@[simp] theorem setSyncObj_sched (n : Nat) (o : SyncObj) : (setSyncObj n o s).sched = s.sched := rfl
@[simp] theorem setSyncObj_lanes (n : Nat) (o : SyncObj) : (setSyncObj n o s).lanes = s.lanes := rfl
@[simp] theorem setSyncObj_eyeCmd (n : Nat) (o : SyncObj) : (setSyncObj n o s).eyeCmd = s.eyeCmd := rfl
@[simp] theorem setSyncObj_links (n : Nat) (o : SyncObj) : (setSyncObj n o s).links = s.links := rfl
@[simp] theorem setSyncObj_sec (n : Nat) (o : SyncObj) : (setSyncObj n o s).sec = s.sec := rfl
@[simp] theorem setSyncObj_buddy (n : Nat) (o : SyncObj) : (setSyncObj n o s).buddy = s.buddy := rfl
@[simp] theorem setSyncObj_mgmt (n : Nat) (o : SyncObj) : (setSyncObj n o s).mgmt = s.mgmt := rfl
@[simp] theorem setSyncObj_lovage (n : Nat) (o : SyncObj) : (setSyncObj n o s).lovage = s.lovage := rfl
@[simp] theorem setSyncObj_power (n : Nat) (o : SyncObj) : (setSyncObj n o s).power = s.power := rfl
@[simp] theorem setSyncObj_rings (n : Nat) (o : SyncObj) : (setSyncObj n o s).rings = s.rings := rfl
@[simp] theorem setSyncObj_fresh (n : Nat) (o : SyncObj) : (setSyncObj n o s).fresh = s.fresh := rfl
@[simp] theorem setSyncObj_outbox (n : Nat) (o : SyncObj) : (setSyncObj n o s).outbox = s.outbox := rfl
@[simp] theorem setSyncObj_pending (n : Nat) (o : SyncObj) : (setSyncObj n o s).pending = s.pending := rfl
@[simp] theorem setSyncObj_sync_waits (n : Nat) (o : SyncObj) : (setSyncObj n o s).sync.waits = s.sync.waits := rfl
@[simp] theorem setSyncObj_sync_banks (n : Nat) (o : SyncObj) : (setSyncObj n o s).sync.banks = s.sync.banks := rfl
@[simp] theorem setSyncObj_sync_held (n : Nat) (o : SyncObj) : (setSyncObj n o s).sync.held = s.sync.held := rfl

@[simp] theorem setWaits_ptime (n : Nat) (l : List SyncReq) : (setWaits n l s).ptime = s.ptime := rfl
@[simp] theorem setWaits_ready (n : Nat) (l : List SyncReq) : (setWaits n l s).ready = s.ready := rfl
@[simp] theorem setWaits_mram (n : Nat) (l : List SyncReq) : (setWaits n l s).mram = s.mram := rfl
@[simp] theorem setWaits_objs (n : Nat) (l : List SyncReq) : (setWaits n l s).objs = s.objs := rfl
@[simp] theorem setWaits_dram (n : Nat) (l : List SyncReq) : (setWaits n l s).dram = s.dram := rfl
@[simp] theorem setWaits_coh (n : Nat) (l : List SyncReq) : (setWaits n l s).coh = s.coh := rfl
@[simp] theorem setWaits_hosts (n : Nat) (l : List SyncReq) : (setWaits n l s).hosts = s.hosts := rfl
@[simp] theorem setWaits_cxl (n : Nat) (l : List SyncReq) : (setWaits n l s).cxl = s.cxl := rfl
@[simp] theorem setWaits_work (n : Nat) (l : List SyncReq) : (setWaits n l s).work = s.work := rfl
@[simp] theorem setWaits_tiles (n : Nat) (l : List SyncReq) : (setWaits n l s).tiles = s.tiles := rfl
@[simp] theorem setWaits_fabric (n : Nat) (l : List SyncReq) : (setWaits n l s).fabric = s.fabric := rfl
@[simp] theorem setWaits_sched (n : Nat) (l : List SyncReq) : (setWaits n l s).sched = s.sched := rfl
@[simp] theorem setWaits_lanes (n : Nat) (l : List SyncReq) : (setWaits n l s).lanes = s.lanes := rfl
@[simp] theorem setWaits_eyeCmd (n : Nat) (l : List SyncReq) : (setWaits n l s).eyeCmd = s.eyeCmd := rfl
@[simp] theorem setWaits_links (n : Nat) (l : List SyncReq) : (setWaits n l s).links = s.links := rfl
@[simp] theorem setWaits_sec (n : Nat) (l : List SyncReq) : (setWaits n l s).sec = s.sec := rfl
@[simp] theorem setWaits_buddy (n : Nat) (l : List SyncReq) : (setWaits n l s).buddy = s.buddy := rfl
@[simp] theorem setWaits_mgmt (n : Nat) (l : List SyncReq) : (setWaits n l s).mgmt = s.mgmt := rfl
@[simp] theorem setWaits_lovage (n : Nat) (l : List SyncReq) : (setWaits n l s).lovage = s.lovage := rfl
@[simp] theorem setWaits_power (n : Nat) (l : List SyncReq) : (setWaits n l s).power = s.power := rfl
@[simp] theorem setWaits_rings (n : Nat) (l : List SyncReq) : (setWaits n l s).rings = s.rings := rfl
@[simp] theorem setWaits_fresh (n : Nat) (l : List SyncReq) : (setWaits n l s).fresh = s.fresh := rfl
@[simp] theorem setWaits_outbox (n : Nat) (l : List SyncReq) : (setWaits n l s).outbox = s.outbox := rfl
@[simp] theorem setWaits_pending (n : Nat) (l : List SyncReq) : (setWaits n l s).pending = s.pending := rfl
@[simp] theorem setWaits_sync_objs (n : Nat) (l : List SyncReq) : (setWaits n l s).sync.objs = s.sync.objs := rfl
@[simp] theorem setWaits_sync_banks (n : Nat) (l : List SyncReq) : (setWaits n l s).sync.banks = s.sync.banks := rfl
@[simp] theorem setWaits_sync_held (n : Nat) (l : List SyncReq) : (setWaits n l s).sync.held = s.sync.held := rfl

@[simp] theorem setBank_ptime (b : Nat) (l : List SyncReq) : (setBank b l s).ptime = s.ptime := rfl
@[simp] theorem setBank_ready (b : Nat) (l : List SyncReq) : (setBank b l s).ready = s.ready := rfl
@[simp] theorem setBank_mram (b : Nat) (l : List SyncReq) : (setBank b l s).mram = s.mram := rfl
@[simp] theorem setBank_objs (b : Nat) (l : List SyncReq) : (setBank b l s).objs = s.objs := rfl
@[simp] theorem setBank_dram (b : Nat) (l : List SyncReq) : (setBank b l s).dram = s.dram := rfl
@[simp] theorem setBank_coh (b : Nat) (l : List SyncReq) : (setBank b l s).coh = s.coh := rfl
@[simp] theorem setBank_hosts (b : Nat) (l : List SyncReq) : (setBank b l s).hosts = s.hosts := rfl
@[simp] theorem setBank_cxl (b : Nat) (l : List SyncReq) : (setBank b l s).cxl = s.cxl := rfl
@[simp] theorem setBank_work (b : Nat) (l : List SyncReq) : (setBank b l s).work = s.work := rfl
@[simp] theorem setBank_tiles (b : Nat) (l : List SyncReq) : (setBank b l s).tiles = s.tiles := rfl
@[simp] theorem setBank_fabric (b : Nat) (l : List SyncReq) : (setBank b l s).fabric = s.fabric := rfl
@[simp] theorem setBank_sched (b : Nat) (l : List SyncReq) : (setBank b l s).sched = s.sched := rfl
@[simp] theorem setBank_lanes (b : Nat) (l : List SyncReq) : (setBank b l s).lanes = s.lanes := rfl
@[simp] theorem setBank_eyeCmd (b : Nat) (l : List SyncReq) : (setBank b l s).eyeCmd = s.eyeCmd := rfl
@[simp] theorem setBank_links (b : Nat) (l : List SyncReq) : (setBank b l s).links = s.links := rfl
@[simp] theorem setBank_sec (b : Nat) (l : List SyncReq) : (setBank b l s).sec = s.sec := rfl
@[simp] theorem setBank_buddy (b : Nat) (l : List SyncReq) : (setBank b l s).buddy = s.buddy := rfl
@[simp] theorem setBank_mgmt (b : Nat) (l : List SyncReq) : (setBank b l s).mgmt = s.mgmt := rfl
@[simp] theorem setBank_lovage (b : Nat) (l : List SyncReq) : (setBank b l s).lovage = s.lovage := rfl
@[simp] theorem setBank_power (b : Nat) (l : List SyncReq) : (setBank b l s).power = s.power := rfl
@[simp] theorem setBank_rings (b : Nat) (l : List SyncReq) : (setBank b l s).rings = s.rings := rfl
@[simp] theorem setBank_fresh (b : Nat) (l : List SyncReq) : (setBank b l s).fresh = s.fresh := rfl
@[simp] theorem setBank_outbox (b : Nat) (l : List SyncReq) : (setBank b l s).outbox = s.outbox := rfl
@[simp] theorem setBank_pending (b : Nat) (l : List SyncReq) : (setBank b l s).pending = s.pending := rfl
@[simp] theorem setBank_sync_objs (b : Nat) (l : List SyncReq) : (setBank b l s).sync.objs = s.sync.objs := rfl
@[simp] theorem setBank_sync_waits (b : Nat) (l : List SyncReq) : (setBank b l s).sync.waits = s.sync.waits := rfl
@[simp] theorem setBank_sync_held (b : Nat) (l : List SyncReq) : (setBank b l s).sync.held = s.sync.held := rfl

@[simp] theorem setWin_ptime (ld : Nat) (w : ObjWin) : (setWin ld w s).ptime = s.ptime := rfl
@[simp] theorem setWin_ready (ld : Nat) (w : ObjWin) : (setWin ld w s).ready = s.ready := rfl
@[simp] theorem setWin_mram (ld : Nat) (w : ObjWin) : (setWin ld w s).mram = s.mram := rfl
@[simp] theorem setWin_objs (ld : Nat) (w : ObjWin) : (setWin ld w s).objs = s.objs := rfl
@[simp] theorem setWin_dram (ld : Nat) (w : ObjWin) : (setWin ld w s).dram = s.dram := rfl
@[simp] theorem setWin_coh (ld : Nat) (w : ObjWin) : (setWin ld w s).coh = s.coh := rfl
@[simp] theorem setWin_hosts (ld : Nat) (w : ObjWin) : (setWin ld w s).hosts = s.hosts := rfl
@[simp] theorem setWin_cxl (ld : Nat) (w : ObjWin) : (setWin ld w s).cxl = s.cxl := rfl
@[simp] theorem setWin_work (ld : Nat) (w : ObjWin) : (setWin ld w s).work = s.work := rfl
@[simp] theorem setWin_tiles (ld : Nat) (w : ObjWin) : (setWin ld w s).tiles = s.tiles := rfl
@[simp] theorem setWin_sync (ld : Nat) (w : ObjWin) : (setWin ld w s).sync = s.sync := rfl
@[simp] theorem setWin_fabric (ld : Nat) (w : ObjWin) : (setWin ld w s).fabric = s.fabric := rfl
@[simp] theorem setWin_sched (ld : Nat) (w : ObjWin) : (setWin ld w s).sched = s.sched := rfl
@[simp] theorem setWin_lanes (ld : Nat) (w : ObjWin) : (setWin ld w s).lanes = s.lanes := rfl
@[simp] theorem setWin_eyeCmd (ld : Nat) (w : ObjWin) : (setWin ld w s).eyeCmd = s.eyeCmd := rfl
@[simp] theorem setWin_links (ld : Nat) (w : ObjWin) : (setWin ld w s).links = s.links := rfl
@[simp] theorem setWin_sec (ld : Nat) (w : ObjWin) : (setWin ld w s).sec = s.sec := rfl
@[simp] theorem setWin_buddy (ld : Nat) (w : ObjWin) : (setWin ld w s).buddy = s.buddy := rfl
@[simp] theorem setWin_lovage (ld : Nat) (w : ObjWin) : (setWin ld w s).lovage = s.lovage := rfl
@[simp] theorem setWin_power (ld : Nat) (w : ObjWin) : (setWin ld w s).power = s.power := rfl
@[simp] theorem setWin_rings (ld : Nat) (w : ObjWin) : (setWin ld w s).rings = s.rings := rfl
@[simp] theorem setWin_fresh (ld : Nat) (w : ObjWin) : (setWin ld w s).fresh = s.fresh := rfl
@[simp] theorem setWin_outbox (ld : Nat) (w : ObjWin) : (setWin ld w s).outbox = s.outbox := rfl
@[simp] theorem setWin_pending (ld : Nat) (w : ObjWin) : (setWin ld w s).pending = s.pending := rfl
@[simp] theorem setWin_mgmt_events (ld : Nat) (w : ObjWin) : (setWin ld w s).mgmt.events = s.mgmt.events := rfl
@[simp] theorem setWin_mgmt_unacked (ld : Nat) (w : ObjWin) : (setWin ld w s).mgmt.unacked = s.mgmt.unacked := rfl
@[simp] theorem setWin_mgmt_lost (ld : Nat) (w : ObjWin) : (setWin ld w s).mgmt.lost = s.mgmt.lost := rfl
@[simp] theorem setWin_mgmt_ctr (ld : Nat) (w : ObjWin) : (setWin ld w s).mgmt.ctr = s.mgmt.ctr := rfl
@[simp] theorem setWin_mgmt_responses (ld : Nat) (w : ObjWin) : (setWin ld w s).mgmt.responses = s.mgmt.responses := rfl
@[simp] theorem setWin_mgmt_unlocks (ld : Nat) (w : ObjWin) : (setWin ld w s).mgmt.unlocks = s.mgmt.unlocks := rfl
@[simp] theorem setWin_mgmt_jtagHold (ld : Nat) (w : ObjWin) : (setWin ld w s).mgmt.jtagHold = s.mgmt.jtagHold := rfl
@[simp] theorem setWin_mgmt_tap (ld : Nat) (w : ObjWin) : (setWin ld w s).mgmt.tap = s.mgmt.tap := rfl
@[simp] theorem setWin_mgmt_cells (ld : Nat) (w : ObjWin) : (setWin ld w s).mgmt.cells = s.mgmt.cells := rfl

end

/-! ## What a unit reads as after a change of it or of another -/

section
variable (s : State)

@[simp] theorem getPart_updPart (k : Nat) (f : PartSt → PartSt) : getPart (updPart k f s) k = f (getPart s k) := smGet_upd_self _ _ _ _
theorem getPart_updPart_other {k j : Nat} (f : PartSt → PartSt) (h : k ≠ j) : getPart (updPart j f s) k = getPart s k :=
  smGet_upd_other _ _ _ h
@[simp] theorem getQueue_updQueue (k : Nat) (f : QueueSt → QueueSt) : getQueue (updQueue k f s) k = f (getQueue s k) := smGet_upd_self _ _ _ _
theorem getQueue_updQueue_other {k j : Nat} (f : QueueSt → QueueSt) (h : k ≠ j) : getQueue (updQueue j f s) k = getQueue s k :=
  smGet_upd_other _ _ _ h
@[simp] theorem getLink_updLink (k : Nat) (f : LinkSt → LinkSt) : getLink (updLink k f s) k = f (getLink s k) := smGet_upd_self _ _ _ _
theorem getLink_updLink_other {k j : Nat} (f : LinkSt → LinkSt) (h : k ≠ j) : getLink (updLink j f s) k = getLink s k :=
  smGet_upd_other _ _ _ h
@[simp] theorem getLane_updLane (k : Nat) (f : LaneSt → LaneSt) : getLane (updLane k f s) k = f (getLane s k) := smGet_upd_self _ _ _ _
theorem getLane_updLane_other {k j : Nat} (f : LaneSt → LaneSt) (h : k ≠ j) : getLane (updLane j f s) k = getLane s k :=
  smGet_upd_other _ _ _ h
@[simp] theorem getSched_updSched (k : Nat) (f : SchedPort → SchedPort) : getSched (updSched k f s) k = f (getSched s k) := smGet_upd_self _ _ _ _
theorem getSched_updSched_other {k j : Nat} (f : SchedPort → SchedPort) (h : k ≠ j) : getSched (updSched j f s) k = getSched s k :=
  smGet_upd_other _ _ _ h
@[simp] theorem getRegion_updRegion (k : Nat) (f : Region → Region) : getRegion (updRegion k f s) k = f (getRegion s k) := smGet_upd_self _ _ _ _
theorem getRegion_updRegion_other {k j : Nat} (f : Region → Region) (h : k ≠ j) : getRegion (updRegion j f s) k = getRegion s k :=
  smGet_upd_other _ _ _ h
@[simp] theorem getPub_updPub (k : Nat) (f : PubPage → PubPage) : getPub (updPub k f s) k = f (getPub s k) := smGet_upd_self _ _ _ _
theorem getPub_updPub_other {k j : Nat} (f : PubPage → PubPage) (h : k ≠ j) : getPub (updPub j f s) k = getPub s k :=
  smGet_upd_other _ _ _ h
@[simp] theorem getSlot_updSlot (k : Nat) (f : KeySlot → KeySlot) : getSlot (updSlot k f s) k = f (getSlot s k) := smGet_upd_self _ _ _ _
theorem getSlot_updSlot_other {k j : Nat} (f : KeySlot → KeySlot) (h : k ≠ j) : getSlot (updSlot j f s) k = getSlot s k :=
  smGet_upd_other _ _ _ h

theorem getJob?_updJob (k j : Nat) (f : JobSt → JobSt) :
    getJob? (updJob j f s) k = if k = j then (getJob? s k).map f else getJob? s k := smFind?_alter _ _ _ _

@[simp] theorem pobj_setPobj (p i u v : Nat) : pobj (setPobj p i u v s) p i u = v := getD_find?_set_self _ _ _ _
theorem pobj_setPobj_other (v : Nat) {p i u p' i' u' : Nat} (h : objKey p' i' u' ≠ objKey p i u) :
    pobj (setPobj p i u v s) p' i' u' = pobj s p' i' u' := by
  simp only [pobj, setPobj]; rw [smFind?_set_other _ _ _ h]
@[simp] theorem obj_setObj (i u v : Nat) : obj (setObj i u v s) i u = v := pobj_setPobj s 0 i u v
theorem obj_setObj_other (v : Nat) {i u i' u' : Nat} (h : objKey 0 i' u' ≠ objKey 0 i u) :
    obj (setObj i u v s) i' u' = obj s i' u' := pobj_setPobj_other s v h

@[simp] theorem syncObj_setSyncObj (n : Nat) (o : SyncObj) : syncObj (setSyncObj n o s) n = o := smGet_set_self _ _ _ _
@[simp] theorem syncWaits_setWaits (n : Nat) (l : List SyncReq) : syncWaits (setWaits n l s) n = l := smGet_set_self _ _ _ _
@[simp] theorem bankQueue_setBank (n : Nat) (l : List SyncReq) : bankQueue (setBank n l s) n = l := smGet_set_self _ _ _ _

end

end Sys2Proof.Machine
end

