-- ==== Sys2Proof/Laws/Ops.lean ====
section
/-!
SUPPORT. Laws of the operations every unit shares: what a counter, a Lovage record, a message and an event change, and
that they change nothing else.
-/
namespace Sys2Proof.Machine

section
variable (s : State)

/-! ## Counters (R15) -/

theorem counterAdd_below {v n : Nat} (h : v % 2 ^ 48 + n ≤ countMax) :
    counterAdd v n = (v % 2 ^ 48 + n + (if bitOf v 63 then satBit else 0), false) := by
  simp only [counterAdd]; rw [if_pos h]

theorem counterAdd_beyond {v n : Nat} (h : countMax < v % 2 ^ 48 + n) : counterAdd v n = (countMax + satBit, !bitOf v 63) := by
  simp only [counterAdd]; rw [if_neg (Nat.not_le.2 h)]

/-- An increment is one write of the counter's object. -/
theorem addCounter_state (p i u n : Nat) : (addCounter p i u n s).2 = setPobj p i u (counterAdd (pobj s p i u) n).1 s := rfl

/-- What an operation of these leaves alone: everything but objects and their MRAM copies, the management part, Lovage and the
outbox, to which it only adds. -/
structure Reports (s t : State) : Prop where
  frame : t = { s with objs := t.objs, mgmt := t.mgmt, lovage := t.lovage, outbox := t.outbox, mram := t.mram }
  mram : t.mram = { s.mram with copyA := t.mram.copyA, copyB := t.mram.copyB }
  outbox : ∃ l, t.outbox = s.outbox ++ l

theorem Reports.refl : Reports s s := ⟨rfl, rfl, [], (List.append_nil _).symm⟩

theorem Reports.trans {s t u : State} (h : Reports s t) (k : Reports t u) : Reports s u := by
  obtain ⟨hf, hm, a, ha⟩ := h
  obtain ⟨kf, km, b, kb⟩ := k
  refine ⟨?_, ?_, a ++ b, by rw [kb, ha, List.append_assoc]⟩
  · rw [kf, hf]
  · rw [km, hm]

/-- An operation that reports leaves the part of State a claim is about. -/
theorem Reports.kept {α : Type} {s t : State} (h : Reports s t) (f : State → α)
    (hf : ∀ o m l b r, f { s with objs := o, mgmt := m, lovage := l, outbox := b, mram := r } = f s) : f t = f s := by
  rw [h.frame]; exact hf _ _ _ _ _

theorem reports_send (m : Msg) : Reports s (send m s) := ⟨rfl, rfl, [m], rfl⟩
theorem reports_setPobj (p i u v : Nat) : Reports s (setPobj p i u v s) := by
  refine ⟨rfl, ?_, [], (List.append_nil _).symm⟩
  simp only [setPobj]; split <;> rfl
theorem reports_addCounter (p i u n : Nat) : Reports s (addCounter p i u n s).2 := reports_setPobj s p i u _

/-! ## Lovage, messages, events (R426, R432) -/

theorem reports_lovageStore (c g v : Nat) (d : Bytes) : Reports s (lovageStore c g v d s).2 := by
  unfold lovageStore
  split
  · exact reports_addCounter s 0 0x3B02 3 1
  · exact ⟨rfl, rfl, [], (List.append_nil _).symm⟩

theorem reports_lovageRecordOf (c : Nat) (d : Bytes) : Reports s (lovageRecordOf c d s).2 := reports_lovageStore s _ _ _ _

theorem reports_sendWop (ty st i u p : Nat) (d : Bytes) : Reports s (sendWop ty st i u p d s) :=
  ⟨rfl, rfl, [wopMsg ty st i u p d s], rfl⟩

theorem reports_sendEvent : Reports s (sendEvent s) := by
  unfold sendEvent
  split
  · exact Reports.refl s
  · split
    · exact Reports.refl s
    · exact (reports_sendWop s _ _ _ _ _ _).trans ⟨rfl, rfl, [], (List.append_nil _).symm⟩

theorem reports_queueEvent (c : Nat) (d : Bytes) : Reports s (queueEvent c d s).2 := by
  unfold queueEvent
  split
  · exact (reports_addCounter s 0 0x3B02 2 1).trans ⟨rfl, rfl, [], (List.append_nil _).symm⟩
  · refine Reports.trans ?_ (reports_sendEvent _)
    exact ⟨rfl, rfl, [], (List.append_nil _).symm⟩

theorem reports_raiseOnce (c : Nat) (d : Bytes) : Reports s (raiseOnce c d s).2.2 :=
  (reports_lovageRecordOf s _ _).trans (reports_queueEvent _ _ _)

theorem reports_raiseWithin (n : Nat) (c : Nat) (d : Bytes) : Reports s (raiseWithin n c d s) := by
  induction n generalizing s c d with
  | zero => exact reports_raiseOnce s c d
  | succ n ih =>
    have h1 : Reports s (if (raiseOnce c d s).1 = true then raiseWithin n 0x0004 (saturationData 0x3B02 3) (raiseOnce c d s).2.2
        else (raiseOnce c d s).2.2) := by
      split
      · exact (reports_raiseOnce s c d).trans (ih _ _ _)
      · exact reports_raiseOnce s c d
    simp only [raiseWithin]
    split
    · exact h1.trans (ih _ _ _)
    · exact h1

theorem reports_raiseEvent (c : Nat) (d : Bytes) : Reports s (raiseEvent c d s) := reports_raiseWithin s 2 c d

theorem reports_lovageNote (c : Nat) (d : Bytes) : Reports s (lovageNote c d s) := by
  simp only [lovageNote]
  split
  · exact (reports_lovageRecordOf s c d).trans (reports_raiseEvent _ _ _)
  · exact reports_lovageRecordOf s c d

/-- An event that finds room in the black box and in the queue is one record and one queue entry. -/
theorem raiseEvent_room {c : Nat} {d : Bytes} (h1 : (raiseOnce c d s).1 = false) (h2 : (raiseOnce c d s).2.1 = false) :
    raiseEvent c d s = (raiseOnce c d s).2.2 := by
  simp only [raiseEvent, raiseWithin, h1, h2, Bool.false_eq_true, if_false]

theorem reports_pbump (p i u n : Nat) : Reports s (pbump p i u n s) := by
  simp only [pbump]
  split
  · exact (reports_addCounter s p i u n).trans (reports_raiseEvent _ _ _)
  · exact reports_addCounter s p i u n

theorem reports_bump (i u : Nat) : Reports s (bump i u s) := reports_pbump s 0 i u 1

/-- A bump that does not saturate is one write of the counter. -/
theorem pbump_below {p i u n : Nat} (h : pobj s p i u % 2 ^ 48 + n ≤ countMax) :
    pbump p i u n s = setPobj p i u (pobj s p i u % 2 ^ 48 + n + (if bitOf (pobj s p i u) 63 then satBit else 0)) s := by
  simp only [pbump, addCounter, counterAdd_below h]
  simp

end

end Sys2Proof.Machine
end

