-- ==== Sys2Proof/Laws/Tilecode.lean ====
section
/-!
SUPPORT. Laws of tile programs: the fields of an instruction word read back, two changes of one tile are one change, and
what issuing a word does on a tile that runs a program.
-/
namespace Sys2Proof.Machine
open Sys2Proof.Safety

theorem b2n_lt (b : Bool) : b2n b < 2 := by cases b <;> decide

theorem smErase_insert {α : Type} (k : Nat) (v : α) (m : SMap α) : smErase k (smInsert k v m) = smErase k m := by
  induction m with
  | nil => simp [smInsert, smErase]
  | cons e m ih =>
    obtain ⟨i, u⟩ := e
    by_cases h : k < i
    · simp [smInsert, smErase, h]
    · by_cases hi : i = k <;> simp [smInsert, smErase, h, hi, ih]

theorem smErase_erase {α : Type} (k : Nat) (m : SMap α) : smErase k (smErase k m) = smErase k m := by
  induction m with
  | nil => rfl
  | cons e m ih =>
    obtain ⟨i, u⟩ := e
    by_cases hi : i = k <;> simp [smErase, hi, ih]

theorem smErase_put {α : Type} (k : Nat) (v : α) (m : SMap α) : smErase k (smPut k v m) = smErase k m := by
  rw [smPut, smErase_insert, smErase_erase]

theorem smErase_set {α : Type} [DecidableEq α] (d : α) (k : Nat) (v : α) (m : SMap α) :
    smErase k (smSet d k v m) = smErase k m := by
  unfold smSet
  split
  · exact smErase_erase k m
  · exact smErase_put k v m

/-- Setting a key twice is setting it once. -/
theorem smSet_set {α : Type} [DecidableEq α] (d : α) (k : Nat) (v u : α) (m : SMap α) :
    smSet d k u (smSet d k v m) = smSet d k u m := by
  rw [smSet]
  conv_rhs => rw [smSet]
  simp only [smPut, smErase_set]

/-- Changing a key twice is changing it once. -/
theorem smUpd_upd {α : Type} [DecidableEq α] (d : α) (k : Nat) (f g : α → α) (m : SMap α) :
    smUpd d k g (smUpd d k f m) = smUpd d k (fun a => g (f a)) m := by
  simp only [smUpd, smSet_set, smGet_set_self]

theorem updTile_updTile (t : Nat) (f g : TileSt → TileSt) (s : State) :
    updTile t g (updTile t f s) = updTile t (fun y => g (f y)) s := by
  simp [updTile, smUpd_upd]

@[simp] theorem getTile_updTile_self (t : Nat) (f : TileSt → TileSt) (s : State) :
    getTile (updTile t f s) t = f (getTile s t) := by
  simp [getTile, updTile]

theorem getTile_updTile_other {t u : Nat} (h : u ≠ t) (f : TileSt → TileSt) (s : State) :
    getTile (updTile t f s) u = getTile s u := by
  simp [getTile, updTile, smGet_upd_other _ _ _ h]

/-- Two changes of a tile that agree on what the tile holds are the same change. -/
theorem updTile_congr (t : Nat) (f g : TileSt → TileSt) (s : State) (h : f (getTile s t) = g (getTile s t)) :
    updTile t f s = updTile t g s := by
  simp only [updTile, smUpd]
  simp only [getTile] at h
  rw [h]

section Words
variable (op : Nat) (pn : Bool) (pg rd ra rb rc fmt md imm : Nat)

/-- The fields of a word of format R. -/
theorem encR_fields (ho : op < 256) (hg : pg < 8) (hd : rd < 32) (ha : ra < 32) (hb : rb < 32) (hc : rc < 32)
    (hf : fmt < 16) (hm : md < 256) :
    wOp (encR op pn pg rd ra rb rc fmt md) = op ∧ wPn (encR op pn pg rd ra rb rc fmt md) = pn ∧
    wPg (encR op pn pg rd ra rb rc fmt md) = pg ∧ wRd (encR op pn pg rd ra rb rc fmt md) = rd ∧
    wRa (encR op pn pg rd ra rb rc fmt md) = ra ∧ wRb (encR op pn pg rd ra rb rc fmt md) = rb ∧
    wRc (encR op pn pg rd ra rb rc fmt md) = rc ∧ wFmt (encR op pn pg rd ra rb rc fmt md) = fmt ∧
    wMod (encR op pn pg rd ra rb rc fmt md) = md := by
  have hn := b2n_lt pn
  have key : (encR op pn pg rd ra rb rc fmt md / 2 ^ 55) % 2 = b2n pn := by
    simp only [encR, encHead]; omega
  refine ⟨?_, ?_, ?_, ?_, ?_, ?_, ?_, ?_, ?_⟩
  case refine_2 =>
    simp only [wPn, bitOf, Nat.shiftRight_eq_div_pow, key]
    cases pn <;> rfl
  all_goals
    simp only [wOp, wPg, wRd, wRa, wRb, wRc, wFmt, wMod, field, Nat.shiftRight_eq_div_pow, encR, encHead]
    omega

/-- The fields of a word of format I. -/
theorem encI_fields (ho : op < 256) (hg : pg < 8) (hd : rd < 32) (ha : ra < 32) (hi : imm < 2 ^ 32) :
    wOp (encI op pn pg rd ra imm) = op ∧ wPn (encI op pn pg rd ra imm) = pn ∧
    wPg (encI op pn pg rd ra imm) = pg ∧ wRd (encI op pn pg rd ra imm) = rd ∧
    wRa (encI op pn pg rd ra imm) = ra ∧ wImm (encI op pn pg rd ra imm) = imm := by
  have hn := b2n_lt pn
  have key : (encI op pn pg rd ra imm / 2 ^ 55) % 2 = b2n pn := by
    simp only [encI, encHead]; omega
  refine ⟨?_, ?_, ?_, ?_, ?_, ?_⟩
  case refine_2 =>
    simp only [wPn, bitOf, Nat.shiftRight_eq_div_pow, key]
    cases pn <;> rfl
  all_goals
    simp only [wOp, wPg, wRd, wRa, wImm, field, Nat.shiftRight_eq_div_pow, encI, encHead]
    omega

/-- The fields of a word of format M. -/
theorem encM_fields (ho : op < 256) (hg : pg < 8) (hd : rd < 32) (ha : ra < 32) (hb : rb < 32) (hf : fmt < 16)
    (hi : imm < 2 ^ 18) :
    wOp (encM op pn pg rd ra rb fmt imm) = op ∧ wPn (encM op pn pg rd ra rb fmt imm) = pn ∧
    wPg (encM op pn pg rd ra rb fmt imm) = pg ∧ wRd (encM op pn pg rd ra rb fmt imm) = rd ∧
    wRa (encM op pn pg rd ra rb fmt imm) = ra ∧ wRb (encM op pn pg rd ra rb fmt imm) = rb ∧
    wFmt (encM op pn pg rd ra rb fmt imm) = fmt ∧ wDisp (encM op pn pg rd ra rb fmt imm) = imm := by
  have hn := b2n_lt pn
  have key : (encM op pn pg rd ra rb fmt imm / 2 ^ 55) % 2 = b2n pn := by
    simp only [encM, encHead]; omega
  refine ⟨?_, ?_, ?_, ?_, ?_, ?_, ?_, ?_⟩
  case refine_2 =>
    simp only [wPn, bitOf, Nat.shiftRight_eq_div_pow, key]
    cases pn <;> rfl
  all_goals
    simp only [wOp, wPg, wRd, wRa, wRb, wFmt, wDisp, field, Nat.shiftRight_eq_div_pow, encM, encHead]
    omega

/-- The fields of a word of format B. -/
theorem encB_fields (pt cond off : Nat) (ho : op < 256) (hg : pg < 8) (hp : pt < 8) (hc : cond < 4) (hi : off < 2 ^ 32) :
    wOp (encB op pn pg pt cond off) = op ∧ wPn (encB op pn pg pt cond off) = pn ∧
    wPg (encB op pn pg pt cond off) = pg ∧ field (encB op pn pg pt cond off) 51 49 = pt ∧
    field (encB op pn pg pt cond off) 48 47 = cond ∧ wImm (encB op pn pg pt cond off) = off := by
  have hn := b2n_lt pn
  have key : (encB op pn pg pt cond off / 2 ^ 55) % 2 = b2n pn := by
    simp only [encB, encHead]; omega
  refine ⟨?_, ?_, ?_, ?_, ?_, ?_⟩
  case refine_2 =>
    simp only [wPn, bitOf, Nat.shiftRight_eq_div_pow, key]
    cases pn <;> rfl
  all_goals
    simp only [wOp, wPg, wImm, field, Nat.shiftRight_eq_div_pow, encB, encHead]
    omega

/-- The fields of a word of format S. -/
theorem encS_fields (sid o pm red : Nat) (ho : op < 256) (hg : pg < 8) (hs : sid < 16) (hq : o < 4) (ha : ra < 32)
    (hb : rb < 32) (hc : rc < 32) (hp : pm < 8) (hr : red < 4) :
    wOp (encS op pn pg sid o ra rb rc pm red) = op ∧ wPn (encS op pn pg sid o ra rb rc pm red) = pn ∧
    wPg (encS op pn pg sid o ra rb rc pm red) = pg ∧ field (encS op pn pg sid o ra rb rc pm red) 51 48 = sid ∧
    field (encS op pn pg sid o ra rb rc pm red) 47 46 = o ∧ field (encS op pn pg sid o ra rb rc pm red) 45 41 = ra ∧
    field (encS op pn pg sid o ra rb rc pm red) 40 36 = rb ∧ field (encS op pn pg sid o ra rb rc pm red) 35 31 = rc ∧
    field (encS op pn pg sid o ra rb rc pm red) 30 28 = pm ∧ field (encS op pn pg sid o ra rb rc pm red) 27 26 = red := by
  have hn := b2n_lt pn
  have key : (encS op pn pg sid o ra rb rc pm red / 2 ^ 55) % 2 = b2n pn := by
    simp only [encS, encHead]; omega
  refine ⟨?_, ?_, ?_, ?_, ?_, ?_, ?_, ?_, ?_, ?_⟩
  case refine_2 =>
    simp only [wPn, bitOf, Nat.shiftRight_eq_div_pow, key]
    cases pn <;> rfl
  all_goals
    simp only [wOp, wPg, field, Nat.shiftRight_eq_div_pow, encS, encHead]
    omega
end Words

/-- A tile that runs a program is seen to run it. -/
theorem running_of_runs {s : State} {t j : Nat} {x : JobSt} (h : RunsProgram s t j x) :
    running? s t = some (j, x, getTile s t) := by
  obtain ⟨hj, he, hx, hp, ho, ht, hf, hc, -⟩ := h
  simp [running?, runningJob?, hj, he, hx, hp, ho, ht, hf, hc]

/-- Issue on a tile whose word at PC is the instruction: the guard decides whether its effect takes place. -/
theorem issue_executes {s : State} {t j : Nat} {x : JobSt} {w : Nat} (lanes : Bool)
    (f : Nat → JobSt → TileSt → State → Issue) (h : Executes s t j x w) :
    issue t w lanes f s =
      if lanes = false ∧ guardOf (getTile s t) w = 0 then updTile t (fun y => { y with pc := y.pc + 1 }) s
      else
        match f j x (getTile s t) s with
        | .done s1 => updTile t (fun y => { y with pc := (getTile s t).pc + 1 }) s1
        | .jump dest s1 => goTo t (getTile s t).pc dest s1
        | .hold s1 => s1
        | .fault c => programFault t c (getTile s t).pc s
        | .data st o off s1 => dataFault t st (dataPlace (getTile s t).pc o off) s1
        | .ends st det res => programOver t (setEnding t st det res s) := by
  obtain ⟨hr, hw, hp⟩ := h
  have he : smFind? 1 x.remoteErr = none := hr.2.2.2.2.2.2.2.2
  have next : ∀ s1, goTo t 8192 ((getTile s t).pc + 1) s1 = updTile t (fun y => { y with pc := (getTile s t).pc + 1 }) s1 := by
    intro s1
    have : (0 : Int) ≤ (getTile s t).pc + 1 ∧ ((getTile s t).pc + 1 : Int) < 8192 := by omega
    simp only [goTo, if_pos this]
    congr 1
  unfold issue
  simp only [running_of_runs hr, he, hw, ne_eq, not_true_eq_false, if_false, Bool.and_eq_true, Bool.not_eq_true',
    beq_iff_eq, next]
  split
  · exact updTile_congr _ _ _ _ rfl
  · rfl

/-- Issue of an instruction that changes registers and applies its guard as a whole. -/
theorem issueRegs_whole {s : State} {t j : Nat} {x : JobSt} {w : Nat} (f : TileSt → TileSt)
    (h : Executes s t j x w) : issueRegs t w false f s = issued t (wPn w) (wPg w) f s := by
  rw [issueRegs, issue_executes _ _ h]
  have hg : guardBitsOf s t (wPn w) (wPg w) = guardOf (getTile s t) w := rfl
  simp only [issued, hg]
  by_cases g : guardOf (getTile s t) w = 0
  · simp [g]
  · simp only [g, and_false, if_false, updTile_updTile]
    exact updTile_congr _ _ _ _ rfl

/-- Issue of an instruction that changes registers and applies its guard lane by lane. -/
theorem issueRegs_lanes {s : State} {t j : Nat} {x : JobSt} {w : Nat} (f : TileSt → TileSt) (h : Executes s t j x w) :
    issueRegs t w true f s = issuedLanes t f s := by
  rw [issueRegs, issue_executes _ _ h]
  simp only [issuedLanes, reduceCtorEq, false_and, if_false, updTile_updTile]
  exact updTile_congr _ _ _ _ rfl

end Sys2Proof.Machine
end

