-- ==== Sys2Proof/Machine/Lands.lean ====
section
/-!
DEFINITION. The land grid (spec/22 R442-R444): which signal a land carries, and the number of a high-speed pair's cells in the
boundary register (R446).
-/
namespace Sys2Proof.Machine

/-- A lane of a high-speed pair: a lane of a CXL port, a physical lane or the forwarded clock (9) of a Narlin port, a lane or
the forwarded clock (4) of the mirror port. -/
inductive HsLane where
  | cxl (port lane : Nat)
  | nl (port lane : Nat)
  | mir (lane : Nat)
deriving DecidableEq, Repr

/-- The low-speed lands of Table 22-3. -/
inductive LsLand where
  | refclk100P | refclk100N | refclk156P | refclk156N | refclk25 | t1sP | t1sN | uartTxd | uartRxd | tck | tms | tdi | tdo | trstN
  | pfailN | claimClrN
  | perstN (port : Nat)
  | test (n : Nat)
deriving DecidableEq, Repr

/-- What a land carries. -/
inductive Land where
  /-- a land of a pair: transmit or receive, positive or negative -/
  | hs (tx pos : Bool) (lane : HsLane)
  | ls (l : LsLand)
  | gnd | vrtn | vin
deriving DecidableEq, Repr

/-- The lane that group `g` of a half of a band carries (Table 22-2). -/
def bandLane (k g : Nat) (right : Bool) : Option HsLane :=
  if k < 4 then
    if right then (if g ≤ 6 then some (.cxl k (9 + g)) else none) else some (.cxl k (g - 1))
  else if k < 11 then some (.nl (2 * (k - 4) + b2n right) (g - 1))
  else if !right && decide (g ≤ 5) then some (.mir (g - 1)) else none

/-- A land of rows 1-48 (R443), by its row index and column. -/
def hsLand (row col : Nat) : Land :=
  let k := (row - 1) / 4
  let c := if col ≤ 30 then col else col - 32
  let g := (c + 2) / 3
  let pair (tx : Bool) : Land :=
    match bandLane k g (decide (32 < col)) with
    | some l => if c % 3 = 0 then .gnd else .hs tx (c % 3 == 1) l
    | none => .gnd
  if row % 4 = 1 then pair true else if row % 4 = 3 then pair false else .gnd

/-- A land of rows 49-62 (Table 22-3): rows BL, BP, BT, CD and CE have the indices 49, 52, 53, 61 and 62. -/
def lsLand (row col : Nat) : Land :=
  match row, col with
  | 49, 1 => .ls .refclk100P
  | 49, 2 => .ls .refclk100N
  | 49, 4 => .ls .refclk156P
  | 49, 5 => .ls .refclk156N
  | 49, 7 => .ls .refclk25
  | 52, 1 => .ls .t1sP
  | 52, 2 => .ls .t1sN
  | 52, 4 => .ls .uartTxd
  | 52, 5 => .ls .uartRxd
  | 52, 7 => .ls .tck
  | 52, 8 => .ls .tms
  | 52, 9 => .ls .tdi
  | 52, 10 => .ls .tdo
  | 52, 11 => .ls .trstN
  | 52, 13 => .ls .pfailN
  | 52, 14 => .ls .claimClrN
  | 52, c => if 16 ≤ c ∧ c ≤ 19 then .ls (.perstN (c - 16)) else .gnd
  | 53, c => if c ≤ 20 then .ls (.test (c - 1)) else .gnd
  | 61, _ => .vrtn
  | 62, _ => .vin
  | _, _ => .gnd

/-- The land at a position, by row index 1-62 and column; columns 31 and 32 carry none (R442). -/
def landAt (row col : Nat) : Option Land :=
  if row = 0 ∨ 62 < row ∨ col = 0 ∨ 62 < col ∨ col = 31 ∨ col = 32 then none
  else some (if row ≤ 48 then hsLand row col else lsLand row col)

/-- The number of a pair's cell among the 209 of its direction: the CXL lanes, the Narlin lanes and clocks, the mirror port's
(R446; log entry 108). -/
def pairOf : HsLane → Nat
  | .cxl p l => 16 * p + l
  | .nl p l => 64 + 10 * p + l
  | .mir l => 204 + l

/-- Does boundary scan cover a land, by a cell of its own or its pair's (R446)? -/
def scanned : Land → Bool
  | .hs _ _ _ => true
  | .ls l =>
    (match l with
    | .uartTxd => true
    | .pfailN => true
    | .uartRxd => true
    | .claimClrN => true
    | .perstN _ => true
    | .refclk25 => true
    | .refclk100P => true
    | .refclk100N => true
    | .refclk156P => true
    | .refclk156N => true
    | _ => false)
  | _ => false

end Sys2Proof.Machine
end

