-- ==== Sys2Proof/Tests/Slice0.lean ====
section
/-!
SUPPORT. Tests: ill-formed commands are refused by wellFormed, and for every statement with hypotheses a state and
operands that meet them, each built from the state at power-on by a few changes.
-/
namespace Sys2Proof.Tests
set_option Elab.async false
open Sys2Proof.Machine Sys2Proof.Safety

/-! ## Well-formed commands -/

/-- One command outside its operands' widths for each check of wellFormed. -/
theorem test_ill_formed_commands_are_refused :
    ([Instr.counterClear 64 0 0 0, .ringEntryReservation 9 0 0 0, .counterClear 0 65536 0 0, .counterClear 0 0 256 0, .tileHeartbeat 68, .cxlPortReset { port := 4, lanes := 16 }, .perstRelease { port := 0, lanes := 2 }, .hostDeclareDead 32,
   .create [], .patrolScrubRead (2 ^ 34) [], .dqsDriftAdjust 128 0 0 0 0, .refreshDue 8 false, .blockMarkInit 3584, .rowRemapComplete 136 0 0,
   .rowRemapComplete 0 16 0, .rowRemapComplete 0 0 (2 ^ 18), .tileClearDone 64, .queueAssign (2 ^ 32), .qCfgWrite 0 1024 0,
   .ctxCloseComplete 0 1024, .reductionPacket 0 0 [] 0 false 0, .add 64 false 0 0 0 0, .add 0 false 8 0 0 0, .add 0 false 0 32 0 0,
   .vld 0 false 0 0 0 0 16 0, .vld 0 false 0 0 0 0 0 (2 ^ 18), .sst 0 false 0 0 0 0 0 0 0 2, .mzero 0 false 0 4, .putm 0 0 [] false,
   .piccoloInit 16, .rateSwitch 15, .ts1 0 9 false (zeros 16), .flitReceive 15 0 [], .flitReceive 0 0 (List.replicate 10 []), .qualificationEnd 0 [] (List.replicate 10 []),
   .eyeScanCommandEnd [(4032, 0)] [], .eqBlock 0 0 0 { precode := false, preset := some 8 } (zeros 16), .sendingOpportunity 20,
   .shapingCreditAccrual 0 65 0, .shapingCreditAccrual 0 0 5, .leaseExpiry 3, .referenceLoss 24, .lineHead [[4]], .objRead 68 0 0 0,
   .requestTimeout 0 4096, .objectWrite (.pd 64) 0 0 0 [], .wopRead 0 0 0 0 (some []), .partBlocksWrite 0 (2 ^ 7168)]).all (fun c => !wellFormed c) = true := by decide +kernel

theorem test_well_formed_commands_are_accepted :
    [Instr.counterClear 63 65535 255 0, .add 63 true 7 31 31 31, .create (zeros 32), .flitReceive 13 255 (List.replicate 9 (List.replicate 128 3)), .perstRelease { port := 3, lanes := 4 }, .sendingOpportunity 63,
     .leaseExpiry 2, .referenceLoss 156, .objRead 67 0 0 0].all wellFormed = true := by decide +kernel

/-! ## States -/

/-- The module after a cold start: READY, holding its own role, its CXL ports trained with credit. -/
def up : State := { State.reset with
  ready := true
  power := { power0 with mainOn := true, phase := 0x0A, kind := 1, vin := 4800, ref25 := true, ref100 := true, ref156 := true }
  cxl := { State.reset.cxl with trained := 15, perst := 0, gated := 0, creditHeld := 0 }
  buddy := { State.reset.buddy with own := { State.reset.buddy.own with code := 1 }, phases := 26 }
  coh := { State.reset.coh with tilesUp := [0, 1, 2] } }

/-- Host 5 LIVE on LD 3 of port 1, whose block 7 of the DPA is pool block 9. -/
def hosted : State := setObj 0x2210 6 (1 + 2 ^ 7 + 3 * 2 ^ 8) { up with hosts := { up.hosts with
  ldMap := [((1 * 16 + 3) * 8192 + 7, { block := 9, rw := true, region := 2, kind := 0 })] } }

/-! ## The block, counters (parts of spec/00) -/

theorem witness_PoweredTimeRunsFromPowerOn : State.reset.power.powered = true ∧
    ({ State.reset with power := { power0 with powered := false } } : State).power.powered = false ∧
    (∃ t, exec .uvWarning State.reset = .next t) := ⟨rfl, rfl, _, rfl⟩

theorem witness_EveryStepKeepsTheInvariant : stateInv up = true ∧ ∃ t, step { up with pending := [.poweredTimeTick] } = .next t ∧ t.ptime = 10 :=
  ⟨by decide, _, rfl, by decide⟩

theorem witness_CommandsKeepTheQueueAndAddMessages : ∃ t, exec (.fifeStatus) up = .next t ∧ t.outbox.length = 1 := ⟨_, rfl, by decide⟩

theorem witness_CountersSaturateWithOneEvent :
    (pobj (setObj 0x3900 4 0xFFFFFFFFFFFE up) 0 0x3900 4 % 2 ^ 48 + 1 ≤ 0xFFFFFFFFFFFF) ∧
    (0xFFFFFFFFFFFF < pobj (setObj 0x3900 4 0xFFFFFFFFFFFF up) 0 0x3900 4 % 2 ^ 48 + 1 ∧ bitOf (pobj (setObj 0x3900 4 0xFFFFFFFFFFFF up) 0 0x3900 4) 63 = false) ∧
    (0xFFFFFFFFFFFF < pobj (setObj 0x3900 4 (2 ^ 63 + 0xFFFFFFFFFFFF) up) 0 0x3900 4 % 2 ^ 48 + 1 ∧
      bitOf (pobj (setObj 0x3900 4 (2 ^ 63 + 0xFFFFFFFFFFFF) up) 0 0x3900 4) 63 = true) ∧
    objKey 0 0x3900 4 ≠ objKey 0 0x3900 3 ∧ (objRow? 0x3900 4).map (·.kind) = some .counterRws ∧ inWindow 0x3900 = false ∧
    (objRow? 0x6600 2).map (·.kind) = some .counter ∧ inWindow 0x6600 = true ∧ 0 < geomParts up := by decide +kernel

theorem witness_ModularComparisonOfClassWValues : laterW 16 1 65535 = true ∧ laterW 16 65535 1 = false ∧ laterW 16 0x8000 0 = false := by decide

theorem witness_CountersAndTimeAdvance : (objRow? 0x3900 4).map (·.kind) = some .counterRws ∧ up.power.powered = true ∧ up.mram.minutes < 60 ∧
    up.mram.hours < 2 ^ 32 ∧ up.sync.held = [] ∧ piccoloStop 8 15 = true ∧ piccoloStop 8 2 = false ∧
    (∃ u, exec (.ringEntryReservation 8 2 0 1) up = .next u ∧ smGet false (ringKey 8 2 0) u.rings = true) ∧
    (∃ u, exec .serviceMinuteCommit { up with mram := { up.mram with minutes := 59 } } = .next u ∧ u.mram.minutes = 0 ∧ u.mram.hours = 1) :=
  ⟨by decide +kernel, rfl, by decide, by decide, rfl, rfl, rfl, ⟨_, rfl, by decide +kernel⟩, _, rfl, by decide, by decide⟩

/-! ## Hosts and regions (spec/03) -/

theorem witness_HostAccessesReachTheirLine :
    (cxlOpen hosted 1 = true ∧ dpaTarget hosted 1 3 (7 * 2 ^ 28 + 64) = .pool 5 (9 * 2 ^ 28 + 64) true ∧ servesBlock hosted (9 * 2 ^ 28 + 64) = true ∧ poolQuiet hosted ∧
      lineFree hosted ((9 * 2 ^ 28 + 64) / 64) ∧ lineWtr hosted ((9 * 2 ^ 28 + 64) / 64) = false) ∧
    (let s : State := { hosted with buddy := { hosted.buddy with own := { hosted.buddy.own with code := 3 } } }
     cxlOpen s 1 = true ∧ dpaTarget s 1 3 (7 * 2 ^ 28 + 64) = .pool 5 (9 * 2 ^ 28 + 64) true ∧ servesBlock s (9 * 2 ^ 28 + 64) = false) ∧
    dpaTarget hosted 1 3 (8 * 2 ^ 28) = .unmapped ∧ dpaTarget hosted 3 15 0 = .unmapped :=
  ⟨⟨by decide +kernel, by decide +kernel, by decide +kernel, ⟨rfl, rfl, rfl, fun _ h => nomatch h⟩,
    ⟨by decide +kernel, by decide +kernel, by decide +kernel, by decide +kernel, by decide +kernel, by decide +kernel, rfl, by decide +kernel⟩,
    by decide +kernel⟩, ⟨by decide +kernel, by decide +kernel, by decide +kernel⟩, by decide +kernel, by decide +kernel⟩

/-- A BISnpInv to host 5 on line 4 is outstanding. -/
def snooped : State := { hosted with hosts := { hosted.hosts with snoops := [(4, { hosts := [5], data := false, drop := false })] } }

theorem witness_HostEventsActOnTheHostTable :
    snoopOut snooped 5 4 = true ∧ poolQuiet snooped ∧ tagHstate (lineTag snooped 4) = 0 ∧ 5 < geomHosts snooped ∧ hostState snooped 5 = 1 ∧
    hosted.hosts.snoops = [] ∧ hostState hosted 6 = 0 ∧
    (({ hosted with hosts := { hosted.hosts with sweeps := [(5, [9])] } } : State).hosts.sweeps.find? (fun e => e.1 == 5) = some (5, [9]) ∧ hosted.dram.cells = []) ∧
    (field 1 23 22 = 0 ∧ hostState up 5 = 0 ∧ field 1 1 0 ≤ 1 ∧ ldsOfEntry 1 = []) :=
  ⟨by decide +kernel, ⟨rfl, rfl, rfl, fun _ h => nomatch h⟩, by decide +kernel, by decide +kernel, by decide +kernel, rfl, by decide +kernel,
    ⟨by decide, rfl⟩, by decide, by decide +kernel, by decide, by decide +kernel⟩

/-- The 32 bytes of a REGION_CMD on region 2: FLAGS, count, first block, LD (port 1, LD 3), VIEW, RIGHT, first DPA block. -/
def regionBytes (op flags n first view right dpa : Nat) : Bytes :=
  leBytes 1 op ++ leBytes 1 flags ++ leBytes 2 2 ++ leBytes 4 n ++ leBytes 4 first ++ [1, 3] ++ leBytes 1 view ++ leBytes 1 right ++ leBytes 4 dpa ++ zeros 12

def region (st : RegionState) (flags : Nat) (drafts : List Draft) (ops : List RegOp) (s : State) : State :=
  updRegion 2 (fun _ => { state := st, flags := flags, first := 9, blocks := 1, gen := 3, drafts := drafts, ops := ops }) s

/-- The same module with no block of host 5 mapped. -/
def unmappedHost : State := { hosted with hosts := { hosted.hosts with ldMap := [] } }

theorem witness_RegionCommandsChangeTheirRegion :
    up.ready = true ∧ up.hosts.cmdRunning = false ∧
    rcStatus (withOp 1 (regionBytes 1 0 1 9 0 0 0)) up = .ok ∧
    rcStatus (withOp 2 (regionBytes 2 0 0 0 0 1 7)) (region .ready 0 [] [] unmappedHost) = .ok ∧
    (rcStatus (withOp 3 (regionBytes 3 0 0 0 0 0 0)) (region .mapped 0 [] [] { up with hosts := hosted.hosts }) = .ok ∧
      hostOfLd? (region .mapped 0 [] [] { up with hosts := hosted.hosts }) 19 = none) ∧
    rcStatus (withOp 4 (regionBytes 4 0 1 11 0 0 0)) (region .ready 16 [] [] up) = .ok ∧
    rcStatus (withOp 5 (regionBytes 5 0 0 0 0 0 0)) (region .ready 0 [] [] up) = .ok ∧
    rcStatus (withOp 6 (regionBytes 6 0 0 0 0 0 0)) up = .ok ∧
    rcStatus (withOp 1 (regionBytes 1 0 0 9 0 0 0)) up ≠ .ok := by decide +kernel

theorem witness_RegionFillsEndWithZeroedBlocks :
    (getRegion (region .filling 0 [] [] up) 2).state = .filling ∧ (getRegion (region .sanitising 0 [] [] up) 2).state = .sanitising ∧
    (getRegion (region .releasing 0 [] [] up) 2).state = .releasing ∧ up.hosts.recalls = [] ∧
    9 ∈ regionBlocks (getRegion (region .filling 0 [] [] up) 2) ∧ 8 ∉ regionBlocks (getRegion (region .filling 0 [] [] up) 2) := by decide +kernel

/-- Region 2 of one block, with its extent at DPA 896 GiB on LD 3 of port 1. -/
def extended : State := region .ready 0 [] [] { up with hosts := { up.hosts with
  extents := [{ ld := 19, region := 2, first := 9, blocks := 1, dpa := 3584, live := false, releasing := false }] } }

theorem witness_DynamicCapacityExtentsComeAndGo :
    extentOk (region .ready 0 [] [] up) 19 ([2, 0] ++ zeros 14) (3584 * 2 ^ 28) (9 * 2 ^ 28) (2 ^ 28) = true ∧
    extentOk (region .ready 0 [] [] up) 19 ([2, 0] ++ zeros 14) 0 (9 * 2 ^ 28) (2 ^ 28) = false ∧
    (extentAt? extended 19 (3584 * 2 ^ 28)).map (fun x => (x.live, x.releasing)) = some (false, false) ∧ hostOfLd? extended 19 = none := by
  decide +kernel

def drafted (ops : List RegOp) : State := region .mapped 16 [{ ld := 19, first := 11 }] ops up

theorem witness_PublishingSwapsTheDraft :
    poolQuiet (drafted []) ∧ (drafted []).dram.cells = [] ∧ (getRegion (drafted []) 2).state ≠ .unused ∧
    draftOf? (getRegion (drafted []) 2) 19 = some { ld := 19, first := 11 } ∧ (getPub (drafted []) 19).busy = false ∧ (getRegion (drafted []) 2).gen = 3 ∧
    (let s := drafted [{ kind := .publish, ld := 19, token := 1, expect := 3, copying := true }]
     (s.hosts.regions.map (·.1)).Nodup ∧ s.hosts.recalls = [] ∧ (∀ e ∈ s.hosts.regions, e.1 ≠ 2 → e.2.ops = []) ∧
     (copyBlocks 2 9 11 1 s).1 = true ∧ (copyBlocks 2 9 11 1 s).2.hosts = s.hosts) := by
  refine ⟨⟨rfl, rfl, rfl, ?_⟩, rfl, ?_, ?_, ?_, ?_, ?_⟩ <;> decide +kernel

/-! ## DRAM (spec/04) -/

/-- The scrub is on, and block 0 is initialised. -/
def scrubbing : State := setInit 0 true (setObj 0x2311 0 1 up)
/-- Line 4 holds bytes that decode cleanly. -/
def stored : State := writeLine 4 (List.replicate 64 0x5A) 0 scrubbing
/-- Line 8 is in error in one symbol; line 12 beyond correction. -/
def storedWrong : State := storeLine 8 ((encodeLine (List.replicate 64 0x11) 0).set 3 0) scrubbing
def storedLost : State := storeLine 12 ((List.range 68).map (fun i => BitVec.ofNat 8 (i * i + 7))) scrubbing

theorem witness_AcceptedRequestsAndScrub : poolQuiet stored ∧ lineFree stored 4 ∧ obj stored 0x2311 0 = 1 ∧ blockInit stored (4 * 64) = true ∧
    (obj storedWrong 0x2311 0 = 1 ∧ blockInit storedWrong (8 * 64) = true ∧ storedWrong.dram.heldRows = [] ∧
      obj storedLost 0x2311 0 = 1 ∧ blockInit storedLost (12 * 64) = true ∧ storedLost.dram.heldRows = []) ∧
    (match rsDecode (receivedLine storedWrong 8) with | .corrected k _ => k == 64 | _ => false) = true ∧
    rsDecode (receivedLine storedLost 12) = .uncorrectable ∧ obj (setObj 0x2311 0 0 up) 0x2311 0 ≠ 1 := by
  refine ⟨⟨rfl, rfl, rfl, fun _ h => nomatch h⟩, ⟨?_, ?_, ?_, ?_, ?_, ?_, rfl, ?_⟩, ?_, ?_, ?_, ?_, ?_, ?_⟩ <;> decide +kernel

/-- Set 3 is Elastic and under panic, with one refresh owed. -/
def panicked : State := setObj 0x2310 4 1 (updRefresh 3 (fun r => { r with panic := true, owed := 1 }) up)

theorem witness_DriftAndRefresh :
    (obj panicked 0x2310 4 = 1 ∧ (getRefresh panicked 3).panic = true ∧ (getRefresh panicked 3).owed < obj panicked 0x4310 4) ∧
    (obj panicked 0x2310 4 = 1 ∧ obj (setObj 0x4310 4 1 panicked) 0x4310 4 ≤ (getRefresh panicked 3).owed) ∧
    obj up 0x2310 4 ≠ 1 ∧ ((getRefresh (updRefresh 3 (fun r => { r with owed := 1 }) up) 3).owed = 1) := by decide +kernel

/-- The 80 bytes of a CHK_CMD at an address. -/
def chkBytes (pa : Nat) : Bytes := leBytes 8 0 ++ leBytes 5 pa ++ zeros 67

theorem witness_CheckerCommandsActOnOneLine :
    (let b := slice (chkBytes (4 * 64)) 0 80
     (slice b 1 7).any (· != 0) = false ∧ (slice b 13 3).any (· != 0) = false ∧ leAt b 8 5 = 4 * 64 ∧ 4 * 64 < metaBase) ∧
    checkerOk stored 0 = true ∧ leAt (slice (chkBytes 1) 0 80) 8 5 % 64 ≠ 0 ∧
    checkerOk (region .mapped 0 [] [] up) 9 = false ∧ geomBlocks up = 3584 := by decide +kernel

/-- A row is held for its copy, and logical stack 2 is being evacuated to spare 28. -/
def evacuating : State := { up with dram := { up.dram with heldRows := [(5 * 16 + 3) * 2 ^ 18 + 7], evac := some { lstack := 2, spare := 28, ptr := 0 } } }

theorem witness_RowsAndStacksAreReplaced :
    (5 * 16 + 3) * 2 ^ 18 + 7 ∈ evacuating.dram.heldRows ∧ poolQuiet evacuating ∧ 2 < geomStacks up ∧ up.dram.evac = none ∧
    spareFor up (physStack up 2) = some 28 ∧ spareFor { up with mram := { up.mram with deadStacks := [28, 33] } } (physStack up 2) = none ∧
    geomStacks up ≤ 32 ∧ evacuating.dram.evac = some { lstack := 2, spare := 28, ptr := 0 } ∧ evacuating.dram.evacWait = [] := by
  refine ⟨?_, ⟨rfl, rfl, rfl, fun _ h => nomatch h⟩, ?_, rfl, ?_, ?_, ?_, rfl, rfl⟩ <;> decide +kernel

/-! ## Partitions, queues and jobs (spec/02, spec/05) -/

/-- Is a result of an operand access its bytes? The bytes of such a result. -/
def okBytes? (r : OpRes × State) : Option Bytes := match r.1 with | .ok d => some d | _ => none

/-- Partition 0 is ACTIVE with blocks 0 and 1 read-write and local queues 0-3 on module queues 4-7; queue 4 is enabled with
one descriptor waiting. Every block has its INIT bit. -/
def active : State :=
  updQueue 4 (fun q => { q with en := true, descLog2 := 5, compLog2 := 5, tail := 1, tiles := 3 })
    (updPart 0 (fun x => { x with qFirst := 4, qCount := 4 })
      (setObj 0x3601 1 0 (setObj 0x3601 3 0 (setObj 0x2600 1 0 (setObj 0x2110 1 10 (setObj 0x3110 1 2 { up with dram := { up.dram with init := BitVec.allOnes 3584 } }))))))

/-- A descriptor's 128 bytes: OPC, then values at offsets, each of a width in bytes. -/
def descr (opc : Nat) (fields : List (Nat × Nat × Nat)) : Bytes :=
  fields.foldl (fun d f => splice d f.1 (leBytes f.2.1 f.2.2)) (splice (zeros 128) 0 (leBytes 1 opc))

/-- A local operand of one extent. -/
def operand (va addr len : Nat) (k : AccKind) : Operand := { va := va, len := len, kind := k, exts := if len = 0 then [] else [{ ep := 0, addr := addr, len := len }] }

/-- A running job of partition 0 and queue 5, at a tile or none. -/
def jobOf (d : Bytes) (ops : List Operand) (tile : Nat) : JobSt :=
  { part := 0, queue := 5, index := 3, desc := d, operands := ops, phase := .running, tile := tile, status := .ok, detail := 0, result := 0,
    reason := 0, ran := true, started := 0, delayed := false, remote := [], outstanding := [], remoteErr := [], skipped := 0, stage := 0, count := 0,
    checked := none, att := none }

/-- Job 1 in the table. -/
def withJob (x : JobSt) : State := { active with work := { active.work with jobs := [(1, x)], nextJob := 2 } }

theorem witness_TilesAndQueuesAreAssigned :
    (2 < geomTiles active ∧ tileOwner active 2 = 0xFF ∧ tileState active 2 = 0 ∧ tileLines active 2 = [] ∧ 1 < geomParts active) ∧ geomTiles up ≤ 64 ∧
    (let s := setObj 0x3601 3 1 up
     tileState s 2 = 1 ∧ tileLines s 2 = [] ∧ tileJobs s 2 = [] ∧ (getTile s 2).replace = false) ∧
    (let s := setObj 0x3601 3 1 (withJob (jobOf (descr 0x11 []) [] 2))
     tileState s 2 = 1 ∧ tileJobs s 2 ≠ []) ∧
    (let s : State := { active with coh := { active.coh with lines := [(lineKey 2 4, { st := .s, data := zeros 64, job := none, way := 0, fault := .none })] } }
     2 < geomTiles s ∧ tileOwner s 2 = 0xFF ∧ tileState s 2 = 0 ∧ tileLines s 2 ≠ [] ∧
     tileState (setObj 0x3601 3 1 s) 2 = 1 ∧ tileJobs (setObj 0x3601 3 1 s) 2 = [] ∧ tileLines (setObj 0x3601 3 1 s) 2 ≠ []) ∧
    (100 + 256 ≤ geomQueues up ∧ (getPart up 1).qCount = 0 ∧ (∀ e ∈ up.work.parts, e.1 ≠ 1 → e.2.qCount = 0)) ∧
    (let v := 16 + 1
     ∀ n ∈ List.range 4, bitOf v (n * 5 + 4) = true → n < obj up 0x110A 0 ∧ field v (n * 5 + 3) (n * 5) < geomLds up ∧
      ∀ q ∈ List.range 64, q ≠ 0 → 16 * n + field v (n * 5 + 3) (n * 5) ∉ partLds up q) := by
  refine ⟨?_, ?_, ?_, ?_, ?_, ⟨?_, ?_, ?_⟩, ?_⟩
  · decide +kernel
  · decide +kernel
  · decide +kernel
  · decide +kernel
  · decide +kernel
  · decide +kernel
  · decide +kernel
  · intro e h; cases h
  · decide +kernel

/-- Queue 4 with a job sealed from it: not drained. -/
def busyQueue : State := updQueue 4 (fun q => { q with en := false }) (withJob { jobOf (descr 0 []) [] 0xFF with queue := 4 })

theorem witness_WindowRegistersActOnTheirQueue :
    localQueue? active 0 0 = some 4 ∧ (getQueue active 4).en = true ∧ (getQueue active 4).held = [] ∧
    (localQueue? active 0 3 = some 7 ∧ (getQueue active 7).en = false ∧ qDrained active 7 = true) ∧
    (localQueue? busyQueue 0 0 = some 4 ∧ (getQueue busyQueue 4).en = false ∧ qDrained busyQueue 4 = false) ∧
    (let x := getQueue active 4
     let d (t : Nat) := (t + 65536 - x.head) % 65536
     ((x.tail + 65536 - x.head) % 65536 < d 32 ∧ d 32 ≤ 2 ^ x.descLog2) ∧ ¬ d 33 ≤ 2 ^ x.descLog2 ∧ d 1 = (x.tail + 65536 - x.head) % 65536) ∧
    (let s := updPart 0 (fun x => { x with msix := [(7, { addr := 0, data := 0, control := 1 })], pba := 128 }) active
     bitOf (smGet msix0 7 (getPart s 0).msix).control 0 = true ∧ (getPart s 0).pba.getLsbD 7 = true ∧ (getPart s 0).pba.getLsbD 8 = false) ∧
    partState up 0 ≠ 2 := by decide +kernel

theorem witness_RootsAndDrains :
    (partHolds active 0 (field 1 39 17 * 2 ^ 17) = true ∧ 0 < geomParts active) ∧
    (windowOpenFor active 0 = true ∧ (getPart active 0).di = [] ∧ active.work.jobs.filter (fun e => e.2.part == 0 && touchesRange e.2 65536 65536) = []) ∧
    (let s := withJob (jobOf (descr 2 []) [operand 65536 64 64 .write] 0xFF)
     windowOpenFor s 0 = true ∧ (getPart s 0).di = [] ∧ s.work.jobs.filter (fun e => e.2.part == 0 && touchesRange e.2 65536 65536) ≠ []) := by
  decide +kernel

/-- Queue 4's descriptor has been fetched. -/
def fetched (d : Bytes) : State := updQueue 4 (fun q => { q with fetched := some (.ok, d) }) active

/-- Queue 6's completion ring at a VA that the tables in block 0 map to 0x60000000 in block... its own 32 MiB leaf. -/
def mapped : State :=
  let table (s : State) : State :=
    storeLine ((2 ^ 20 + 8 * 7) / 64) (encodeLine (zeros 56 ++ leBytes 8 (3 + 12 + 2 ^ 25)) 0)
      (storeLine 0 (encodeLine (zeros 56 ++ leBytes 8 (1 + 2 ^ 20)) 0) s)
  setPobj 0 0x6100 0 1 (updQueue 5 (fun q => { q with compBase := 7 * 2 ^ 34 + 7 * 2 ^ 25, compLog2 := 4 })
    (table (withJob { jobOf (descr 0 []) [] 0xFF with phase := .ended })))

theorem witness_JobsAreSealedDispatchedAndRetired :
    (let s := fetched (descr 0 [])
     queuePart? s 4 = some 0 ∧ partState s 0 = 2 ∧ (getQueue s 4).en = true ∧ (getQueue s 4).head ≠ (getQueue s 4).tail ∧ (queueJobs s 4).length < 255 ∧
     (getQueue s 4).copied = none ∧ (getQueue s 4).fetched = some (.ok, descr 0 []) ∧ (descr 0 []).length = 128 ∧
     (let s0 := takeHead 4 (some (descr 0 [])) s
      headerCheck s0 0 (getQueue s0 4) (descr 0 []) = none ∧ progRunCheck s0 0 (descr 0 []) = none ∧
      (∃ ops s1, sealAll 0 (descr 0 []) (operandForm (descr 0 [])) s0 = (.ok ops, s1)))) ∧
    (getQueue (updQueue 4 (fun q => { q with copied := some (descr 0 []) }) active) 4).copied = some (descr 0 []) ∧
    (let s := fetched (descr 0xFE [])
     let s0 := takeHead 4 (some (descr 0xFE [])) s
     ∃ st off, headerCheck s0 0 (getQueue s0 4) (descr 0xFE []) = some (st, off) ∧ off < 2 ^ 64) ∧
    (let x : JobSt := { jobOf (descr 0x11 []) [] 0xFF with phase := .sealed, queue := 4 }
     let s := withJob x
     mayDispatch s 1 x = true ∧ dispatchCheck s x = none ∧ tileTakes s x 0 = true ∧ admitJob s x = .served ∧ dOpc x.desc ≠ 0x51) ∧
    (let x : JobSt := { jobOf (descr 0x02 []) [operand 0 64 64 .write] 0xFF with phase := .sealed, queue := 4 }
     let s := setObj 0x4503 0 0 (withJob x)
     mayDispatch s 1 x = true ∧ dispatchCheck s x = none ∧ admitJob s x = .refused 0x11) ∧
    (let x : JobSt := { jobOf (descr 0x02 [(1, 1, 2)]) [operand 0 64 64 .write] 0xFF with phase := .sealed, queue := 4 }
     let s := withJob x
     dNoWait x.desc = true ∧ mayDispatch s 1 x = true ∧ dispatchCheck s x = none) ∧
    (let s := withJob { jobOf (descr 0 []) [] 0xFF with phase := .ended }
     (getQueue s 5).held = [] ∧ ringRoom (getQueue (updQueue 5 (fun q => { q with ctail := 1 }) s) 5) = false) := by
  refine ⟨⟨?_, ?_, ?_, ?_, ?_, ?_, ?_, ?_, ?_, ?_, _, _, rfl⟩, ?_, ⟨_, _, rfl, ?_⟩, ?_, ?_, ?_, ?_⟩ <;> decide +kernel

/-- Did an access succeed? -/
def isOk (r : OpRes × State) : Bool := (okBytes? r).isSome

theorem witness_JobsAreDelayedAndRetired :
    (let x : JobSt := { jobOf (descr 0x02 [(1, 1, 2)]) [operand 0 64 64 .write] 0xFF with phase := .sealed, queue := 4 }
     let s := setObj 0x4500 1 (2 ^ 128 + 2 ^ 160) (withJob x)
     dNoWait x.desc = true ∧ mayDispatch s 1 x = true ∧ dispatchCheck s x = none ∧ admitJob s x = .delayed 0x01) ∧
    (let x : JobSt := { jobOf (descr 0 []) [] 0xFF with phase := .ended }
     getJob? mapped 1 = some x ∧ (getQueue mapped 5).held = [] ∧ ringRoom (getQueue mapped 5) = true ∧
     (let b := splice (recordBytes mapped x) 17 [if bitOf (getQueue mapped 5).ctail 4 then 0 else 1]
      match xlate 0 .write (7 * 2 ^ 34 + 7 * 2 ^ 25) mapped with
      | (.ok o, s1) => o.ep == ownEp s1 && o.addr == 2 ^ 25 &&
        (match tryMem (.front 0) .walker (.write o.addr (b.map some)) s1 with | (.ok _, _) => true | _ => false)
      | _ => false) = true) ∧
    (let x := jobOf (descr 0 []) [] 0xFF
     let s : State := { withJob x with ptime := 2 * jobBudgetUs (withJob x) x * 1000 }
     x.ran = true ∧ x.started + recoveryTime s x + 2 * jobBudgetUs s x * 1000 ≤ s.ptime ∧ partState s x.part = 2) := by decide +kernel

/-- Job 1 of an operation on context 3 of partition 0, which is OPEN or not under generation 255. -/
def inContext (opc : Nat) (isOpen : Bool) (closing : Option Nat) : State :=
  updCtx 0 3 (fun _ => { isOpen := isOpen, gen := 255, closing := closing }) (withJob (jobOf (descr opc [(2, 2, 0x8003)]) [] 0))

theorem witness_ContextsOpenAndClose :
    JobRuns (withJob (jobOf (descr 0 []) [] 0xFF)) 1 0x00 (jobOf (descr 0 []) [] 0xFF) ∧
    (∀ o c, JobRuns (inContext 0x08 o c) 1 0x08 (jobOf (descr 0x08 [(2, 2, 0x8003)]) [] 0)) ∧ (getCtx (inContext 0x08 true none) 0 3).isOpen = true ∧
    ((getCtx (inContext 0x08 false none) 0 3).isOpen = false ∧ (getCtx (inContext 0x08 false none) 0 3).gen = 255) ∧
    jobCtx (jobOf (descr 0x08 [(2, 2, 0x8003)]) [] 0) = 3 ∧
    (∀ o, JobRuns (inContext 0x09 o none) 1 0x09 (jobOf (descr 0x09 [(2, 2, 0x8003)]) [] 0)) ∧ (getCtx (inContext 0x09 true none) 0 3).closing = none ∧
    ((getCtx (inContext 0x09 false (some 1)) 0 3).closing = some 1 ∧ ctxBusy (inContext 0x09 false (some 1)) 0 3 = false ∧
      fencing (inContext 0x09 false (some 1)) 0 = false) := by
  refine ⟨⟨rfl, rfl, ?_, rfl, Or.inl rfl⟩, fun _ _ => ⟨rfl, rfl, ?_, rfl, Or.inr rfl⟩, ?_, ?_, ?_, fun _ => ⟨rfl, rfl, ?_, rfl, Or.inr rfl⟩, ?_, ?_⟩ <;>
    decide +kernel

/-! ## Jobs (spec/07, spec/08, spec/14) -/

theorem witness_MoveJobsWorkThroughTheirBytes :
    (let x := jobOf (descr 0x01 [(40, 5, 64), (56, 5, 64), (48, 6, 65536)]) [operand 0 0 64 .read, operand 65536 65536 64 .write] 0xFF
     let s := withJob x
     let r := opRead 1 0 0 (opd x 0) 0 64 0 s
     let w := opWrite 1 0 (opd x 1) 0 2 ((okBytes? r).getD []) 0 r.2
     moveCheck x.desc [32, 48] = none ∧ operandsOverlap (opd x 0) (opd x 1) 64 = false ∧ isOk r = true ∧ isOk w = true ∧
     getJob? w.2 1 = some x) ∧
    (let x := jobOf (descr 0x02 [(40, 5, 64)]) [operand 0 0 64 .write] 0xFF
     let w := opWrite 1 0 (opd x 0) 0 2 ((List.range 64).map (fun i => x.desc.getD (48 + (0 + i) % 8) 0)) 0 (withJob x)
     moveCheck x.desc [32] = none ∧ isOk w = true ∧ getJob? w.2 1 = some x) ∧
    (let x := jobOf (descr 0x03 [(40, 5, 64), (56, 5, 64)]) [operand 0 0 64 .read, operand 65536 65536 64 .read] 0xFF
     let a := opRead 1 0 0 (opd x 0) 0 64 0 (withJob x)
     let b := opRead 1 0 1 (opd x 1) 0 64 0 a.2
     moveCheck x.desc [32, 48] = none ∧ isOk a = true ∧ isOk b = true ∧ okBytes? a = okBytes? b ∧ getJob? b.2 1 = some x) ∧
    moveCheck (descr 0x01 [(40, 5, 64), (56, 5, 32)]) [32, 48] = some (.errFormat, 56) ∧
    moveCheck (descr 0x02 [(32, 6, 16)]) [32] = some (.errAlign, 32) := by decide +kernel

/-- COMPARE of two lines that differ in byte 63. -/
theorem witness_CompareFindsADifference :
    (let x := jobOf (descr 0x03 [(40, 5, 64), (56, 5, 64)]) [operand 0 0 64 .read, operand 65536 65536 64 .read] 0xFF
     let s := storeLine 1024 (encodeLine (zeros 63 ++ [1]) 0) (withJob x)
     let a := opRead 1 0 0 (opd x 0) 0 64 0 s
     let b := opRead 1 0 1 (opd x 1) 0 64 0 a.2
     (okBytes? a).map (·.getD 63 0) = some 0 ∧ (okBytes? b).map (·.getD 63 0) = some 1 ∧ getJob? b.2 1 = some x) := by decide +kernel

/-- Lines of the list or table of job 1 that tile 0 has in its cache. -/
def cached (ls : List (Nat × Bytes)) (s : State) : State :=
  { s with coh := { s.coh with lines := ls.map (fun l => (l.1, { st := .s, data := l.2, job := none, way := 0, fault := .none })) } }

/-- A local operand whose sealed extents list only its first line: for these witnesses an evaluation over one line stands
for one over all of them. -/
def pool (va addr len : Nat) (k : AccKind) : Operand := { va := va, len := len, kind := k, exts := [{ ep := 0, addr := addr, len := 64 }] }

/-- KV_SUMMARISE of slot 0 of KPOOL at its last, armed entry; DIM 64, FP8 keys. -/
def kvJob : JobSt := { jobOf (descr 0x11 [(40, 5, 4352), (56, 5, 4), (65, 1, 3)]) [pool 0 0 4352 .atomic, operand 65536 65536 4 .read] 0 with stage := 1, checked := some [] }
def kvState : State := cached [(1024, zeros 64)] (withJob kvJob)
def kvList : OpRes × State := listRead 1 1 0 4 kvState
def kvKeys : OpRes × State := opRead 1 0 0 (opd kvJob 0) 0 4096 0 kvList.2
def kvWrite : OpRes × State := opWrite 1 0 (opd kvJob 0) 4096 2 (zeros 256) 0 kvKeys.2

/-- The header of a context table: VERSION 1, DIM 64, FP8 keys and values, FP32 queries, one query head to a KV head, one KV
head, one page. -/
def attHdr : Bytes := [1, 0, 0, 0x33, 0, 1, 1, 0, 1, 0] ++ zeros 54

/-- A head about to take its last page, page 0 of slot 0, of 64 tokens. -/
def attAt (scores : List (Nat × BitVec 32)) (m : BitVec 32) : AttSt :=
  { att0 attHdr with begun := true, ents := [64 * 2 ^ 48], q := zeros 256, rest := [0], scores := scores, cand := scores.map (·.1), m := [m], l := [0],
                     o := [List.replicate 64 0], nan := [false] }

/-- ATTEND in a mode, SCALE 1, one page, one KV head; top-k of 0 pages. -/
def attJob (mode : Nat) (a : Option AttSt) : JobSt :=
  { jobOf (descr 0x10 [(2, 2, 0x8003), (88, 5, 64), (112, 4, 0x3F800000), (118, 2, 1), (125, 1, mode), (127, 1, 1)])
      [operand 0 0 256 .read, pool 0 65536 4352 .read, pool 0 131072 4096 .read, operand 0 (2 ^ 20) 72 .read, operand 0 (2 ^ 21) 320 .write] 0 with att := a }

def attRuns (x : JobSt) : State := withJob x

/-- Keys and summaries of page 0 are VALID. -/
def attValid (x : JobSt) : State := { attRuns x with dram := { active.dram with summary := (List.range 17).map (fun i => (256 + i, 2)) } }

def isYes (r : Eligible × State) : Bool := match r.1 with | .yes _ => true | _ => false
def usOf (r : Eligible × State) : List (BitVec 32) := match r.1 with | .yes us => us | _ => []

theorem witness_AttendsLast (mode : Nat) (sc : List (Nat × BitVec 32)) (m : BitVec 32) (s : State)
    (h : s.work = (attRuns (attJob mode (some (attAt sc m)))).work) (hf : s.coh.failure = none) (hp : s.work.parts = active.work.parts) :
    dOpc (attJob mode (some (attAt sc m))).desc = 0x10 → atHkvCount (attJob mode (some (attAt sc m))) = 1 →
    AttendsLast s 1 (attJob mode (some (attAt sc m))) (attAt sc m) 0 := by
  intro ho hk
  refine ⟨⟨?_, rfl, ho, ?_, Or.inr hf⟩, ⟨rfl, rfl, rfl⟩, rfl, rfl, rfl, rfl, rfl, hk⟩
  · show smFind? 1 s.work.jobs = _
    rw [h]; rfl
  · show (smGet part0 _ s.work.parts).fence.isSome = false
    rw [hp]; rfl

theorem witness_SummariseAndAttendFinishTheirPages :
    (kvCheck kvState kvJob = none ∧ isOk kvList = true ∧ leAt ((okBytes? kvList).getD []) 0 4 < (opd kvJob 0).len / keySlot 64 3 ∧
      fencing kvState 0 = false ∧ isOk kvKeys = true ∧ isOk kvWrite = true ∧ getJob? kvWrite.2 1 = some kvJob ∧ tileShared kvWrite.2 1 = false) ∧
    kvCheck up (jobOf (descr 0x11 [(64, 1, 3)]) [] 0) = some (.errFormat, 64) ∧
    (atMode (attJob 0 none) = 0 ∧ atMode (attJob 1 none) = 1 ∧ atMode (attJob 2 none) = 2 ∧ atMode (attJob 3 none) = 3 ∧
      dOpc (attJob 0 none).desc = 0x10 ∧ atHkvCount (attJob 2 none) = 1) ∧
    (readPage 1 (attJob 0 none) (attAt [] 0) 0 false (attRuns (attJob 0 (some (attAt [] 0))))).1.isSome = true ∧
    (eligible 1 (attJob 1 none) (attAt [] 0) 0 (attRuns (attJob 1 (some (attAt [] 0))))).1 = .no ∧
    ((leftOut (atTopk (attJob 2 none)) (attAt [(0, 1)] 0).scores).contains 0 = true ∧ noSkip (attAt [(0, 1)] 0) = false) ∧
    (attCheck active (attJob 3 none) = some (.errFormat, 125) ∧ attCheck (setObj 0x2610 1 0 active) (attJob 1 none) = some (.errPermission, 125)) := by
  refine ⟨?_, ?_, ?_, ?_, ?_, ?_, ?_⟩ <;> decide +kernel

theorem witness_AttendSkipsByItsBound :
    (let a := attAt [] 0x7F800000
     let x := attJob 1 (some a)
     let r := eligible 1 x a 0 (attValid x)
     isYes r = true ∧ boundSkips r.2 x a (usOf r) = true ∧ getJob? (skipPage x a r.2).2 1 = some x) ∧
    (let a := { (skipPage (attJob 1 none) (attAt [] 0x7F800000) up).1 with rest := [] }
     let w := opWrite 1 1 (opd (attJob 1 none) 4) 0 2 ((List.range 1).map (outRecord a)).flatten 0 (attRuns (attJob 1 (some a)))
     isOk w = true ∧ getJob? w.2 1 = some (attJob 1 (some a))) ∧
    (let a := attAt [] 0xFF800000
     let x := attJob 1 (some a)
     let r := eligible 1 x a 0 (attValid x)
     isYes r = true ∧ boundSkips r.2 x a (usOf r) = false) := by
  refine ⟨?_, ?_, ?_⟩ <;> decide +kernel

/-- OPT_STEP of one row of 32 elements on tile 0, its parameter record of zeros in the cache; BF16 gradients. -/
def optJob (alg flags emitLen : Nat) : JobSt :=
  jobOf (descr 0x20 [(88, 5, emitLen), (112, 4, 1), (116, 2, 32), (118, 1, alg), (119, 1, 1), (121, 1, flags)])
    [operand 0 0 384 .atomic, operand 65536 65536 64 .read, operand 0 0 0 .read, operand 0 131072 emitLen .write, operand 0 (2 ^ 20) 64 .read] 0
/-- The same with its checks made, the parameters being zeros. -/
def optChecked (alg flags emitLen : Nat) : JobSt := { optJob alg flags emitLen with checked := some (zeros 64) }
def optState (x : JobSt) : State := cached [(2 ^ 14, zeros 64)] (withJob x)
def optGrad (x : JobSt) : OpRes × State := opRead 1 0 1 (opd x 1) 0 64 0 (optState x)
def isDone {α β γ : Type} (r : Except α β × γ) : Bool := match r.1 with | .ok _ => true | .error _ => false

/-- The conditions of the last row under SGD or AdamW. -/
def optRuns (alg planes : Nat) : Bool :=
  let x := optChecked alg 0 0
  let g := optGrad x
  let r := readTogether 1 0 (opd x 0) ((List.range planes).map (fun i => (i * 128, 128))) g.2
  let w := writeTogether 1 (opd x 0) ((List.range planes).map (fun i => (i * 128, zeros 128))) r.2
  isOk g && isDone r && isOk w && decide (getJob? w.2 1 = some x) && !tileShared w.2 1

/-- Do the checks of an OPT_STEP pass? -/
def optPasses (r : OptRes × State) : Bool := match r.1 with | .ok _ => true | _ => false

theorem witness_OptimiserStepsUpdateTheirRows :
    optRuns 0 2 = true ∧ optRuns 1 3 = true ∧
    (let x := optChecked 0 2 0
     osSkip x.desc = true ∧ (gradRow 1 1 (leBytes 2 0x7F80) 0x3F800000#32).any (fun v => !f32IsFinite v) = true ∧
     getJob? (optGrad x).2 1 = some x ∧ tileShared (optGrad x).2 1 = false) ∧
    (let x := optChecked 2 0 128
     let y := { x with stage := 1 }
     let r := opRead 1 0 0 (opd x 0) 0 128 0 (setStage 1 1 (optState x))
     let w := emitRanges 1 y (zeros 64) (emitRow x.desc (zeros 64) 1 0 (wordsOf 32 ((okBytes? r).getD []))) r.2
     osEmits x.desc = true ∧ isOk r = true ∧ isOk w = true ∧ getJob? w.2 1 = some y ∧ tileShared w.2 1 = false) ∧
    ((optPasses (optCheck 1 (optJob 0 0 0) (optState (optJob 0 0 0))) = true) ∧
     (optPasses (optCheck 1 (optJob 1 0 0) (optState (optJob 1 0 0))) = true) ∧
     (optPasses (optCheck 1 (optJob 2 0 128) (optState (optJob 2 0 128))) = true)) ∧
    (let r := optCheck 1 (optJob 3 0 0) (optState (optJob 3 0 0))
     (match r.1 with | .fail st d => st == .errFormat && d == 118 | _ => false) = true ∧ getJob? r.2 1 = some (optJob 3 0 0)) := by
  refine ⟨?_, ?_, ?_, ?_, ?_, ?_⟩ <;> decide +kernel

/-- GRAD_ACCUM of one row of 32 BF16 gradients; SCATTER_ADD and EMB_GATHER of one index, whose lists are in the cache. -/
def gradJob (row : Nat) (width : Nat) (store : Nat) : JobSt :=
  jobOf (descr 0x21 [(80, 4, row), (84, 2, width), (86, 1, 1), (87, 1, store), (88, 4, 0x3F800000)])
    [operand 0 0 128 .atomic, operand 65536 65536 64 .read, operand 0 0 0 .read] 0

def scatterJob (store : Nat) : JobSt :=
  jobOf (descr 0x22 [(112, 4, 128), (116, 2, 32), (118, 1, 1), (119, 1, store), (120, 4, 0x3F800000)])
    [operand 0 0 128 .atomic, operand 65536 65536 4 .read, operand 0 0 0 .read, operand 0 0 0 .read, operand 131072 131072 64 .read] 0
def scatterState : State := cached [(1024, zeros 64)] (withJob (scatterJob 0))
def scatterIdx : Except (Option Status) (Nat × BitVec 32) × State := indexAt 1 (scatterJob 0) 0 scatterState
def scatterRead : OpRes × State := opRead 1 0 4 (opd (scatterJob 0) 4) 0 64 0 scatterIdx.2

/-- EMB_GATHER of a bag of one FP32 row of 32 elements, both of the table's lines in the cache. -/
def embJob (fmt : Nat) : JobSt :=
  jobOf (descr 0x30 [(112, 4, 128), (116, 2, 32), (118, 1, fmt), (119, 1, 0)])
    [operand 0 0 128 .read, operand 65536 65536 4 .read, operand 0 0 0 .read, operand 0 0 0 .read, operand 131072 131072 128 .write] 0
def embState : State := cached [(0, zeros 64), (1, zeros 64), (1024, zeros 64)] (withJob (embJob 0))
def embBag : BagRes × State := gatherBag 1 (embJob 0) 0 1 0 (List.replicate 32 0) embState

theorem witness_RowsAreAccumulatedScatteredAndGathered :
    (let x := gradJob 1 32 0
     let r := opRead 1 0 1 (opd x 1) 0 64 0 (withJob x)
     let w := reduceRow 1 x (opd x 0) 0 (List.replicate 32 1) false r.2
     gradCheck (withJob x) x = none ∧ isOk r = true ∧ isOk w = true ∧ getJob? w.2 1 = some x) ∧
    (scatterCheck scatterState (scatterJob 0) = none ∧ offsetsBad (ixCount (scatterJob 0)) [0, 1] = none ∧
     (match scatterIdx.1 with | .ok (r, _) => decide (r < ixRows (scatterJob 0)) | _ => false) = true ∧ isOk scatterRead = true) ∧
    (let w := reduceRow 1 (scatterJob 0) (opd (scatterJob 0) 0) 0 (List.replicate 32 1) false scatterRead.2
     isOk w = true ∧ getJob? w.2 1 = some (scatterJob 0)) ∧
    (let w := opWrite 1 1 (opd (embJob 0) 4) 0 2 (zeros 128) 0 embBag.2
     embCheck embState (embJob 0) = none ∧ (match embBag.1 with | .ok _ => true | _ => false) = true ∧ isOk w = true ∧ getJob? w.2 1 = some (embJob 0)) ∧
    (gradCheck up (gradJob 0 32 0) = some (.errFormat, 80) ∧ scatterCheck up (scatterJob 2) = some (.errFormat, 119) ∧
     embCheck up (embJob 5) = some (.errFormat, 118)) ∧
    (poolQuiet up ∧ lineFree up 4) := by
  refine ⟨?_, ?_, ?_, ?_, ?_, ⟨rfl, rfl, rfl, fun _ h => nomatch h⟩, ?_, ?_, ?_, ?_, ?_, ?_, ?_, ?_⟩ <;> decide +kernel

/-- EXPERT_STREAM of 64 bytes to endpoint 1, on tile 0; a job of a window of 10 µs. -/
def expertJob (mask : Nat) : JobSt :=
  jobOf (descr 0x40 [(64, 8, mask), (74, 2, 10)])
    [operand 0 0 64 .read, { va := 0, len := 64, kind := .write, exts := [{ ep := 1, addr := 0, len := 64 }] }] 0

def expGroup (closed : Bool) (jobs : List Nat) (sent : Nat) : ExpGroup :=
  { part := 0, jobs := jobs, closeAt := 10000, closed := closed, sent := sent, outstanding := 0, skipped := 0, failed := 0, err := none }

/-- Link 2 is UP, and endpoint 1 is reached by it. -/
def routed (s : State) : State := updLink 2 (fun l => { l with state := 2 }) (setObj 0x2420 2 (2 ^ 37 + 2 * 2 ^ 16 + 2 ^ 22 + 64 * 2 ^ 40) s)

/-- Endpoint 1 is granted to partition 0, which may have four groups; the job is in the table, with a group or none. -/
def expertState (gs : List (Nat × ExpGroup)) : State :=
  let s := routed (setObj 0x2111 1 2 (setObj 0x4620 1 4 (withJob (expertJob 2))))
  { s with work := { s.work with groups := gs } }

theorem witness_ExpertStreamsCoalesceIntoGroups :
    (expertCheck (expertState []) (expertJob 2) = none ∧ expertWindow (expertState []) (expertJob 2) ≠ 0 ∧ openGroupFor (expertState []) (expertJob 2) = none ∧
      0 < obj (expertState []) 0x4620 1 ∧ groupOf (expertState []) 1 = none) ∧
    (let s := expertState [(0, expGroup false [0] 0)]
     let t : State := { s with work := { s.work with jobs := [(0, expertJob 2), (1, expertJob 2)] } }
     openGroupFor t (expertJob 2) = some 0 ∧ groupOf t 1 = none ∧ smFind? 1 t.work.groups = none) ∧
    expertCheck up (expertJob 0) = some (.errFormat, 64) ∧
    (let g := expGroup true [1] 2
     groupOf (expertState [(1, g)]) 1 = some (1, g) ∧ (opd (expertJob 2) 0).len ≤ 32 * g.sent ∧ groupOwes (expertState [(1, g)]) 1 2 0 = false) ∧
    (let g := expGroup false [1] 0
     let s : State := { expertState [(1, g)] with ptime := 10000 }
     let s0 := updGroup 1 (fun g => { g with closed := true }) s
     let r := opRead 1 0 0 (opd (expertJob 2) 0) 0 64 0 s0
     let w := mcWrite 1 2 (groupMask s0 { g with closed := true }) 0 (opd (expertJob 2) 1) 0 ((okBytes? r).getD []) r.2
     let s3 := updGroup 1 (fun g => { g with sent := g.sent + 2 }) w.2
     smFind? 1 s.work.groups = some g ∧ g.closeAt ≤ s.ptime ∧ isOk r = true ∧ w.1 = true ∧ getJob? s3 1 = some (expertJob 2) ∧
     (smFind? 1 s3.work.groups).map (fun g => (g.sent, g.err)) = some (2, none) ∧ groupOwes s3 1 2 0 = true) := by
  refine ⟨?_, ?_, ?_, ?_, ?_⟩ <;> decide +kernel

/-! ## Tile programs (spec/09) -/

/-- A PROG_RUN job of partition 0 on tile 0, its operand 0 one local line read and written. -/
def progJob : JobSt := { jobOf (descr 0x51 [(40, 5, 64)]) [operand 0 0 64 .atomic, operand 0 0 0 .read, operand 0 0 0 .read, operand 0 0 0 .read] 0 with stage := 1 }

/-- Tile 0 runs a program of one word, at PC 0, with values in its scalar registers. -/
def program (w : Nat) (regs : List (Nat × BitVec 64)) : State :=
  updTile 0 (fun y => { y with job := some 1, prog := [(0, BitVec.ofNat 64 w)], s := regs }) (withJob progJob)

theorem program_tile (w : Nat) (regs : List (Nat × BitVec 64)) :
    getTile (program w regs) 0 = { tile0 with job := some 1, prog := [(0, BitVec.ofNat 64 w)], s := regs } := by
  rw [program, getTile_updTile_self]; rfl

theorem witness_Executes (w : Nat) (regs : List (Nat × BitVec 64)) (h : w < 2 ^ 64) : Executes (program w regs) 0 1 progJob w := by
  have e := program_tile w regs
  refine ⟨⟨by rw [e], by rw [e]; rfl, rfl, rfl, ?_, rfl, rfl, rfl, rfl⟩, ?_, ?_⟩
  · decide +kernel
  · rw [e]
    show (BitVec.ofNat 64 w).toNat = w
    simp only [BitVec.toNat_ofNat]
    exact Nat.mod_eq_of_lt h
  · rw [e]; exact (by decide : 0 + 1 < 8192)

theorem witness_guards (w : Nat) (regs : List (Nat × BitVec 64)) :
    guardBitsOf (program w regs) 0 false 0 = BitVec.allOnes 64 ∧ guardBitsOf (program w regs) 0 true 0 = 0  := by
  simp [guardBitsOf, pReg]

/-- A stream of one row of 32 bytes. -/
def oneStream : Stream :=
  { store := false, opd := 0, scr := 0, off := 0, rowBytes := 32, rows := 1, stride := 0, mask := 1, red := false, pc := 0, snap := [],
    got := [], clash := [], sent := false }

theorem witness_TileProgramWordsKeepEveryField : (encB 0x02 true 7 7 3 (2 ^ 32 - 1)) < 2 ^ 64 ∧ (encS 0x25 true 7 15 3 31 31 31 7 3) < 2 ^ 64 := by decide

theorem witness_ScalarInstructionsWriteTheirRegister : ∃ t, exec (.add 0 false 0 31 1 2) (program (encR 0x10 false 0 31 1 2 0 0 0) [(1, 5), (2, 7)]) = .next t ∧
    sReg (getTile t 0) 31 = 12 := ⟨_, rfl, by decide +kernel⟩

theorem witness_ControlInstructionsSteerTheProgram :
    (let s := program (encB 0x02 false 0 0 0 8191) []
     (getTile s 0).pc = 0 ∧ (BitVec.ofNat 32 8191).toInt = 8191 ∧ (BitVec.ofNat 32 (2 ^ 32 - 1)).toInt = -1 ∧ (getTile s 0).streams = [] ∧ jobOut progJob 1 = 0) ∧
    (∃ e ∈ (getTile (updTile 0 (fun y => { y with streams := [(3, oneStream)] }) (program (encI 0x26 false 0 0 0 8) [])) 0).streams, bitOf 8 e.1 = true) := by decide +kernel

theorem witness_VectorInstructionsWriteGuardedLanes : ∃ t, exec (.viota 0 false 0 31 5) (program (encI 0x3D false 0 31 0 5) []) = .next t ∧
    (vReg (getTile t 0) 31).getD 63 0 = 0x42880000#32 := ⟨_, rfl, by decide +kernel⟩

theorem witness_PredicateInstructionsWriteGuardedLanes : ∃ t, exec (.psetn 0 false 0 7 1) (program (encR 0x54 false 0 7 1 0 0 0 0) [(1, 3)]) = .next t ∧
    pReg (getTile t 0) 7 = 7 ∧ (∀ i ∈ List.range 64, (7 : BitVec 64).getLsbD i = decide (i < 3)) := ⟨_, rfl, by decide +kernel, by decide⟩

theorem witness_ScratchAndMatrixInstructionsActOnTheTile :
    (let y := getTile (program 0 [(1, 262136), (2, 3), (3, 262137), (4, 262144), (5, 2 ^ 16 + 1)]) 0
     let a (r : Nat) := (sReg y r).toNat
     (a 1 % 2 ^ 3 = 0 ∧ a 1 + 2 ^ 3 ≤ 262144) ∧ a 2 % 2 ^ 3 ≠ 0 ∧ (a 4 % 2 ^ 3 = 0 ∧ 262144 < a 4 + 2 ^ 3) ∧
     (fmtBits 1 ≠ 0 ∧ fmtIsMx 1 = false ∧ (a 0 + 16) % 16 = 0 ∧ a 0 + 16 + 8 * fmtBits 1 ≤ 262144) ∧ (fmtBits 8 ≠ 0 ∧ fmtIsMx 8 = true ∧ a 0 + 2 ≤ 262144) ∧
     (a 5 % 2 ^ 16 ≠ 0 ∧ a 5 < 2 ^ 52 ∧ a 0 + packedLen 1 (16 * (a 5 % 2 ^ 16)) ≤ 262144 ∧ packedLen 1 (32 * (a 5 % 2 ^ 16)) ≤ 262144)) := by
  decide +kernel

theorem witness_OperandInstructionsReachTheirOperand :
    (let s := cached [(0, zeros 64)] (program (encR 0x20 false 0 1 0 0 0 0 3) [])
     let e : Ext := { ep := 0, addr := 0, len := 64 }
     fillError? s 1 0 = none ∧ s.coh.tagFaults.contains 0 = false ∧ (opd progJob 0).exts = [e] ∧ (opd progJob 0).len = e.len ∧ e.ep = ownEp s ∧ (opd progJob 0).kind ≠ .write ∧
     (opd progJob 0).kind ≠ .read ∧ (cacheLine? s 0 0).map (fun c => (c.st, c.fault)) = some (.s, .none) ∧ lineDuplex s 0 = false) ∧
    (let s := program 0 [(3, 2 ^ 20 + 32)]
     0 < obj s 0x4630 1 ∧ (sReg (getTile s 0) 3).toNat / 2 ^ 20 = 1 ∧ (sReg (getTile s 0) 3).toNat % 2 ^ 20 = 32 ∧ 0 + 32 ≤ (opd progJob 0).len) := by
  decide +kernel

/-- PROG_LOAD of seven NOPs and HALT, in memory. -/
def loadJob (n : Nat) : JobSt := jobOf (descr 0x50 [(5, 1, 0), (40, 5, n), (50, 2, 9)]) [operand 65536 65536 n .read] 0

theorem witness_ProgramJobsLoadAndStart :
    (let s := storeLine 1024 (encodeLine (zeros 56 ++ leBytes 8 (encR 1 false 0 0 0 0 0 0 0)) 0) (withJob (loadJob 64))
     loadCheck s (loadJob 64) = none ∧ (match (loadWords 1 (loadJob 64) 256 0 [] s).1 with | .ok ws => ws.length == 8 | _ => false) = true) ∧
    (let s := storeLine 1024 (encodeLine (zeros 56 ++ leBytes 8 (2 ^ 63 - 1)) 0) (withJob (loadJob 64))
     (match (loadWords 1 (loadJob 64) 256 0 [] s).1 with | .badWord i => i == 7 | _ => false) = true) ∧
    ({ progJob with stage := 0 } : JobSt).stage = 0 := by decide +kernel

/-! ## Tile caches and homes (spec/10) -/

/-- Tile 0 has line 4 in a state, its data as their check bits show them; the home of line 4 knows an owner, and has a
transaction or none. -/
def faultIn (st : CacheState) (f : ArrayFault) : State :=
  { up with coh := { up.coh with lines := [(4, { st := st, data := zeros 64, job := some 1, way := 0, fault := f })] } }
def lineIn (st : CacheState) : State := faultIn st .none
def owned (t : Nat) (x : List (Nat × HomeTxn)) : State := { up with coh := { up.coh with filter := [(4, entryFor 4 true t)], txns := x } }

theorem witness_TilesAnswerSnoopsAndGrants (st : CacheState) (f : ArrayFault) :
    (cacheLine? (faultIn st f) 0 4).map (fun c => (c.st, c.fault, c.job)) = some (st, f, some 1) ∧ cacheState (lineIn st) 0 4 = st ∧
    cacheLine? up 0 4 = none ∧ cacheState up 0 4 = .i ∧ (lineIn st).coh.tagFaults.contains 0 = false ∧
    inDomain (setObj 0x3601 1 0 (lineIn st)) 0 = true ∧ tileState (setObj 0x3601 1 0 (lineIn st)) 0 ≠ 1 ∧
    inDomain (setObj 0x3601 1 4 (lineIn st)) 0 = false ∧
    ({ (lineIn st).coh with tagFaults := [0] } : CohSt).tagFaults.contains 0 = true := by
  cases st <;> cases f <;> decide

/-- Tile 1 is READY. -/
def domain (s : State) : State := setObj 0x3601 2 0 s

theorem witness_HomesServeTileRequests :
    poolQuiet (domain up) ∧ up.coh.failure = none ∧ inDomain (domain up) 1 = true ∧ inDomain (setObj 0x3601 2 4 up) 1 = false ∧
    tileOwner up 1 = 0xFF ∧ tileOwner (setObj 0x2600 2 0 up) 1 ≠ 0xFF ∧ lineFree up 4 ∧ (filterSet up 4).length < 16 ∧
    (filterAt (owned 1 []) 4 = some (some (entryFor 4 true 1)) ∧ lineFree { owned 1 [] with coh := { (owned 1 []).coh with filter := [] } } 4) ∧
    (smFind? 4 (owned 1 [(4, { txn0 (.tile 1 .gets) with granted := true })]).coh.txns).map (·.granted) = some true ∧
    (smFind? 4 (owned 1 [(4, txn0 (.tile 1 .gets))]).coh.txns).map (·.granted) = some false := by
  refine ⟨⟨rfl, rfl, rfl, fun _ h => nomatch h⟩, rfl, ?_, ?_, ?_, ?_, ⟨?_, ?_, ?_, ?_, ?_, ?_, rfl, ?_⟩, ?_,
    ⟨?_, ⟨?_, ?_, ?_, ?_, ?_, ?_, rfl, ?_⟩⟩, rfl, rfl⟩ <;> decide +kernel

theorem witness_SnoopsEndOrFailTheTileDomain :
    (let x : HomeTxn := { txn0 (.access true true) with bridges := 254 }
     let s := owned 1 [(4, x)]
     smFind? 4 s.coh.txns = some x ∧ x.granted = false ∧ bitOf x.bridges 0 = false ∧ putBit x.bridges 0 true = 255 ∧
     filterAt s 4 = some (some (entryFor 4 true 1)) ∧ snoopConflict (entryFor 4 true 1) { x with bridges := 255 } = false ∧
     snoopConflict (entryFor 4 true 1) { x with bridges := 255, hitM := 2 } = true ∧ putBit (txn0 .victim).bridges 7 true ≠ 255) ∧
    (let f : FilterEntry := { entryFor 4 true 1 with check := (entryFor 4 true 1).check ^^^ 3 }
     checkEntry 4 f = none) ∧
    poolQuiet (owned 1 []) ∧
    (let s : State := { up with coh := { up.coh with failure := some ⟨2, true, 5⟩, filter := [(4, entryFor 4 false 0)] } }
     s.coh.failure = some ⟨2, true, 5⟩ ∧ ∀ e ∈ s.coh.filter, (checkEntry e.1 e.2).map (·.owned) = some false) := by
  refine ⟨?_, ?_, ⟨rfl, rfl, rfl, fun _ h => nomatch h⟩, rfl, ?_⟩ <;> decide +kernel

/-! ## Piccolo (spec/11) -/

/-- A request of object 19 by endpoint 2, for partition 0, whose range is objects 16 to 31. -/
def syncReq (op arg : Nat) (try_ : Bool) : SyncReq :=
  { obj := 19, op := op, try_ := try_, attempt := 3, tag := 7, arg := arg, arg2 := 1, rid := 2, job := none, hit := false }

/-- Partition 0 is ACTIVE with its range, endpoint 2 has its grant, object 19 has a content and a wait list, and a request heads
bank 3. -/
def bank (o : SyncObj) (ws : List SyncReq) (q : SyncReq) : State :=
  let s := setObj 0x2701 1 4 (setObj 0x2700 1 (16 + 16 * 2 ^ 32) active)
  { s with sync := { objs := [(19, o)], waits := if ws = [] then [] else [(19, ws)], banks := [(3, [q])], held := [] } }

theorem witness_SynchronisationCommandsActOnTheirObject :
    (BankServes (bank ⟨1, 5, 0⟩ [] (syncReq 2 3 false)) 3 0 (syncReq 2 3 false) [] ∧ waitRoom (bank ⟨1, 5, 0⟩ [] (syncReq 2 3 false)) 0) ∧
    (let w := { syncReq 2 9 false with tag := 8 }
     let s := bank ⟨1, 5, 0⟩ [w] (syncReq 3 4 false)
     syncObj s 19 = ⟨1, 5, 0⟩ ∧ syncWaits s 19 = [w] ∧ w.arg ≤ 5 + 4) ∧
    (holdsMutex (syncReq 5 0 false) ⟨3, 2 ^ 16 + 2, 0⟩ = true ∧ holdsMutex (syncReq 5 0 false) ⟨3, 2 ^ 16 + 1, 0⟩ = false ∧ bitOf (2 ^ 16 + 2) 16 = true) ∧
    (eventHolds (syncReq 10 4 false) 4 = true ∧ eventHolds (syncReq 10 4 false) 0 = false) ∧
    (let s := bank ⟨3, 0, 0⟩ [] (syncReq 11 8 false)
     (syncObj s 19).type ≤ 4 ∧ (syncWaits s 19).find? (fun w => w.rid == 2 && w.tag == 8) = none) := by
  refine ⟨⟨⟨?_, rfl, ?_, ?_, ?_⟩, ?_, ?_⟩, ?_, ?_, ?_, ?_⟩
  · rfl
  · decide +kernel
  · decide +kernel
  · intro _; decide +kernel
  · decide +kernel
  all_goals decide +kernel

/-- A request cell: Piccolo SEM_WAIT of object 19. -/
def requestCell (op : Nat) : Bytes := leBytes 2 0 ++ [2, 0] ++ leBytes 1 op ++ zeros 3 ++ leBytes 2 19 ++ zeros 2 ++ leBytes 4 7 ++ leBytes 8 1 ++ leBytes 8 0

/-- SYNC_OP SEM_WAIT of local object 3 or 16. -/
def syncJob (n : Nat) : JobSt := jobOf (descr 0x60 [(32, 2, n), (34, 1, 2), (40, 8, 1)]) [] 0xFF

theorem witness_RequestsReachTheirBankAndRange :
    (let s := bank ⟨1, 5, 0⟩ [] (syncReq 2 3 false)
     let q : SyncReq := { syncReq 2 1 false with attempt := 0, arg2 := 0 }
     (requestCell 2).length = 32 ∧ routeFenced (routeOf s 2) = false ∧ cellBad (requestCell 2) = false ∧ (bankQueue s 3).length < 16 ∧
     parkedHit s q = false ∧ parkedHit (setBank 3 [] (bank ⟨3, 2 ^ 17 + 2, 0⟩ [] (syncReq 4 0 false))) { q with op := 4 } = true) ∧
    (let s := setObj 0x2420 3 (2 ^ 36) up
     routeFenced (routeOf s (leAt (requestCell 2) 2 1)) = true) ∧
    (let x := syncJob 16
     let s := setObj 0x2700 1 (16 + 16 * 2 ^ 32) (withJob x)
     leAt x.desc 34 1 ≤ 0xB ∧ leAt x.desc 35 1 ≤ 1 ∧ leAt x.desc 36 1 ≤ 15 ∧ (slice x.desc 37 3).any (· != 0) = false ∧
     (slice x.desc 56 72).any (· != 0) = false ∧ rangeCount (syncRange s 0) ≤ leAt x.desc 32 2 ∧ leAt (syncJob 3).desc 32 2 < rangeCount (syncRange s 0)) ∧
    (16 + 2 ^ 15 ≤ obj up 0x1106 0 ∧ partState up 0 = 0 ∧ up.sync.waits = [] ∧ rangeCount (syncRange up 1) = 0) := by
  decide +kernel

/-! ## Lanes and links (spec/12, spec/13) -/

/-- Port 2's lanes in a state, brought up once; rate 1 lanes 0-7 with spare 8 where it is ACTIVE. -/
def laneAt (st : Nat) (f : LaneSt → LaneSt) : State :=
  updLane 2 (fun l => f { l with state := st, off := false, begun := true, cfg := { cfg0 with
    rate := 1, rxMap := [0, 1, 2, 3, 4, 5, 6, 7], txMap := [0, 1, 2, 3, 4, 5, 6, 7], rxSpare := some 8, txSpare := some 8 } }) up

/-- The module with one expert group unlocked. -/
def expert (index : Nat) (s : State) : State := { s with mgmt := { s.mgmt with unlocks := [(unlockKey (expertGroup index) false, 1)] } }

/-- What the lanes of a port show of bytes while their generators stand at 0 and nothing is precoded. -/
def shown (port : Nat) (nrz : Bool) (b : Bytes) : Decided :=
  (List.range (laneWidth port)).map (fun i => toSymbols nrz (byteBits (laneBytes (laneWidth port) i b)))

theorem witness_BringUpGoesThroughItsStates :
    (∀ st ∈ List.range 8, (getLane (laneAt st id) 2).state = st) ∧ portOff (laneAt 5 id) 2 = false ∧ (getLink (laneAt 5 id) 2).state = 0 ∧
    (blockOk 1 (trainBlock 1 3 0x31 0 0 0 77) = true ∧ blockOk 1 (zeros 16) = false ∧ 8 < lanePhys 2 ∧ laneWidth 2 = 8) ∧
    (let runs := (List.range 8).map (fun i => (i, 64))
     runs.all (fun e => decide (64 ≤ e.2)) = true ∧ laneWidth 2 ≤ runs.length) ∧
    (ts1Ok 2 (trainBlock 1 3 0x34 0 0 0 77) = true ∧ ts1Ok 2 (zeros 16) = false ∧
      (let b := flipBlock true (trainBlock 1 3 0x34 0 0 0 77)
       leAt b 0 2 = 0x3CA5 ∧ ts1Ok 2 (flipBlock true b) = true)) ∧
    (blockOk 2 (trainBlock 2 0 0x34 0 0 0 77) = true ∧ peerHeld (laneAt 3 id) 2 (tbKind (trainBlock 2 0 0x34 0 0 0 77)) 77 = none ∧
      peerHeld (laneAt 3 id) 2 1 77 = some 3 ∧ tbLoopNak (trainBlock 2 0 0x34 0 0 0 77) = false) ∧
    (blockOk 3 (trainBlock 3 0 0x34 0 32 5 0) = true ∧ blockOk 4 (trainBlock 4 0 0x34 8 40 0 0) = true ∧
      tbPreset? (trainBlock 4 0 0x34 8 40 0 0) = some 0 ∧ 8 ≤ obj (setObj 0x4405 3 15 up) 0x4405 3) ∧
    ((getLane (laneAt 4 (fun l => { l with train := { train0 with eqSeen := true, part := 2 } })) 2).train.eqSeen = true ∧
      (getLane (laneAt 4 id) 2).train.eqSeen = false ∧ (getLane (laneAt 4 id) 2).loop = none) := by
  refine ⟨?_, ?_, ?_, ?_, ?_, ?_, ?_, ?_, ?_⟩ <;> decide +kernel

/-- An NL_EYE_SCAN_CMD of a port. -/
def eyeBytes (port : Nat) : Bytes := [BitVec.ofNat 8 port, 3, 0, 1]

theorem witness_SparesScansAndLoopbacks :
    (let l := getLane (laneAt 5 (fun l => { l with txDup := some 3, rxReq := some 3 })) 2
     l.cfg.txSpare = some 8 ∧ l.cfg.rxSpare = some 8 ∧ l.state = 5 ∧ l.txDup = some 3 ∧ l.rxReq = some 3 ∧ l.faulty = 0) ∧
    (let l := getLane (laneAt 5 id) 2
     l.cfg.rxMap[3]? = some 3 ∧ (127 :: (List.replicate 2 127 ++ [0])).getD 3 127 < obj up 0x4403 0 ∧ ¬ (127 < obj up 0x4403 0) ∧ l.rxReq = none) ∧
    (leAt (eyeBytes 2) 0 1 ≤ 14 ∧ leAt (eyeBytes 2) 1 1 ≤ 8 ∧ leAt (eyeBytes 2) 2 1 ≤ 2 ∧ leAt (eyeBytes 2) 3 1 ≤ 1 ∧ 14 < leAt (eyeBytes 15) 0 1) ∧
    (portOff up 2 = true ∧ portOff (laneAt 1 id) 2 = false ∧ obj (setObj 0x4406 3 1 up) 0x4406 3 = 1 ∧ obj up 0x4406 3 ≠ 1) ∧
    (unlocked (expert 0x4400 up) (expertGroup 0x4400) false = true ∧ unlocked (expert 0x4407 up) (expertGroup 0x4407) false = true ∧
      unlocked up (expertGroup 0x4407) false = false) ∧
    ((List.range 64).all (fun p => pointPasses [] p 31) = true ∧ pointPasses [(64 * 31 + 33, 5)] 33 31 = false ∧
      edgeSpan ((List.range 24).map (fun i => (64 * 31 + 40 + i, 5))) 0 = 40) ∧
    (let l := getLane (laneAt 5 (fun l => { l with rxReq := some 3, agreed := List.replicate 60 true, compared := 64 })) 2
     l.rxReq = some 3 ∧ 64 ≤ l.compared ∧ 60 ≤ (l.agreed.filter id).length ∧ ¬ 4096 ≤ l.compared) := by
  decide +kernel

/-- A DATA flit of empty slots after the flit a link took last. -/
def flitOf (fseq : Nat) : Lctl :=
  { fseq := fseq, ack := 0xFFF, ftype := 0, nak := false, crTc := 0, crHdr := 0, crData := 0, laneOp := 0, laneArg := 0, initSeen := false, pstart := 0 }
def flitRaw (fseq : Nat) : Bytes := flitBytes [] (flitOf fseq)

/-- Port 2 is ACTIVE with its link UP. -/
def linkIn (st : Nat) (f : LinkSt → LinkSt) : State := updLink 2 (fun k => f { k with state := st }) (laneAt 5 id)

set_option maxRecDepth 20000 in
theorem witness_FlitsAreSentReceivedAndReplayed :
    ((getLane (linkIn 2 id) 2).state = 5 ∧ (getLink (linkIn 2 id) 2).state = 2 ∧ hasData (linkIn 2 id) 2 0 = false ∧
      hasData (linkIn 2 (fun k => { k with txRest := [zeros 16] })) 2 0 = true) ∧
    (slice (flitRaw 0) 0 256 = flitRaw 0 ∧ flitCode (flitRaw 0) = true ∧ crc32 ((flitRaw 0).take 236) = leAt (flitRaw 0) 236 4 ∧
      lctlOf (slice (flitRaw 0) 224 12) = some (flitOf 0) ∧ (flitDecode (flitRaw 0)).map (·.2) = some [] ∧
      (unitReceived 2 256 (getLane (linkIn 2 id) 2) (shown 2 true (flitRaw 0))).1 = flitRaw 0) ∧
    ((0xFFF + 1) % 4096 = 0 ∧ laterW 12 0 0xFFE = true ∧ laterW 12 0 1 = false) ∧
    (let s := linkIn 2 (fun k => { k with replay := [{ seq := 3, pstart := 0, payload := [], units := [] }] })
     (getLink s 2).replay ≠ [] ∧ (getLink s 2).replays < obj s 0x4411 0 ∧ portUnits s 2 = [] ∧ s.fabric.waiting = []) := by
  refine ⟨?_, ⟨?_, ?_, ?_, ?_, ?_, ?_⟩, ?_, ?_⟩ <;> decide +kernel

/-! ## The fabric and the scheduler (spec/14, spec/15) -/

/-- Port 2's link is UP; endpoint 1, granted block 0, sends by it. -/
def fabric : State := routed (setObj 0x2120 2 2 active)

/-- A packet of endpoint 1 for endpoint 0, number 0 of its stream. -/
def packet (opc mid smap : Nat) (sectors : List Bytes) : Packet := mkPkt (mkHdr opc 0 false 0 1 9 mid smap 0 none) sectors

theorem witness_InOrder (opc : Nat) (h : opc ∈ [0x01, 0x02, 0x03, 0x04, 0x05, 0x06, 0x07]) : InOrder fabric 2 (packet opc 64 1 [zeros 32]) := by
  simp only [List.mem_cons, List.not_mem_nil, or_false] at h
  rcases h with rfl | rfl | rfl | rfl | rfl | rfl | rfl <;> (unfold InOrder; decide +kernel)

def servedAt (opc : Nat) (sectors : List Bytes) : Bool :=
  match checkReq fabric (epGrants fabric 1) 0 (packet opc 64 1 sectors) with
  | .ok (.pool pa, q) => pa == 64 && q == packet opc 64 1 sectors
  | _ => false

theorem witness_RemoteRequestsReachTheirTarget :
    (∀ opc ∈ [0x01, 0x02, 0x03, 0x04, 0x05, 0x07], servedAt opc [zeros 32] = true) ∧ servedAt 0x06 [zeros 32] = true ∧
    (admitMem fabric 1 (epSub fabric 1) 3 = .served ∧ poolQuiet fabric ∧ lineFree fabric 1) ∧
    (field (packet 0x06 64 0x11 []).hdr 111 108 = 1) ∧
    (match checkReq fabric (epGrants fabric 1) 0 (packet 0x01 65 1 []) with | .error st => st == .errAlign | _ => false) = true := by
  refine ⟨?_, ?_, ⟨?_, ⟨rfl, rfl, rfl, fun _ h => nomatch h⟩, ⟨?_, ?_, ?_, ?_, ?_, ?_, rfl, ?_⟩⟩, ?_, ?_⟩ <;> decide +kernel

/-- A job of partition 0 waits for one answer of endpoint 1 under TAG 9. -/
def waiting (w : ReqFor) : State :=
  { fabric with
    work := { active.work with jobs := [(1, { jobOf (descr 0x01 []) [] 0xFF with outstanding := [(0, 1)] })] }
    fabric := { fabric.fabric with reqs := [(reqKey 1 9, { who := w, tc := 2, part := 0 })] } }

theorem witness_AnswersAndAcknowledgementsAreTaken :
    (pkOpc (packet 0x10 5 0 []) = 0x10 ∧ bitOf (packet 0x10 5 0 []).hdr 82 = false ∧ laterW 16 (field (packet 0x10 5 0 []).hdr 79 64) 0xFFFF = true) ∧
    (let s : State := { fabric with fabric := { fabric.fabric with mcOut := [(2 * 65536 + 5, { tc := 2, members := [1, 3], job := 1 })] } }
     let p := packet 0x11 (5 + 2 ^ 16) 0x10 []
     field p.hdr 111 80 = 1 ∧ field p.hdr 79 64 = 5 ∧ field p.hdr 119 112 = 1 ∧ mcClasses s [5] 1 = [2]) ∧
    (let p := packet 0x20 0 1 [zeros 32]
     let s := waiting (.jobRead 1 0 0 0 0 32 0)
     (smFind? (reqKey (pkSrc p) (pkTag p)) s.fabric.reqs).isSome = true ∧ pkProxy p = false ∧ (getJob? s 1).isSome = true ∧
     dCtx? (descr 0x01 []) = none ∧ openPacket s (some (exchangePart s (pkSrc p) 0)) (nextCount s p) p = some p ∧ statusOf (pkStatus p) = .ok ∧
     statusOf (pkStatus (packet 0x20 0x40 1 [])) = .errUncorrectable) ∧
    smFind? (reqKey 1 9) fabric.fabric.reqs = none := by decide +kernel

theorem witness_TransitTimersAndRoutes :
    (let p : Packet := mkPkt (mkHdr 0x01 0 false 1 2 9 0 1 0 none) []
     linkUp fabric 2 = true ∧ pkMc p = false ∧ isLocal fabric (pkDst p) = false ∧ routeFenced (routeOf fabric 1) = false ∧
     choosePort fabric 1 0 false true = .go 2 ∧ choosePort fabric 3 0 false true = .unroutable ∧ opcIsRequest 0x01 = true ∧ opcIsRequest 0x20 = false ∧
     linkUp up 2 = false) ∧
    ((getRecv (setRecv false (recvKey false 1 0) { recv0 with unacked := 1 } up) false (recvKey false 1 0)).unacked ≠ 0 ∧ (getRecv up false (recvKey false 1 0)).held = []) ∧
    (let s := waiting (.jobWrite 1 0 0)
     (smFind? (reqKey 1 9) s.fabric.reqs).map (·.tc) = some 2 ∧ jobOut { jobOf (descr 0x01 []) [] 0xFF with outstanding := [(0, 1)] } 0 = 1) ∧
    (let o : Outgoing := outUnit (.pkt (packet 0x01 0 1 [])) 0 3 none
     let s := setObj 0x2420 2 (2 ^ 37 + 2 ^ 12 + 4 + 2 * 2 ^ 16 + 64 * 2 ^ 40) { fabric with fabric := { fabric.fabric with throttled := [8] } }
     waitsAtFabric s o (mkPkt (mkHdr 0x01 0 false 1 0 9 0 1 0 none) []) = true) ∧
    (routeOk (2 ^ 37 + 2 * 2 ^ 16 + 2 ^ 22 + 64 * 2 ^ 40) = true ∧ routeOk (2 ^ 15) = false ∧
      (List.range 14).any (linkUp up) = false ∧ (List.range 14).any (linkUp fabric) = true) := by decide +kernel

/-- Two subscribers wait at memory group 0 (port 32). -/
def scheduled : State := enqueueLeaf 32 7 3 (.mem 2 false 0) (enqueueLeaf 32 5 3 (.mem 1 false 0) up)

theorem witness_SchedulerServesAndShapes :
    (∃ e f, eligibleLeaves scheduled 32 = [e, f] ∧ e.sub ≠ f.sub ∧
      (let s1 := accrueMin 32 [e, f] (activate 32 [e, f] scheduled)
       promoted s1 e.item = false ∧ promoted s1 f.item = false ∧ subMc s1 32 e.sub < 1024 ∧ subMc s1 32 f.sub < 1024)) ∧
    eligibleLeaves up 32 = [] ∧ (∃ e, eligibleLeaves (enqueueLeaf 32 5 3 (.mem 1 false 0) up) 32 = [e]) ∧
    (let s := updSched 32 (fun p => { p with subs := smUpd sub0 5 (fun b => { b with mc := 1024 }) p.subs }) scheduled
     let es := eligibleLeaves s 32
     let s1 := accrueMin 32 es (activate 32 es s)
     es.map (·.sub) = [5, 7] ∧ 1024 ≤ subMc s1 32 5 ∧ subMc s1 32 7 ≤ subMc s1 32 5) ∧
    ((shapeOf up 5 4 2).1 = 0 ∧ nodeWaits up 2 5 4 = false ∧ portKind 2 ≠ 2 ∧
     (let s := enqueueLeaf 2 5 3 (.mem 1 false 0) (setObj 0x4500 6 (1 + 2 ^ 32) up)
      (shapeOf s 5 4 (portKind 2)).1 ≠ 0 ∧ nodeWaits s 2 5 4 = true)) ∧
    (let others := (((List.range 65).filter (fun x => x ≠ 5)).map (fun x => obj up 0x2501 (x + 1))).foldl (· + ·) 0
     others + 1 ≤ 1024 ∧ 1024 < others + 1025) := by
  refine ⟨⟨_, _, rfl, ?_, ?_⟩, ?_, ⟨_, rfl⟩, ?_, ?_, ?_⟩ <;> decide +kernel

/-! ## Partitions, keys, resets (spec/16, spec/17) -/

/-- A PART_CMD on partition 0. -/
def partBytes : Bytes := zeros 16

/-- Partition 0 under a fence. -/
def fenced (f : FenceSt) : State := updPart 0 (fun x => { x with fence := some f }) (setObj 0x3110 1 3 active)

theorem witness_PartitionsAreCommandedAndFenced :
    (up.work.cmdRunning = false ∧ up.ready = true ∧ leAt partBytes 1 1 = 0 ∧ (slice partBytes 2 14).any (· != 0) = false ∧ 0 < geomParts up ∧
      partState up 0 = 0 ∧ up.power.closing = false ∧ partState (setObj 0x3110 1 1 up) 0 = 1 ∧ partState active 0 = 2 ∧ active.sec.blob = none) ∧
    (fencing active 0 = false ∧ active.sync.waits = [] ∧ active.sync.objs = []) ∧
    (let s := fenced { cause := 1, cmd := .reset, asCommand := true, answered := false }
     (getPart s 0).fence = some { cause := 1, cmd := .reset, asCommand := true, answered := false } ∧ s.coh.failure = none ∧ s.power.orderly = false ∧
     openReqs s 0 = [] ∧ streamsRun s 0 = false ∧ (∀ e ∈ s.work.jobs, e.2.part ≠ 0)) ∧
    poolQuiet (fenced { cause := 1, cmd := .reset, asCommand := true, answered := false }) ∧
    (let s := fenced { cause := 3, cmd := .destroy, asCommand := true, answered := true }
     (getPart s 0).fence = some { cause := 3, cmd := .destroy, asCommand := true, answered := true } ∧ (∀ t ∈ partTiles s 0, tileLines s t = [])) ∧
    openReqs (waiting (.jobWrite 1 0 0)) 0 ≠ [] ∧ streamsRun (updTile 0 (fun y => { y with streams := [(3, oneStream)] }) active) 0 = true ∧
    (let s : State := { setObj 0x3110 1 4 up with work := { up.work with fills := [(9, some 0)] } }
     partState s 0 = 4 ∧ (∃ f ∈ s.work.fills, f.2 = some 0 ∧ f.1 < 3584) ∧
     (∀ l ∈ keptLines s [9], tagHstate (dirTag s l) = 0) ∧ s.coh.filter = []) ∧
    poolQuiet ({ setObj 0x3110 1 4 up with work := { up.work with fills := [(9, some 0)] } } : State) := by
  refine ⟨?_, ?_, ?_, ⟨rfl, rfl, rfl, fun _ h => nomatch h⟩, ?_, ?_, ?_, ?_, ⟨rfl, rfl, rfl, fun _ h => nomatch h⟩⟩ <;> decide +kernel

theorem witness_GrantsAndBindingsChange :
    (let v := 2 * 4 ^ 3583 + 4 ^ 5
     v < 2 ^ 7168 ∧ rightIn v 3583 = 2 ∧ rightIn v 5 = 1 ∧ rightIn v 7 = 0 ∧ 3583 < geomBlocks up ∧ (∀ q ∈ List.range 64, partRight up q 3583 ≠ 2) ∧
     blockBusy up 3583 = false) ∧
    (let s := updPart 0 (fun x => { x with drains := [{ block := 1, right := 0 }, { block := 0, right := 1 }] }) active
     (getPart s 0).drains.find? (fun d => d.block == 1) = some { block := 1, right := 0 } ∧
     (getPart s 0).drains.find? (fun d => d.block == 0) = some { block := 0, right := 1 } ∧ fencing s 0 = false ∧
     (∀ e ∈ s.work.jobs, e.2.part = 0 → holdsBlock s e.2 1 false = false)) ∧
    ((({ up with work := { up.work with fills := [(9, none)] } } : State).work.fills).contains (9, none) = true) ∧
    (let v := 3 + 4 * 2 ^ 8 + 2 * 2 ^ 16
     v < 2 ^ 25 ∧ field v 23 16 < keyCount v ∧ keyFirst v + keyCount v ≤ 0xF0 ∧ (∀ q ∈ List.range 64, keyCount (partKeys up q) = 0) ∧ partState up 0 = 0) ∧
    (∀ e ∈ List.range 256, field (2 ^ 2048 - 1) (8 * e + 7) (8 * e) = 0xFF) := by
  refine ⟨?_, ?_, ?_, ?_, ?_⟩ <;> decide +kernel

/-- A blob of one chunk of 64 bytes, its content key known. -/
def blobAt : BlobSt :=
  { part := none, token := 1, src := 0, srcLen := 4096, dst := 2 ^ 28, dstLen := 4096, plen := 64, chunkLog2 := 12, chunksAt := 160, key := some 5,
    aad := [], next := 0 }

/-- The module's secrets and its serial number are not given (log entry 12), so no concrete command opens here; every state
falls under one of the clauses. -/
theorem witness_KeysReportsAndBlobs (b : Bytes) :
    ((leAt b 4 4 = Config.serial.toNat % 2 ^ 32 ∧ ∃ k, commandKey labelKey b = some k) ∨
      (¬ leAt b 4 4 = Config.serial.toNat % 2 ^ 32 ∨ commandKey labelKey b = none)) ∧
    (up.power.debug ≠ 2 ∧ leAt (1 :: 3 :: zeros 174) 1 1 = 3 ∧ 3 < obj up 0x1110 0 ∧
      ((slice (1 :: 3 :: zeros 174) 105 7).any (· != 0) || (slice (1 :: 3 :: zeros 174) 160 16).any (· != 0)) = false ∧ 0xF0 ≤ leAt [1, 0xF0] 1 1) ∧
    (getSlot (updSlot 3 (fun x => { x with state := 2 }) up) 3).state = 2 ∧
    ((zeros 32 ++ [1, 0, 0, 0] : Bytes).length = 36 ∧ leAt (zeros 32 ++ [1, 0, 0, 0] : Bytes) 32 1 = 1 ∧ leAt (zeros 32 ++ [1, 0, 0, 0] : Bytes) 33 1 < geomParts up) ∧
    (let s : State := { active with sec := { active.sec with attest := some (zeros 32, 0, 0xFF), blob := some blobAt } }
     s.sec.attest = some (zeros 32, 0, 0xFF) ∧ s.sec.blob = some blobAt ∧
     (match bassoonRead (blobAt.src + blobAt.chunksAt) (64 + 16) s with
      | (.ok _, s1) => (match tryMem .blob .bassoon (.write blobAt.dst ((zeros 64).map some)) s1 with | (.ok _, _) => true | _ => false)
      | _ => false) = true) ∧
    ((zeros 32 : Bytes).length = 32 ∧ leAt (zeros 32) 30 2 = 0 ∧ up.sec.blob = none) := by
  refine ⟨?_, ?_, ?_, ?_, ?_, ?_⟩
  · by_cases h : leAt b 4 4 = Config.serial.toNat % 2 ^ 32
    · cases hk : commandKey labelKey b with
      | none => exact Or.inr (Or.inr rfl)
      | some k => exact Or.inl ⟨h, k, rfl⟩
    · exact Or.inr (Or.inl h)
  all_goals decide +kernel

/-- Two physical tiles are up, logical tile 2 on tile 2. -/
def tiled : State := { setObj 0x3602 3 2 active with ptime := 2 ^ 40 }

theorem witness_TilesAndPortsAreWatched :
    (tiled.coh.tilesUp.contains 2 = true ∧ tiled.coh.tilesUp.contains 9 = false ∧ smGet 0 2 tiled.coh.beats + obj tiled 0x4901 0 * 1000 ≤ tiled.ptime ∧
      tilePhys tiled 2 = 2 ∧ tileState tiled 2 = 0 ∧ (∀ k ∈ List.range 2, tilePhys tiled k = 2 → tileState tiled k = 2) ∧ tiled.coh.failure = none ∧
      tiled.coh.lines = [] ∧ smRisingFrom 0 tiled.work.jobs = true ∧ tileLines tiled 2 = []) ∧
    poolQuiet tiled ∧
    (let s := setObj 0x3601 3 2 tiled
     1 < tileState s 2 ∧ (spareTileFor { s with coh := { s.coh with tilesUp := s.coh.tilesUp.filter (· != tilePhys s 2) } } (tileRing s 2)).isSome = true) ∧
    (up.cxl.trained.getLsbD 3 = true ∧ linkUp (linkIn 2 id) 2 = true ∧ (getLane (linkIn 2 id) 2).state = 5) ∧
    poolQuiet (linkIn 2 id) ∧
    (let s := setObj 0x2122 0 0 (setObj 0x3110 1 2 (setObj 0x2420 2 (2 ^ 37 + 4 + 2 ^ 17 + 64 * 2 ^ 40) (linkIn 2 id)))
     routeValid (routeOf s 1) = true ∧ field (routeOf s 1) 13 0 = 2 ^ 2 ∧ epPartition s 1 = 0 ∧ partState s 0 = 2 ∧ fencing s 0 = false) := by
  refine ⟨?_, ⟨rfl, rfl, rfl, fun _ h => nomatch h⟩, ?_, ?_, ⟨rfl, rfl, rfl, fun _ h => nomatch h⟩, ?_⟩ <;> decide +kernel

theorem witness_ModuleResetsKeepMemory :
    (active.power.mainOn = true ∧ active.power.orderly = false ∧ partState active 0 = 2 ∧ fencing active 0 = false) ∧
    (7 ≤ active.power.phase ∧ active.hosts.dirCache = [] ∧ active.mgmt.jtagHold = false ∧ active.power.ref25 = true) ∧
    State.reset.power.mainOn = false ∧ (objRow? 0x4900 0).isSome = true := by decide +kernel

/-! ## The buddy pair, power, starts, management (spec/18 to spec/20) -/

/-- The own role in a state, its lease granted at 0. -/
def roleAt (code : Nat) (t : Nat) (f : RoleSt → RoleSt) : State :=
  { up with ptime := t, buddy := { up.buddy with own := f { up.buddy.own with code := code, epoch := 4 } } }

/-- The two copies of the RWS object 0x4900 in MRAM differ under one EPOCH. -/
def split : State :=
  let c (v : Nat) : MramCopy := { epoch := 3, value := v, crc := mramCrc (objWidth 0x4900 0) 3 v }
  { up with mram := { up.mram with copyA := [(objKey 0 0x4900 0, c 5)], copyB := [(objKey 0 0x4900 0, c 6)] } }

theorem witness_LeasesAndRolesFollowTheReferee :
    (∀ c ∈ List.range 7, (getRole (roleAt c 0 id) 1).code = c) ∧ (getRole (roleAt 1 0 (fun x => { x with handing := true })) 1).handing = true ∧
    (laterW 32 4 4 = false ∧ laterW 32 4 3 = true) ∧
    ((getRole (roleAt 1 10000000 id) 1).late = false ∧ (getRole (roleAt 1 30000000 id) 1).granted + 30000000 ≤ (roleAt 1 30000000 id).ptime) ∧
    (let s : State := { roleAt 1 0 (fun x => { x with peerSynced := true }) with buddy := { (roleAt 1 0 id).buddy with
       own := { up.buddy.own with peerSynced := true }, mirror := { up.buddy.mirror with up := true } } }
     s.buddy.mirror.up = true ∧ s.buddy.mirror.simplex = false ∧ (getRole s 1).peerSynced = true ∧ obj (setObj 0x2800 1 0 s) 0x2800 1 = 0 ∧
     s.hosts.waiting = [] ∧ s.buddy.mirror.held = [] ∧ s.buddy.mirror.queue = []) ∧
    (let s : State := { up with buddy := { up.buddy with frozen := [(7, { epoch := 1, data := [] })] } }
     smFind? 7 s.buddy.frozen = some { epoch := 1, data := [] } ∧ smFind? 8 s.buddy.frozen = none ∧ rwsFrozen s 8 = []) ∧
    rwsFrozen split 0x4900 ≠ [] := by decide +kernel

/-- The mirror link is up; a cell of a type is next in sequence. -/
def mirrored (own other : Nat) (f : MirrorSt → MirrorSt) : State :=
  { up with buddy := { up.buddy with own := { up.buddy.own with code := own }, other := { up.buddy.other with code := other }, mirror := f { up.buddy.mirror with up := true } } }
def mirrorCellAt (ctype : Nat) (body : Bytes) : Bytes := mirrorCellBytes ctype 0 0xFFFF body

theorem witness_MirrorCellsActInSequence :
    (∀ k ∈ [1, 2, 3, 4, 5, 6, 7], let c := mirrorCellAt k (zeros 22)
      (cellReceived (shown 14 false c) (mirrored 1 2 id)).1 = c ∧ crc32 (slice c 0 28) = leAt c 28 4 ∧ mcType c = k ∧ mcSeq c = ((mirrored 1 2 id).buddy.mirror.accepted + 1) % 65536) ∧
    (acceptsLines (mirrored 1 2 id) false = true ∧ forOwn (mirrored 1 2 id) = false ∧ acceptsLines (mirrored 1 6 id) true = false ∧
      forOwn (mirrored 2 6 id) = true) ∧ poolQuiet (mirrored 2 6 id) ∧
    (let a : MirrorAsm := { resync := false, pa := 256, tag := 0, data := zeros 58 }
     64 ≤ a.data.length + 22 ∧ ¬ 64 ≤ (zeros 14 : Bytes).length + 22) ∧
    (let s := mirrored 1 2 (fun m => { m with copy := [(0, (0, zeros 64))] })
     smFind? 0 s.buddy.mirror.copy = some (0, zeros 64)) ∧
    (let b := mcBody (mirrorCellAt 5 (leBytes 8 9 ++ leBytes 4 0 ++ leBytes 4 0))
     crc32 (([] : List (Nat × Nat × Bytes)).map (fun x => x.2.2)).flatten = leAt b 12 4 ∧ laterW 32 0 (leAt b 8 4) = false) := by
  refine ⟨?_, ?_, ⟨rfl, rfl, rfl, fun _ h => nomatch h⟩, ?_, ?_, ?_⟩ <;> decide +kernel

/-- The power state changed. -/
def powered (f : PowerSt → PowerSt) : State := { up with power := f up.power }

theorem witness_InputsTemperaturesAndReferencesAreWatched :
    ((powered (fun p => { p with dip := true, vin := 3000 })).power.mainOn = true ∧ (powered (fun p => { p with ov := true })).power.ov = true ∧ up.buddy.phases = 26) ∧
    (let p := (powered (fun p => { p with mainOn := false, vin := 4000 })).power
     4000 ≤ p.vin ∧ p.vin ≤ 6000 ∧ p.mainOn = false ∧ p.shutdown ≠ 4 ∧ p.state ≠ 3) ∧
    (7 ≤ up.power.phase ∧ up.power.ref25 = true ∧ up.power.ref100 = true ∧ up.power.ref156 = true ∧ up.power.uvWarn = false) ∧
    (let p := (powered (fun p => { p with warmWait := true, ref25 := false, ref156 := false, pfail := true })).power
     p.warmWait = true ∧ p.pfailHeld = false ∧ p.ref156 = false) := by decide

/-- A POWER_STATE_CMD to M2. -/
def m2Bytes : Bytes := 2 :: zeros 23

theorem witness_PowerStatesGateRetainAndHold :
    (powerForm (powerBytes 2 m2Bytes) = true ∧ powerForm (powerBytes 1 (1 :: zeros 23)) = true ∧ powerPermits 0 2 = true ∧ powerConds up 2 0 0 = true ∧
      up.coh.lines = [] ∧ up.power.busy = false ∧ up.power.shutdown ≠ 4) ∧
    (mbPowerOk hosted 19 = false ∧ mbPowerOk (setObj 0x2B04 0 32 hosted) 19 = true ∧ powerConds active 3 0 0 = false) ∧
    (let p := (powered (fun p => { p with shutdown := 4, mainOn := false, vin := 3000 })).power
     p.shutdown = 4 ∧ p.mainOn = false ∧ p.powered = true ∧ p.junction < 90 ∧ p.stack < 90 ∧ p.vin < 4000) ∧
    (atRest up = true ∧ geomTiles up ≤ 64 ∧ atRest (lineIn .m) = false) ∧ poolQuiet up := by
  refine ⟨?_, ?_, ?_, ?_, ⟨rfl, rfl, rfl, fun _ h => nomatch h⟩⟩ <;> decide +kernel

/-- A report of channel 5. -/
def report (ok : Bool) : ChanReport :=
  let l : LaneEye := { rdFirst := 0, rdLast := if ok then 20 else 19, wrFirst := 10, wrLast := 40, ca := 1, gate := 2, vref := 3 }
  { pchan := 5, deviceId := 3, temperature := 40, patternOk := true, converged := List.replicate 6 true, lanes := [l, l] }

/-- Its record of an earlier start, at 30 degrees. -/
def oldRecord : TrainRec := trainRecord { report true with temperature := 30 } up

theorem witness_StartsGoThroughTheirPhases :
    (obj up 0x2A00 0 ≠ 2 ∧ (powered (fun p => { p with phase := 3 })).power.phase = 3 ∧ imageWhole (zeros 300) = true ∧ imageWhole (zeros 100) = false) ∧
    ((zeros 8 : Bytes).length ≤ 4096 ∧ unlocked up (expertGroup 0x4A00) false = false ∧
      unlocked { up with mgmt := { up.mgmt with unlocks := [(unlockKey (expertGroup 0x4A00) false, 1)] } } (expertGroup 0x4A00) false = true ∧ obj up 0x2A00 0 ≠ 1) ∧
    (let s := powered (fun p => { p with phase := 5, wave := 9 })
     (tileMap s.coh.tilesUp)[1]? = some 1 ∧ s.power.wave = 9) ∧
    (let s : State := { powered (fun p => { p with phase := 6, kind := 2 }) with mram := { up.mram with train := [(5, oldRecord)] } }
     channelTrains (report true) = true ∧ channelTrains (report false) = false ∧ needsTraining s (report true) = false ∧ s.power.trained = false ∧ s.hosts.regions = [] ∧ (∀ q ∈ List.range 64, partState s q = 0)) ∧
    (let s := setObj 0x2A01 0 (2 ^ 50) up
     portAbsent s 0 = true ∧ portAbsent up 0 = false ∧ portMismatch up 0 = false) ∧
    (let s := setObj 0x2A01 0 (7 * 2 ^ (64 * 2)) (laneAt 5 (fun l => { l with kind := 3, unit := 9 }))
     portMismatch s 2 = true) := by decide +kernel

theorem witness_ObjectsAreReadAndWrittenByTheirRows :
    (objRow? 0x0001 0 = none ∧ (objRow? 0x1101 0).map (·.kind) = some .ro ∧ mayWrite up .fm ⟨0x2800, 1, 2, 1, .rw, false, .fm, 0, .any⟩ 1 = true ∧
      (objRow? 0x4900 0).map (fun r => (r.expert, r.width)) ≠ none) ∧
    (let s : State := { up with mram := { up.mram with fmKey := some 1 } }
     s.mram.fmKey ≠ none) ∧
    (smFind? (unlockKey 3 true) ({ up.mgmt with unlocks := [(7, 5)] } : MgmtSt).unlocks = some 5 ∧ 0 < obj up 0x4B00 0) ∧
    ((1 :: 0 :: zeros 174 : Bytes).length = 176 ∧ leAt (1 :: 0 :: zeros 174) 0 1 = 1) ∧
    (up.lovage.frozen = false ∧ up.lovage.next < lovageRing ∧ up.lovage.seq < 2 ^ 32 ∧ unlocked up 9 false = false) := by decide +kernel

/-- An event has been sent with CTR 3, another waits. -/
def evented : State := { up with mgmt := { up.mgmt with
  unacked := [{ code := 1, ptime := 0, data := zeros 44, ctr := 3 }], events := [{ code := 2, ptime := 0, data := zeros 44, ctr := 0 }] } }

theorem witness_PathsReachTheDictionaryInTheirRole :
    (up.mgmt.responses.find? (fun r => r.1 == 5 && r.2.1 == zeros 16) = none ∧ ¬ (5 ≤ up.mram.fmCtr) ∧ up.power.image = none ∧ up.power.mainOn = true) ∧
    (let s : State := { up with mgmt := { up.mgmt with responses := [(5, zeros 16, .fife .ok [])] } }
     (s.mgmt.responses.find? (fun r => r.1 == 5 && r.2.1 == zeros 16)).isSome = true) ∧
    ((∃ e ∈ evented.mgmt.unacked, e.ctr = 3) ∧ (∀ e ∈ evented.mgmt.unacked, e.ctr ≠ 4) ∧ evented.mgmt.lost = 0 ∧ evented.mgmt.events.length = 1) ∧
    ((getWin up 19).busy = false ∧ (objRead (ldRole up 19) 0x1101 0 0xFF up).1 = .ok ∧ (objRead (ldRole up 19) 0x1101 0 0xFF up).2.length = 2 ∧
      (objRead (ldRole up 19) 1 0 0xFF up).1 ≠ .ok) ∧
    (let cell : Bytes := [0xC3, 0, 1, 0, 1, 0] ++ leBytes 2 0x1101 ++ [0, 2] ++ zeros 22
     leAt cell 9 1 = 2 ∧ (objRead (cellRole up (leAt cell 2 1)) 0x1101 0 0xFF up).2.length = 2) ∧
    (let s : State := { powered (fun p => { p with kind := 2, phase := 2, debug := 1 }) with mgmt := { up.mgmt with jtagHold := true } }
     s.mgmt.jtagHold = true ∧ s.power.warmWait = false ∧ debugging s = true ∧ debugging up = false) := by decide +kernel

end Sys2Proof.Tests
end

section
/-!
PROOFS. Class S counters (R15): an increment and a read.
-/
namespace Sys2Proof.Machine

/-! ## Reading the row and the value of a counter (R10, R15, R437) -/

/-- Is a row that of a class S counter? -/
def isCounter (r : ObjRow) : Bool := r.kind == .counter || r.kind == .counterRws

theorem isCounter_iff (r : ObjRow) : isCounter r = true ↔ r.kind = .counter ∨ r.kind = .counterRws := by
  simp [isCounter]

theorem objRow?_index {i u : Nat} {r : ObjRow} (h : objRow? i u = some r) : r.index = i := by
  have := List.find?_some h
  simp only [Bool.and_eq_true, beq_iff_eq] at this
  exact this.1.1

/-- The indices whose objects show something that the module keeps elsewhere. -/
def viewedIndices : List Nat :=
  [0x1000, 0x1200, 0x2321, 0x2B00, 0x3000, 0x3001, 0x3003, 0x3004, 0x3120, 0x3121, 0x3301, 0x3400, 0x3430, 0x3441, 0x3501,
   0x3701, 0x3800, 0x3801, 0x3802, 0x3A00, 0x3A01, 0x3B00, 0x3B01, 0x6101, 0x6102, 0x6701, 0x7000, 0x7001, 0x7002, 0x7022,
   0x7041, 0x7051, 0x8002]

theorem viewed_eq_none {i : Nat} (h : i ∉ viewedIndices) (s : State) (p u : Nat) : viewed s p i u = none := by
  unfold viewed
  split
  case h_34 => rfl
  all_goals exact absurd (by decide) h

/-- Every counter of the dictionary is 8 bytes wide and shows its own value. -/
theorem counterRows_wide_unviewed :
    objTable.all (fun r => !isCounter r || (r.width == 8 && !viewedIndices.contains r.index)) = true := by decide +kernel

theorem counterRow_width_index {i u : Nat} {r : ObjRow} (h : objRow? i u = some r) (hr : isCounter r = true) :
    r.width = 8 ∧ i ∉ viewedIndices := by
  have := List.all_eq_true.1 counterRows_wide_unviewed r (List.mem_of_find?_eq_some h)
  simpa [hr, objRow?_index h] using this

/-- What the fabric manager reads from a counter: its 64 bits. -/
theorem objRead_fm_counter {i u : Nat} {r : ObjRow} (h : objRow? i u = some r) (hr : isCounter r = true) (s : State)
    {part p : Nat} (hp : windowOf s .fm i part = .ok p) : objRead .fm i u part s = (.ok, leBytes 8 (pobj s p i u)) := by
  obtain ⟨hw, hi⟩ := counterRow_width_index h hr
  have hk : r.kind ≠ .wo := by rcases (isCounter_iff r).1 hr with e | e <;> simp [e]
  simp [objRead, h, mayRead, hk, hp, hw, objValue, viewed_eq_none hi]

theorem windowOf_outside {i : Nat} (h : inWindow i = false) (s : State) (r : Role) (part : Nat) :
    windowOf s r i part = .ok 0 := by
  simp [windowOf, h]

theorem windowOf_fm_inside {i p : Nat} (h : inWindow i = true) {s : State} (hp : p < geomParts s) (hf : p ≠ 0xFF) :
    windowOf s .fm i p = .ok p := by
  simp [windowOf, h, hf, hp]

theorem execObjRead_objs {ld i u p : Nat} {s t : State} (h : exec (.objRead ld i u p) s = .next t) : t.objs = s.objs := by
  have h : execObjRead ld i u p s = .next t := h
  simp only [execObjRead, Host.Outcome.next.injEq] at h
  rw [← h]
  split <;> rfl

/-! ## An increment of a counter (R15) -/

theorem counterAdd_whole {v n : Nat} (hc : v % 2 ^ 48 + n ≤ countMax) (hr : v % 2 ^ 63 < 2 ^ 48) (hv : v < 2 ^ 64) :
    counterAdd v n = (v + n, false) := by
  have hb : (if bitOf v 63 then satBit else 0) = v / 2 ^ 63 * 2 ^ 63 := by
    have : v / 2 ^ 63 = 0 ∨ v / 2 ^ 63 = 1 := by omega
    rcases this with e | e <;> simp only [bitOf, Nat.shiftRight_eq_div_pow, e, satBit] <;> rfl
  rw [counterAdd_below hc, hb]
  congr 1
  omega

theorem pbump_eq_setPobj {s : State} {p i u n w : Nat} (h : counterAdd (pobj s p i u) n = (w, false)) :
    pbump p i u n s = setPobj p i u w s := by
  simp [pbump, addCounter, h]

theorem pbump_saturates {s : State} {p i u n w : Nat} (h : counterAdd (pobj s p i u) n = (w, true)) :
    pbump p i u n s = raiseEvent 0x0004 (saturationData i u) (setPobj p i u w s) := by
  simp [pbump, addCounter, h]

/-- Settles O6: each clause is one case of `counterAdd`, and a counter's row shows the stored value. -/
theorem countersSaturateWithOneEvent : Obligations.CountersSaturateWithOneEvent := by
  intro s p i u n v count sat full
  refine ⟨fun hc hr hv => ?_, fun hc hs => ?_, fun hc hs => ?_, fun _ => pobj_setPobj s p i u full,
    fun q j w hk x => pobj_setPobj_other s x hk, fun r h hr => ?_⟩
  · exact pbump_eq_setPobj (counterAdd_whole hc hr hv)
  · have hs : bitOf (pobj s p i u) 63 = false := hs
    exact pbump_saturates (by rw [counterAdd_beyond hc, hs]; rfl)
  · have hs : bitOf (pobj s p i u) 63 = true := hs
    exact pbump_eq_setPobj (by rw [counterAdd_beyond hc, hs]; rfl)
  · have hr := (isCounter_iff r).2 hr
    exact ⟨fun hi => objRead_fm_counter h hr s (windowOf_outside hi s _ _),
      fun hi hp hf => objRead_fm_counter h hr s (windowOf_fm_inside hi hp hf), fun ld t e => execObjRead_objs e⟩
end Sys2Proof.Machine
end

section
/-!
PROOFS. Powered time (R18). No operation of the model but the power-on, the loss of input power and the tick touches the field
`ptime`. So each operation on the state has one lemma that says so (`<operation>_ptime`), proved from those of the operations
it calls, and each command one (`<command>_keepsTime`); the claim about every command is a case split over them. An operation
that takes another as an argument has a hypothesis that the argument leaves powered time as it is.
-/
namespace Sys2Proof.Machine

/-- A command that leaves powered time as it is where it answers with a next state. -/
def KeepsTime (s : State) (o : Out) : Prop := ∀ t, o = .next t → t.ptime = s.ptime

/-- Powered time after an instruction of a tile program: that of the state it gives, or that of `s` where it gives none. -/
def Issue.time (s : State) : Issue → Nat
  | .done t => t.ptime
  | .jump _ t => t.ptime
  | .hold t => t.ptime
  | .fault _ => s.ptime
  | .data _ _ _ t => t.ptime
  | .ends _ _ _ => s.ptime

/-! ### Rules for what the operations are made of -/

@[simp] theorem keepsTime_next (s t : State) : KeepsTime s (.next t) ↔ t.ptime = s.ptime := by
  simp [KeepsTime]

section
variable (s t : State)
@[simp] theorem Issue.time_done : (Issue.done t).time s = t.ptime := rfl
@[simp] theorem Issue.time_jump (d : Int) : (Issue.jump d t).time s = t.ptime := rfl
@[simp] theorem Issue.time_hold : (Issue.hold t).time s = t.ptime := rfl
@[simp] theorem Issue.time_fault (c : Nat) : (Issue.fault c).time s = s.ptime := rfl
@[simp] theorem Issue.time_data (st : Status) (o off : Nat) : (Issue.data st o off t).time s = t.ptime := rfl
@[simp] theorem Issue.time_ends (st : Status) (d r : Nat) : (Issue.ends st d r).time s = s.ptime := rfl
@[simp] theorem Issue.time_ite (c : Prop) [Decidable c] (a b : Issue) :
    (if c then a else b).time s = if c then a.time s else b.time s :=
  apply_ite (Issue.time s) c a b
end

@[simp] theorem ptime_ite (c : Prop) [Decidable c] (s t : State) :
    (if c then s else t).ptime = if c then s.ptime else t.ptime :=
  apply_ite State.ptime c s t

@[simp] theorem snd_ite {α β : Type} (c : Prop) [Decidable c] (a b : α × β) :
    (if c then a else b).2 = if c then a.2 else b.2 :=
  apply_ite Prod.snd c a b

@[simp] theorem fst_ite {α β : Type} (c : Prop) [Decidable c] (a b : α × β) :
    (if c then a else b).1 = if c then a.1 else b.1 :=
  apply_ite Prod.fst c a b

theorem Issue.time_done_updTile {tile : Nat} {f : TileSt → TileSt} {s t : State} (h : t.ptime = s.ptime) :
    (Issue.done (updTile tile f t)).time s = s.ptime := by
  rw [Issue.time_done, updTile_ptime, h]

theorem ptime_read_if {c : Prop} [Decidable c] {r : Bytes × State} {u : State} {n : Nat} (hr : r.2.ptime = n) (hu : u.ptime = n) :
    (if c then r else ([], u)).2.ptime = n := by
  split <;> assumption

/-- The state taken from an answer by a pattern is the answer's state. -/
theorem ptime_of_result {α : Type} {r : α × State} {a : α} {t : State} (h : r = (a, t)) :
    t.ptime = r.2.ptime := by rw [h]

@[simp] theorem ptime_foldl {α : Type} (f : State → α → State) (h : ∀ s a, KeepsTime s (.next (f s a)))
    (l : List α) (s : State) : (l.foldl f s).ptime = s.ptime := by
  induction l generalizing s with
  | nil => rfl
  | cons a l ih => rw [List.foldl_cons, ih, (keepsTime_next _ _).1 (h s a)]

/-- A part of what a fold carries that no step changes is the same at its end. -/
theorem foldl_keeps {α β γ : Type} (g : β → γ) {f : β → α → β} (h : ∀ b a, g (f b a) = g b) (l : List α) (b : β) :
    g (l.foldl f b) = g b := by
  induction l generalizing b with
  | nil => rfl
  | cons a l ih => rw [List.foldl_cons, ih, h]

/-! ### Counters, messages and events -/

@[simp] theorem takeFree_ptime (s : State) : (takeFree s).2.ptime = s.ptime := by simp [takeFree]

@[simp] theorem addCounter_ptime (part index sub n : Nat) (s : State) : (addCounter part index sub n s).2.ptime = s.ptime := by
  simp [addCounter]

@[simp] theorem lovageStore_ptime (code group sev : Nat) (data : Bytes) (s : State) :
    (lovageStore code group sev data s).2.ptime = s.ptime := by simp [lovageStore]

@[simp] theorem lovageRecordOf_ptime (code : Nat) (data : Bytes) (s : State) :
    (lovageRecordOf code data s).2.ptime = s.ptime := by simp [lovageRecordOf]

@[simp] theorem sendWop_ptime (type status index sub part : Nat) (data : Bytes) (s : State) :
    (sendWop type status index sub part data s).ptime = s.ptime := by simp [sendWop]

@[simp] theorem sendEvent_ptime (s : State) : (sendEvent s).ptime = s.ptime := by
  unfold sendEvent
  split <;> simp

@[simp] theorem raiseWithin_ptime (n n1 : Nat) (b : Bytes) (s : State) : (raiseWithin n n1 b s).ptime = s.ptime :=
  (reports_raiseWithin s n n1 b).kept State.ptime (fun _ _ _ _ _ => rfl)

@[simp] theorem raiseEvent_ptime (code : Nat) (data : Bytes) (s : State) : (raiseEvent code data s).ptime = s.ptime := by
  simp [raiseEvent]

@[simp] theorem lovageNote_ptime (code : Nat) (data : Bytes) (s : State) : (lovageNote code data s).ptime = s.ptime := by
  simp [lovageNote]

@[simp] theorem pbump_ptime (part index sub n : Nat) (s : State) : (pbump part index sub n s).ptime = s.ptime := by
  simp [pbump]

@[simp] theorem bump_ptime (index sub : Nat) (s : State) : (bump index sub s).ptime = s.ptime := by simp [bump]

/-! ### DRAM lines -/

@[simp] theorem storeOn_ptime (pstack line : Nat) (bs : List Byte) (s : State) :
    (storeOn pstack line bs s).ptime = s.ptime := by simp [storeOn]

@[simp] theorem storeLine_ptime (line : Nat) (bs : List Byte) (s : State) : (storeLine line bs s).ptime = s.ptime := by
  unfold storeLine
  repeat' split
  all_goals simp

@[simp] theorem writeLine_ptime (line : Nat) (data : Bytes) (tag : Nat) (s : State) :
    (writeLine line data tag s).ptime = s.ptime := by simp [writeLine]

@[simp] theorem logDramError_ptime (cls pa symbol : Nat) (src : Source) (s : State) :
    (logDramError cls pa symbol src s).ptime = s.ptime := by simp [logDramError]

@[simp] theorem evacFirst_ptime (l : List Nat) (s : State) : (evacFirst l s).ptime = s.ptime := by
  induction l with
  | nil => rfl
  | cons k ls ih =>
    unfold evacFirst
    split
    · rfl
    · exact ih

@[simp] theorem evacStart_ptime (l : Nat) (s : State) : (evacStart l s).ptime = s.ptime := by
  unfold evacStart
  split <;> simp

@[simp] theorem setRemaps_ptime (pc : Nat) (rows : List Nat) (s : State) : (setRemaps pc rows s).ptime = s.ptime := by
  simp [setRemaps]

@[simp] theorem rowCandidate_ptime (pa : Nat) (s : State) : (rowCandidate pa s).ptime = s.ptime := by simp [rowCandidate]

@[simp] theorem noteCorrected_ptime (pa symbol : Nat) (s : State) : (noteCorrected pa symbol s).ptime = s.ptime := by
  simp [noteCorrected]

@[simp] theorem noteUncorrectable_ptime (pa : Nat) (s : State) : (noteUncorrectable pa s).ptime = s.ptime := by
  simp [noteUncorrectable]

@[simp] theorem dropVector_ptime (line : Nat) (s : State) : (dropVector line s).ptime = s.ptime := by simp [dropVector]

@[simp] theorem poisonUnknown_ptime (line : Nat) (s : State) : (poisonUnknown line s).ptime = s.ptime := by
  simp [poisonUnknown]

@[simp] theorem logUncorrectable_ptime (cls pa : Nat) (src : Source) (s : State) :
    (logUncorrectable cls pa src s).ptime = s.ptime := by simp [logUncorrectable]

@[simp] theorem writeBack_ptime (cls line k : Nat) (w : List Byte) (src : Source) (s : State) :
    (writeBack cls line k w src s).ptime = s.ptime := by simp [writeBack]

@[simp] theorem readLineAs_ptime (clsC clsU : Nat) (src : Source) (line : Nat) (s : State) :
    (readLineAs clsC clsU src line s).1.ptime = s.ptime := by
  simp only [readLineAs]
  split <;> simp

@[simp] theorem readLine_ptime (src : Source) (line : Nat) (s : State) : (readLine src line s).1.ptime = s.ptime := by
  simp [readLine]

@[simp] theorem invalidateGranule_ptime (line : Nat) (s : State) : (invalidateGranule line s).ptime = s.ptime := by
  simp [invalidateGranule]

@[simp] theorem writeMerged_ptime (src : Source) (line : Nat) (d : List (Option Byte)) (hstate hint : Nat) (s : State) :
    (writeMerged src line d hstate hint s).ptime = s.ptime := by
  simp only [writeMerged]
  repeat' split
  all_goals simp

@[simp] theorem correctLine_ptime (src : Source) (line : Nat) (s : State) : (correctLine src line s).ptime = s.ptime := by
  unfold correctLine
  split <;> simp

@[simp] theorem setTag_ptime (src : Source) (line : Nat) (f : Nat → Nat) (s : State) :
    (setTag src line f s).ptime = s.ptime := by
  unfold setTag
  split <;> simp

@[simp] theorem poisonLine_ptime (src : Source) (line : Nat) (s : State) : (poisonLine src line s).ptime = s.ptime := by
  unfold poisonLine
  split <;> simp

/-! ### Packets and messages -/

@[simp] theorem endJob_ptime (j : Nat) (st : Status) (detail result reason : Nat) (s : State) :
    (endJob j st detail result reason s).ptime = s.ptime := by simp [endJob]

@[simp] theorem jobSent_ptime (j chan n : Nat) (s : State) : (jobSent j chan n s).ptime = s.ptime := by simp [jobSent]

@[simp] theorem jobAnswered_ptime (j chan : Nat) (err : Option Status) (off : Nat) (s : State) :
    (jobAnswered j chan err off s).ptime = s.ptime := by simp [jobAnswered]

@[simp] theorem failFor_ptime (w : ReqFor) (st : Status) (s : State) : (failFor w st s).ptime = s.ptime := by
  unfold failFor
  split <;> simp

@[simp] theorem failReq_ptime (dst tag : Nat) (st : Status) (s : State) : (failReq dst tag st s).ptime = s.ptime := by
  unfold failReq
  split <;> simp

@[simp] theorem mcNote_ptime (j : Nat) (skip failed : List Nat) (done : Nat) (err : Option Status) (s : State) :
    (mcNote j skip failed done err s).ptime = s.ptime := by
  unfold mcNote
  split <;> simp

@[simp] theorem mcRemove_ptime (tc mpsn : Nat) (eps : List Nat) (skip : Bool) (s : State) :
    (mcRemove tc mpsn eps skip s).ptime = s.ptime := by
  simp only [mcRemove]
  split <;> simp

@[simp] theorem enqueueLeaf_ptime (port sub svc : Nat) (it : SchedItem) (s : State) :
    (enqueueLeaf port sub svc it s).ptime = s.ptime := by simp [enqueueLeaf]

@[simp] theorem noteCount_ptime (dst tc count : Nat) (s : State) : (noteCount dst tc count s).ptime = s.ptime := by
  simp [noteCount]

@[simp] theorem numberUnit_ptime (o : Outgoing) (s : State) : (numberUnit o s).2.ptime = s.ptime := by
  unfold numberUnit
  repeat' split
  all_goals simp

@[simp] theorem failUnit_ptime (u : NlUnit) (st : Status) (s : State) : (failUnit u st s).ptime = s.ptime := by
  unfold failUnit
  split <;> simp

@[simp] theorem toPort_ptime (port : Nat) (o : Outgoing) (s : State) : (toPort port o s).ptime = s.ptime := by
  simp [toPort]

@[simp] theorem countThrottleDelay_ptime (o : Outgoing) (s : State) : (countThrottleDelay o s).ptime = s.ptime := by
  simp [countThrottleDelay]

@[simp] theorem tryLaunch_ptime (o : Outgoing) (s : State) : (tryLaunch o s).2.ptime = s.ptime := by
  simp only [tryLaunch]
  repeat' split
  all_goals simp (disch := assumption) [ptime_of_result]

@[simp] theorem mcSend_ptime (o : Outgoing) (win : Nat) (members : List Nat) (s : State) :
    (mcSend o win members s).ptime = s.ptime := by simp [mcSend]

@[simp] theorem mcLaunch_go_ptime (o : Outgoing) (mask win : Nat) (s : State) (tc : Nat) (st : SendStream) (count : Nat)
    (q : Packet) : (mcLaunch.go o mask win s tc st count q).ptime = s.ptime := by
  simp [mcLaunch.go]

@[simp] theorem mcLaunch_ptime (o : Outgoing) (p : Packet) (mask win : Nat) (s : State) :
    (mcLaunch o p mask win s).ptime = s.ptime := by
  unfold mcLaunch
  repeat' split
  all_goals simp

@[simp] theorem tryUnit_ptime (o : Outgoing) (s : State) : (tryUnit o s).2.ptime = s.ptime := by
  unfold tryUnit
  repeat' split
  all_goals simp

@[simp] theorem pumpWaiting_ptime (s : State) : (pumpWaiting s).ptime = s.ptime := by
  unfold pumpWaiting
  refine foldl_keeps (fun acc : State × List Outgoing => acc.1.ptime) (fun acc o => ?_) _ _
  repeat' split
  all_goals simp (disch := assumption) [ptime_of_result]

@[simp] theorem originate_ptime (o : Outgoing) (s : State) : (originate o s).ptime = s.ptime := by
  unfold originate
  repeat' split
  all_goals simp (disch := assumption) [ptime_of_result]

@[simp] theorem countElided_ptime (n carried : Nat) (s : State) : (countElided n carried s).ptime = s.ptime := by
  simp [countElided]

@[simp] theorem originateReq_ptime (who : ReqFor) (part sub svc : Nat) (gv : Option Nat) (opc tc dst mid smap span : Nat)
    (sectors : List Bytes) (s : State) :
    (originateReq who part sub svc gv opc tc dst mid smap span sectors s).ptime = s.ptime := by simp [originateReq]

@[simp] theorem setPba_ptime (p v : Nat) (b : Bool) (s : State) : (setPba p v b s).ptime = s.ptime := by simp [setPba]
@[simp] theorem undelivered_ptime (p v : Nat) (s : State) : (undelivered p v s).ptime = s.ptime := by simp [undelivered]

@[simp] theorem sendVector_ptime (p v : Nat) (s : State) : (sendVector p v s).ptime = s.ptime := by
  unfold sendVector
  repeat' split
  all_goals simp

@[simp] theorem signalVector_ptime (p v : Nat) (s : State) : (signalVector p v s).ptime = s.ptime := by
  simp [signalVector]

@[simp] theorem setErrCause_ptime (p bit : Nat) (s : State) : (setErrCause p bit s).ptime = s.ptime := by
  simp [setErrCause]

@[simp] theorem sendMirror_ptime (b : Bytes) (s : State) : (sendMirror b s).ptime = s.ptime := by simp [sendMirror]
@[simp] theorem mirrorPump_ptime (s : State) : (mirrorPump s).ptime = s.ptime := by simp [mirrorPump]

@[simp] theorem mirrorPush_ptime (ctype : Nat) (body : Bytes) (s : State) : (mirrorPush ctype body s).ptime = s.ptime := by
  simp [mirrorPush]

@[simp] theorem mirrorLine_ptime (ctype line tag : Nat) (data : Bytes) (s : State) :
    (mirrorLine ctype line tag data s).ptime = s.ptime := by simp [mirrorLine]

/-! ### The home agent -/

@[simp] theorem putVector_ptime (line : Nat) (v : BitVec 32) (s : State) : (putVector line v s).2.ptime = s.ptime := by
  simp [putVector]

@[simp] theorem dirAlloc_ptime (line : Nat) (hs : List Nat) (excl : Bool) (s : State) :
    (dirAlloc line hs excl s).2.2.ptime = s.ptime := by
  unfold dirAlloc
  split <;> simp

@[simp] theorem mirrorTag_ptime (line : Nat) (s : State) : (mirrorTag line s).ptime = s.ptime := by simp [mirrorTag]

@[simp] theorem mirrorStored_ptime (line : Nat) (s : State) : (mirrorStored line s).ptime = s.ptime := by
  unfold mirrorStored
  repeat' split
  all_goals simp

@[simp] theorem dirSet_ptime (src : Source) (line : Nat) (hs : List Nat) (excl : Bool) (s : State) :
    (dirSet src line hs excl s).ptime = s.ptime := by simp [dirSet]

@[simp] theorem dirDrop_ptime (src : Source) (line : Nat) (s : State) : (dirDrop src line s).ptime = s.ptime := by
  unfold dirDrop
  split <;> simp

@[simp] theorem resolveDead_ptime (line : Nat) (s : State) : (resolveDead line s).ptime = s.ptime := by
  simp only [resolveDead]
  repeat' split
  all_goals simp

@[simp] theorem sendBisnp_ptime (line : Nat) (sn : Snoop) (s : State) : (sendBisnp line sn s).ptime = s.ptime := by
  simp [sendBisnp]

@[simp] theorem bridgeSnoop_ptime (line bridge : Nat) (s : State) : (bridgeSnoop line bridge s).ptime = s.ptime := by
  simp [bridgeSnoop]

@[simp] theorem startTxn_ptime (line : Nat) (who : TxnFor) (inv : Bool) (requester : Option Nat) (s : State) :
    (startTxn line who inv requester s).ptime = s.ptime := by simp [startTxn]

@[simp] theorem noteSramRow_ptime (r : SramRow) (s : State) : (noteSramRow r s).ptime = s.ptime := by simp [noteSramRow]

@[simp] theorem noteFilterRow_ptime (line : Nat) (s : State) : (noteFilterRow line s).ptime = s.ptime := by
  simp [noteFilterRow]

@[simp] theorem filterAlarm_ptime (line : Nat) (s : State) : (filterAlarm line s).ptime = s.ptime := by simp [filterAlarm]

@[simp] theorem prepTiles_ptime (inv whole : Bool) (line : Nat) (s : State) :
    (prepTiles inv whole line s).2.ptime = s.ptime := by
  unfold prepTiles
  split <;> simp

@[simp] theorem prepHosts_ptime (u : DirUse) (line : Nat) (s : State) : (prepHosts u line s).2.ptime = s.ptime := by
  simp only [prepHosts]
  split <;> simp

@[simp] theorem clearAnswered_ptime (line : Nat) (s : State) : (clearAnswered line s).ptime = s.ptime := by
  simp [clearAnswered]

@[simp] theorem dropTileCopies_ptime (line : Nat) (s : State) : (dropTileCopies line s).ptime = s.ptime := by
  unfold dropTileCopies
  split <;> simp

@[simp] theorem lineReadNow_ptime (src : Source) (line : Nat) (s : State) : (lineReadNow src line s).1.ptime = s.ptime := by
  simp only [lineReadNow]
  split <;> simp

@[simp] theorem lineWriteNow_ptime (src : Source) (line : Nat) (d : List (Option Byte)) (hs : List Nat) (excl : Bool)
    (s : State) : (lineWriteNow src line d hs excl s).ptime = s.ptime := by simp [lineWriteNow]

@[simp] theorem readLines_ptime (src : Source) (l : List Nat) (s : State) : (readLines src l s).1.ptime = s.ptime := by
  induction l generalizing s with
  | nil => rfl
  | cons a ls ih =>
    simp only [readLines]
    repeat' split
    all_goals simp [ih]

@[simp] theorem reduceNow_ptime (src : Source) (line : Nat) (addends : List (BitVec 32)) (mask : BitVec 16) (s : State) :
    (reduceNow src line addends mask s).1.ptime = s.ptime := by
  simp only [reduceNow]
  split <;> simp

@[simp] theorem perform_ptime (src : Source) (op : MemOp) (s : State) : (perform src op s).1.ptime = s.ptime := by
  cases op with
  | reduceSpan pa a mask => exact foldl_keeps (fun x : State × Answer => x.1.ptime) (fun x l => by simp) _ _
  | _ =>
    simp only [perform]
    repeat' split
    all_goals simp

@[simp] theorem putFilter_ptime (line : Nat) (f : FilterEntry) (s : State) : (putFilter line f s).ptime = s.ptime := by
  simp [putFilter]

@[simp] theorem dropFilter_ptime (line : Nat) (s : State) : (dropFilter line s).ptime = s.ptime := by simp [dropFilter]

@[simp] theorem awaitGack_ptime (line t : Nat) (req : TileReq) (drop : Bool) (s : State) :
    (awaitGack line t req drop s).ptime = s.ptime := by simp [awaitGack]

@[simp] theorem completeTile_ptime (line t : Nat) (req : TileReq) (x : HomeTxn) (s : State) :
    (completeTile line t req x s).ptime = s.ptime := by
  simp only [completeTile]
  repeat' split
  all_goals simp

@[simp] theorem recallLine_ptime (id : Nat) (poison : Bool) (s : State) : (recallLine id poison s).ptime = s.ptime := by
  simp [recallLine]

@[simp] theorem answerPacket_ptime (p : Packet) (kp : Option Nat) (opc : Nat) (st : Status) (smap : Nat)
    (sectors : List Bytes) (s : State) : (answerPacket p kp opc st smap sectors s).ptime = s.ptime := by
  simp [answerPacket]

@[simp] theorem answerNarlin_ptime (p : Packet) (kp : Option Nat) (a : Answer) (s : State) :
    (answerNarlin p kp a s).ptime = s.ptime := by
  unfold answerNarlin
  split <;> simp

@[simp] theorem deliverReply_ptime (rep : Reply) (op : MemOp) (a : Answer) (s : State) :
    (deliverReply rep op a s).ptime = s.ptime := by
  unfold deliverReply
  split <;> simp

@[simp] theorem performFor_ptime (r : Req) (s : State) : (performFor r s).ptime = s.ptime := by simp [performFor]

@[simp] theorem prepLines_ptime (op : MemOp) (l : List Nat) (s : State) : (prepLines op l s).2.ptime = s.ptime := by
  induction l generalizing s with
  | nil => rfl
  | cons a ls ih => unfold prepLines; simp [ih]

@[simp] theorem storeModified_ptime (t line : Nat) (d : Bytes) (poison : Bool) (s : State) :
    (storeModified t line d poison s).ptime = s.ptime := by simp [storeModified]

@[simp] theorem takePut_ptime (t line : Nat) (data : Option (Bytes × Bool)) (s : State) :
    (takePut t line data s).ptime = s.ptime := by
  unfold takePut
  repeat' split
  all_goals simp

@[simp] theorem runReq_ptime (r : Req) (s : State) : (runReq r s).2.ptime = s.ptime := by
  simp only [runReq]
  repeat' split
  all_goals simp

@[simp] theorem leaveAccesses_ptime (f : Nat → JobSt → Bool) (s : State) : (leaveAccesses f s).ptime = s.ptime := by
  simp [leaveAccesses]

@[simp] theorem pump_ptime (s : State) : (pump s).ptime = s.ptime := by
  unfold pump
  refine foldl_keeps (fun acc : State × List Nat => acc.1.ptime) (fun acc r => ?_) _ _
  simp

@[simp] theorem keepPlaces_ptime (p : Placer) (ops : List MemOp) (s : State) : (keepPlaces p ops s).ptime = s.ptime := by
  simp [keepPlaces]

@[simp] theorem takePlaces_ptime (p : Placer) (ops : List MemOp) (s : State) : (takePlaces p ops s).ptime = s.ptime := by
  simp [takePlaces]

@[simp] theorem prepEach_ptime (p : Placer) (l : List MemOp) (s : State) : (prepEach p l s).2.ptime = s.ptime := by
  induction l generalizing s with
  | nil => rfl
  | cons a ls ih => unfold prepEach; simp [ih]

@[simp] theorem prepAll_ptime (p : Placer) (ops : List MemOp) (s : State) : (prepAll p ops s).2.ptime = s.ptime := by
  simp [prepAll]

@[simp] theorem submit_ptime (src : Source) (op : MemOp) (reply : Reply) (s : State) :
    (submit src op reply s).ptime = s.ptime := by simp [submit]

@[simp] theorem tryMem_ptime (p : Placer) (src : Source) (op : MemOp) (s : State) : (tryMem p src op s).2.ptime = s.ptime := by
  simp [tryMem]

@[simp] theorem answerSnoop_ptime (h line : Nat) (gaveUp : Bool) (data : Option Bytes) (s : State) :
    (answerSnoop h line gaveUp data s).ptime = s.ptime := by
  simp only [answerSnoop]
  repeat' split
  all_goals simp

/-! ### Translation -/

@[simp] theorem xlCached_ptime (p lvl va : Nat) (s : State) : (xlCached p lvl va s).2.ptime = s.ptime := by
  unfold xlCached
  split <;> simp

@[simp] theorem xlEntry_ptime (p lvl va base : Nat) (s : State) : (xlEntry p lvl va base s).2.ptime = s.ptime := by
  simp only [xlEntry]
  repeat' split
  all_goals simp (disch := assumption) [ptime_of_result]

@[simp] theorem xlLevels_ptime (p : Nat) (k : AccKind) (va n n1 n2 : Nat) (s : State) :
    (xlLevels p k va n n1 n2 s).2.ptime = s.ptime := by
  induction n generalizing n1 n2 s with
  | zero => rfl
  | succ n ih =>
    unfold xlLevels
    repeat' split
    all_goals simp (disch := assumption) [ptime_of_result, ih]

@[simp] theorem xlHit_ptime (p va : Nat) (s : State) : (xlHit p va s).2.ptime = s.ptime := by
  unfold xlHit
  repeat' split
  all_goals simp (disch := assumption) [ptime_of_result]

@[simp] theorem walkBegins_ptime (p va : Nat) (s : State) : (walkBegins p va s).ptime = s.ptime := by simp [walkBegins]
@[simp] theorem walkEnds_ptime (p va : Nat) (s : State) : (walkEnds p va s).ptime = s.ptime := by simp [walkEnds]

@[simp] theorem xlWalk_ptime (p : Nat) (k : AccKind) (va : Nat) (s : State) : (xlWalk p k va s).2.ptime = s.ptime := by
  simp only [xlWalk]
  split <;> simp

@[simp] theorem xlate_ptime (p : Nat) (k : AccKind) (va : Nat) (s : State) : (xlate p k va s).2.ptime = s.ptime := by
  unfold xlate
  split <;> simp (disch := assumption) [ptime_of_result]

@[simp] theorem xlFault_ptime (p va : Nat) (st : Status) (s : State) : (xlFault p va st s).ptime = s.ptime :=
  setPobj_ptime s p 0x6103 0 _

@[simp] theorem xlRange_ptime (p : Nat) (k : AccKind) (n n1 n2 : Nat) (l : List Ext) (s : State) :
    (xlRange p k n n1 n2 l s).2.ptime = s.ptime := by
  induction n generalizing n1 n2 l s with
  | zero => rfl
  | succ n ih =>
    unfold xlRange
    repeat' split
    all_goals simp (disch := assumption) [ptime_of_result, ih]

@[simp] theorem sealOperand_ptime (p va len : Nat) (k : AccKind) (s : State) :
    (sealOperand p va len k s).2.ptime = s.ptime := by
  unfold sealOperand
  repeat' split
  all_goals simp (disch := assumption) [ptime_of_result]

@[simp] theorem xlClear_ptime (p lo len : Nat) (s : State) : (xlClear p lo len s).ptime = s.ptime := by simp [xlClear]
@[simp] theorem xlClearAll_ptime (p : Nat) (s : State) : (xlClearAll p s).ptime = s.ptime := by simp [xlClearAll]

/-! ### Memory of jobs -/

@[simp] theorem setPartState_ptime (p st cause : Nat) (s : State) : (setPartState p st cause s).ptime = s.ptime := by
  simp [setPartState]

@[simp] theorem countRefused_ptime (sub svc code port kind : Nat) (s : State) :
    (countRefused sub svc code port kind s).ptime = s.ptime := by
  unfold countRefused
  split
  · simp
  · rw [setPobj_ptime, pbump_ptime]

@[simp] theorem countDelayed_ptime (sub code : Nat) (s : State) : (countDelayed sub code s).ptime = s.ptime := by
  simp [countDelayed]

@[simp] theorem memTokens_ptime (x : JobSt) (addr : Nat) (len : Nat) (s : State) : (memTokens x addr len s).ptime = s.ptime := by
  simp [memTokens]

@[simp] theorem ptime_foldl_memTokens (x : JobSt) (l : List Piece) (s : State) :
    (l.foldl (fun t p => memTokens x p.addr p.len t) s).ptime = s.ptime :=
  ptime_foldl _ (by simp) l s

@[simp] theorem performAll_ptime (src : Source) (l : List MemOp) (s : State) : (performAll src l s).2.ptime = s.ptime := by
  induction l generalizing s with
  | nil => rfl
  | cons a ls ih =>
    simp only [performAll]
    repeat' split
    all_goals simp (disch := assumption) [ptime_of_result, ih]

@[simp] theorem chargeLine_ptime (j line : Nat) (s : State) : (chargeLine j line s).ptime = s.ptime := by
  unfold chargeLine
  split <;> simp

@[simp] theorem jobReq_ptime (j : Nat) (x : JobSt) (chan : Nat) (who : ReqFor) (opc tc dst addr smap span : Nat)
    (sectors : List Bytes) (s : State) : (jobReq j x chan who opc tc dst addr smap span sectors s).ptime = s.ptime := by
  simp [jobReq]

@[simp] theorem readRemote_ptime (j : Nat) (x : JobSt) (chan slot off at_ : Nat) (pc : Piece) (s : State) :
    (readRemote j x chan slot off at_ pc s).ptime = s.ptime := by simp [readRemote]

@[simp] theorem askRemote_ptime (j : Nat) (x : JobSt) (chan slot off at_ : Nat) (miss : List Piece) (s : State) :
    (askRemote j x chan slot off at_ miss s).ptime = s.ptime := by simp [askRemote]

@[simp] theorem opFetch_ptime (j chan slot : Nat) (o : Operand) (off n at_ : Nat) (s : State) :
    (opFetch j chan slot o off n at_ s).2.ptime = s.ptime := by
  simp only [opFetch]
  repeat' split
  all_goals simp (disch := assumption) [ptime_of_result]

@[simp] theorem opRead_ptime (j chan slot : Nat) (o : Operand) (off n at_ : Nat) (s : State) :
    (opRead j chan slot o off n at_ s).2.ptime = s.ptime := by
  unfold opRead
  repeat' split
  all_goals simp

@[simp] theorem writeRemote_ptime (j : Nat) (x : JobSt) (chan tc at_ : Nat) (pc : Piece) (data : Bytes) (s : State) :
    (writeRemote j x chan tc at_ pc data s).ptime = s.ptime := by simp [writeRemote]

@[simp] theorem opWrite_ptime (j chan : Nat) (o : Operand) (off tc : Nat) (data : Bytes) (at_ : Nat) (s : State) :
    (opWrite j chan o off tc data at_ s).2.ptime = s.ptime := by
  have hremote (x : JobSt) (l : List Piece) (t : State) :
      (l.foldl (fun t p => writeRemote j x chan tc at_ p data t) t).ptime = t.ptime :=
    ptime_foldl _ (by simp) l t
  simp only [opWrite]
  repeat' split
  all_goals simp (disch := assumption) [ptime_of_result, hremote]

@[simp] theorem endJobDetail_ptime (j : Nat) (st : Status) (det : Nat) (s : State) :
    (endJobDetail j st det s).ptime = s.ptime := by simp [endJobDetail]

@[simp] theorem endJobResult_ptime (j : Nat) (st : Status) (res : Nat) (s : State) :
    (endJobResult j st res s).ptime = s.ptime := by simp [endJobResult]

@[simp] theorem endJobFree_ptime (j : Nat) (st : Status) (reason : Nat) (s : State) :
    (endJobFree j st reason s).ptime = s.ptime := by simp [endJobFree]

@[simp] theorem setChecked_ptime (j : Nat) (b : Bytes) (s : State) : (setChecked j b s).ptime = s.ptime := by
  simp [setChecked]

@[simp] theorem checkOnce_ptime (j : Nat) (x : JobSt) (chk : Option (Status × Nat)) (go : State → State) (s : State)
    (hgo : ∀ t, (go t).ptime = t.ptime) : (checkOnce j x chk go s).ptime = s.ptime := by
  unfold checkOnce
  repeat' split
  all_goals simp [hgo]

@[simp] theorem setStage_ptime (j n : Nat) (s : State) : (setStage j n s).ptime = s.ptime := by simp [setStage]

@[simp] theorem finishJob_ptime (j cls : Nat) (done : State → State) (s : State) (hdone : ∀ t, (done t).ptime = t.ptime) :
    (finishJob j cls done s).ptime = s.ptime := by
  unfold finishJob
  repeat' split
  all_goals simp [hdone]

/-! ### The tile domain -/

@[simp] theorem zeroTile_ptime (t : Nat) (s : State) : (zeroTile t s).ptime = s.ptime := by simp [zeroTile]

@[simp] theorem clearRegs_ptime (keepScratch : Bool) (t : Nat) (s : State) : (clearRegs keepScratch t s).ptime = s.ptime := by
  simp [clearRegs]

@[simp] theorem spareTile_ptime (t : Nat) (s : State) : (spareTile t s).ptime = s.ptime := by
  simp only [spareTile]
  split <;> simp

@[simp] theorem putLine_ptime (t line : Nat) (c : CacheLine) (s : State) : (putLine t line c s).ptime = s.ptime := by
  simp [putLine]

@[simp] theorem dropLine_ptime (t line : Nat) (s : State) : (dropLine t line s).ptime = s.ptime := by simp [dropLine]

@[simp] theorem countFault_ptime (t line : Nat) (f : ArrayFault) (s : State) : (countFault t line f s).ptime = s.ptime := by
  unfold countFault
  split <;> simp

@[simp] theorem evictLine_ptime (t line : Nat) (s : State) : (evictLine t line s).ptime = s.ptime := by
  unfold evictLine
  repeat' split
  all_goals simp

@[simp] theorem leaveDomain_ptime (t : Nat) (s : State) : (leaveDomain t s).ptime = s.ptime := by simp [leaveDomain]

@[simp] theorem touchLine_ptime (t line way : Nat) (s : State) : (touchLine t line way s).ptime = s.ptime := by
  simp [touchLine]

@[simp] theorem makeRoom_ptime (t line : Nat) (s : State) : (makeRoom t line s).2.ptime = s.ptime := by
  simp only [makeRoom]
  repeat' split
  all_goals simp

@[simp] theorem closeContexts_ptime (p : Nat) (s : State) : (closeContexts p s).ptime = s.ptime := by simp [closeContexts]

@[simp] theorem endSalvage_ptime (s : State) : (endSalvage s).ptime = s.ptime := by
  unfold endSalvage
  rw [ptime_foldl _ (by simp)]
  refine ptime_foldl _ (fun t e => ?_) _ _
  repeat' split
  all_goals simp

@[simp] theorem failDomain_ptime (cause ptile line : Nat) (s : State) : (failDomain cause ptile line s).ptime = s.ptime := by
  simp [failDomain]

@[simp] theorem domainAlarm_ptime (cause ptile line : Nat) (s : State) : (domainAlarm cause ptile line s).ptime = s.ptime := by
  simp only [domainAlarm]
  split <;> simp

@[simp] theorem takeAlarm_ptime (s : State) : (takeAlarm s).ptime = s.ptime := by
  unfold takeAlarm
  split <;> simp

/-! ### Regions and extents -/

@[simp] theorem answerCmd_ptime (r : Status × State) : (answerCmd r).ptime = r.2.ptime := by simp [answerCmd]

@[simp] theorem writeRecorded_ptime (role index sub part : Nat) (s : State) :
    (writeRecorded role index sub part s).ptime = s.ptime := by simp [writeRecorded]

@[simp] theorem answerFm_ptime (index sub : Nat) (r : Status × State) : (answerFm index sub r).ptime = r.2.ptime := by
  simp [answerFm]

@[simp] theorem answerExpert_ptime (index : Nat) (f : State → Status × State) (s : State)
    (hf : ∀ t, (f t).2.ptime = t.ptime) : (answerExpert index f s).ptime = s.ptime := by simp [answerExpert, hf]

@[simp] theorem answerBy_ptime (by_ : Option Nat) (index : Nat) (r : Status × State) :
    (answerBy by_ index r).ptime = r.2.ptime := by
  unfold answerBy
  split <;> simp

@[simp] theorem zeroBlock_ptime (b : Nat) (s : State) : (zeroBlock b s).ptime = s.ptime := by simp [zeroBlock]
@[simp] theorem fillBlock_ptime (b : Nat) (s : State) : (fillBlock b s).2.ptime = s.ptime := by simp [fillBlock]

@[simp] theorem fillBlocks_ptime (l : List Nat) (s : State) : (fillBlocks l s).2.ptime = s.ptime := by
  induction l generalizing s with
  | nil => rfl
  | cons a ls ih => simp [fillBlocks, ih]

@[simp] theorem copyLine_ptime (src dst : Nat) (s : State) : (copyLine src dst s).ptime = s.ptime := by
  simp only [copyLine]
  split <;> simp

@[simp] theorem copyBlocks_ptime (region src dst n : Nat) (s : State) : (copyBlocks region src dst n s).2.ptime = s.ptime := by
  simp [copyBlocks]

@[simp] theorem startRecall_ptime (why : RecallFor) (lines hosts : List Nat) (s : State) :
    (startRecall why lines hosts s).2.ptime = s.ptime := by simp [startRecall]

@[simp] theorem regionDone_ptime (st : Status) (s : State) : (regionDone st s).ptime = s.ptime := by simp [regionDone]

@[simp] theorem mapBlocks_ptime (ld dpa region kind : Nat) (rw : Bool) (bs : List Nat) (s : State) :
    (mapBlocks ld dpa region kind rw bs s).ptime = s.ptime := by simp [mapBlocks]

@[simp] theorem unmapWhere_ptime (f : Nat → MapEntry → Bool) (s : State) : (unmapWhere f s).ptime = s.ptime := by
  simp [unmapWhere]

@[simp] theorem finishUnmap_ptime (ld region kind : Nat) (s : State) : (finishUnmap ld region kind s).ptime = s.ptime := by
  simp [finishUnmap]

@[simp] theorem pubOutcome_ptime (ld token : Nat) (st : Status) (s : State) : (pubOutcome ld token st s).ptime = s.ptime := by
  simp [pubOutcome]

@[simp] theorem setBusy_ptime (ld : Nat) (b : Bool) (s : State) : (setBusy ld b s).ptime = s.ptime := by simp [setBusy]

@[simp] theorem updHeadOp_ptime (r : Nat) (f : RegOp → RegOp) (s : State) : (updHeadOp r f s).ptime = s.ptime := by
  simp [updHeadOp]

@[simp] theorem popOp_ptime (r : Nat) (s : State) : (popOp r s).ptime = s.ptime := by simp [popOp]

@[simp] theorem publishSwap_ptime (r : Nat) (s : State) : (publishSwap r s).ptime = s.ptime := by
  simp only [publishSwap]
  repeat' split
  all_goals simp

@[simp] theorem publishReaders_ptime (r : Nat) (poison : Bool) (s : State) : (publishReaders r poison s).ptime = s.ptime := by
  simp only [publishReaders]
  split <;> simp

@[simp] theorem startOp_ptime (r : Nat) (s : State) : (startOp r s).ptime = s.ptime := by
  simp only [startOp]
  repeat' split
  all_goals simp

@[simp] theorem finishExtent_ptime (ld dpa : Nat) (s : State) : (finishExtent ld dpa s).ptime = s.ptime := by
  unfold finishExtent
  split <;> simp

@[simp] theorem recallOver_ptime (s : State) (e : Nat × Recall) : (recallOver s e).ptime = s.ptime := by
  unfold recallOver
  repeat' split
  all_goals simp

@[simp] theorem settleOnce_ptime (s : State) : (settleOnce s).ptime = s.ptime := by simp [settleOnce]
@[simp] theorem settle_ptime (s : State) : (settle s).ptime = s.ptime := by simp [settle]
@[simp] theorem wake_ptime (s : State) : (wake s).ptime = s.ptime := by simp [wake]

@[simp] theorem rcPerform_ptime (b : Bytes) (s : State) : (rcPerform b s).2.ptime = s.ptime := by
  unfold rcPerform
  split <;> simp

@[simp] theorem regionCmd_ptime (b : Bytes) (s : State) : (regionCmd b s).2.ptime = s.ptime := by simp [regionCmd]
@[simp] theorem execCreate_keepsTime (cmd : Bytes) (s : State) : KeepsTime s (execCreate cmd s) := by simp [execCreate]

@[simp] theorem execMapRegion_keepsTime (cmd : Bytes) (s : State) : KeepsTime s (execMapRegion cmd s) := by
  simp [execMapRegion]

@[simp] theorem execUnmap_keepsTime (cmd : Bytes) (s : State) : KeepsTime s (execUnmap cmd s) := by simp [execUnmap]

@[simp] theorem execAddDraft_keepsTime (cmd : Bytes) (s : State) : KeepsTime s (execAddDraft cmd s) := by
  simp [execAddDraft]

@[simp] theorem execReleaseRegion_keepsTime (cmd : Bytes) (s : State) : KeepsTime s (execReleaseRegion cmd s) := by
  simp [execReleaseRegion]

@[simp] theorem execQuery_keepsTime (cmd : Bytes) (s : State) : KeepsTime s (execQuery cmd s) := by simp [execQuery]

@[simp] theorem execRegionZeroFillDone_keepsTime (region : Nat) (s : State) :
    KeepsTime s (execRegionZeroFillDone region s) := by simp [execRegionZeroFillDone]

@[simp] theorem execRegionRecallDone_keepsTime (region : Nat) (s : State) : KeepsTime s (execRegionRecallDone region s) := by
  simp [execRegionRecallDone]

@[simp] theorem execRegionSanitiseDone_keepsTime (region : Nat) (s : State) :
    KeepsTime s (execRegionSanitiseDone region s) := by simp [execRegionSanitiseDone]

@[simp] theorem execDcAddCapacity_keepsTime (port ld : Nat) (tag : Bytes) (dpa pa len : Nat) (s : State) :
    KeepsTime s (execDcAddCapacity port ld tag dpa pa len s) := by simp [execDcAddCapacity]

@[simp] theorem execDcExtentAccept_keepsTime (port ld dpa : Nat) (s : State) :
    KeepsTime s (execDcExtentAccept port ld dpa s) := by
  simp only [execDcExtentAccept]
  split <;> simp

@[simp] theorem execDcExtentRelease_keepsTime (port ld dpa : Nat) (s : State) :
    KeepsTime s (execDcExtentRelease port ld dpa s) := by
  simp only [execDcExtentRelease]
  repeat' split
  all_goals simp

@[simp] theorem pubCtrl_ptime (kind : RegOpKind) (ld token : Nat) (s : State) : (pubCtrl kind ld token s).ptime = s.ptime := by
  simp [pubCtrl]

@[simp] theorem pubWrite_ptime (ld off v : Nat) (s : State) : (pubWrite ld off v s).ptime = s.ptime := by
  unfold pubWrite
  repeat' split
  all_goals simp

@[simp] theorem pubRegs_ptime (ld region expect : Nat) (s : State) : (pubRegs ld region expect s).ptime = s.ptime := by
  simp [pubRegs]

@[simp] theorem execPublish_keepsTime (port ld region expect token : Nat) (s : State) :
    KeepsTime s (execPublish port ld region expect token s) := by simp [execPublish]

@[simp] theorem execRebase_keepsTime (port ld region token : Nat) (s : State) :
    KeepsTime s (execRebase port ld region token s) := by simp [execRebase]

@[simp] theorem execPubCtrlRsvdOp_keepsTime (port ld token : Nat) (s : State) :
    KeepsTime s (execPubCtrlRsvdOp port ld token s) := by simp [execPubCtrlRsvdOp]

@[simp] theorem execDraftCopyDone_keepsTime (region : Nat) (s : State) : KeepsTime s (execDraftCopyDone region s) := by
  simp only [execDraftCopyDone]
  repeat' split
  all_goals simp

@[simp] theorem abandonPublishes_ptime (lds : List Nat) (s : State) : (abandonPublishes lds s).ptime = s.ptime := by
  simp [abandonPublishes]

/-! ### Piccolo -/

@[simp] theorem deliverSync_ptime (r : SyncResp) (s : State) : (deliverSync r s).ptime = s.ptime := by
  unfold deliverSync
  split <;> simp

@[simp] theorem syncRelease_ptime (s : State) : (syncRelease s).ptime = s.ptime := by simp [syncRelease]
@[simp] theorem syncSend_ptime (r : SyncResp) (s : State) : (syncSend r s).ptime = s.ptime := by simp [syncSend]

@[simp] theorem syncOk_ptime (q : SyncReq) (undo : Bool) (s : State) : (syncOk q undo s).ptime = s.ptime := by
  simp [syncOk]

@[simp] theorem syncRefuse_ptime (q : SyncReq) (st : Status) (retry : Nat) (s : State) :
    (syncRefuse q st retry s).ptime = s.ptime := by simp [syncRefuse]

@[simp] theorem syncLoss_ptime (q : SyncReq) (s : State) : (syncLoss q s).ptime = s.ptime := by
  unfold syncLoss
  split <;> simp

@[simp] theorem bankEnqueue_ptime (q : SyncReq) (s : State) : (bankEnqueue q s).ptime = s.ptime := by simp [bankEnqueue]
@[simp] theorem syncCell_ptime (b : Bytes) (s : State) : (syncCell b s).ptime = s.ptime := by simp [syncCell]

@[simp] theorem syncJob_ptime (j : Nat) (s : State) : (syncJob j s).ptime = s.ptime := by
  unfold syncJob
  split <;> simp

@[simp] theorem execPiccoloBankEnqueue_keepsTime (src : SyncSource) (s : State) :
    KeepsTime s (execPiccoloBankEnqueue src s) := by
  unfold execPiccoloBankEnqueue
  split <;> simp

@[simp] theorem dataPhase_ptime (bank op : Nat) (types : List Nat) (f : Nat → SyncReq → SyncObj → State → State)
    (s : State) (hf : ∀ x y z t, (f x y z t).ptime = t.ptime) : (dataPhase bank op types f s).ptime = s.ptime := by
  simp only [dataPhase]
  repeat' split
  all_goals simp [hf]

@[simp] theorem syncWait_ptime (p : Nat) (q : SyncReq) (s : State) : (syncWait p q s).2.ptime = s.ptime := by
  simp [syncWait]

@[simp] theorem serveSem_ptime (n : Nat) (l : List SyncReq) (s : State) : (serveSem n l s).ptime = s.ptime := by
  induction l generalizing s with
  | nil => rfl
  | cons a ls ih => unfold serveSem; simp [ih]

@[simp] theorem serveEvent_ptime (n : Nat) (s : State) : (serveEvent n s).ptime = s.ptime := by simp [serveEvent]

@[simp] theorem passMutex_ptime (n : Nat) (park abandoned : Bool) (s : State) :
    (passMutex n park abandoned s).ptime = s.ptime := by
  unfold passMutex
  split <;> simp

@[simp] theorem execPiccoloInit_keepsTime (bank : Nat) (s : State) : KeepsTime s (execPiccoloInit bank s) := by
  simp [execPiccoloInit]

@[simp] theorem execPiccoloRead_keepsTime (bank : Nat) (s : State) : KeepsTime s (execPiccoloRead bank s) := by
  simp [execPiccoloRead]

@[simp] theorem execSemWait_keepsTime (bank : Nat) (s : State) : KeepsTime s (execSemWait bank s) := by simp [execSemWait]
@[simp] theorem execSemPost_keepsTime (bank : Nat) (s : State) : KeepsTime s (execSemPost bank s) := by simp [execSemPost]

@[simp] theorem execMutexLock_keepsTime (bank : Nat) (s : State) : KeepsTime s (execMutexLock bank s) := by
  simp [execMutexLock]

@[simp] theorem execMutexUnlock_keepsTime (bank : Nat) (s : State) : KeepsTime s (execMutexUnlock bank s) := by
  simp [execMutexUnlock]

@[simp] theorem execMutexBreak_keepsTime (bank : Nat) (s : State) : KeepsTime s (execMutexBreak bank s) := by
  simp [execMutexBreak]

@[simp] theorem execBarArrive_keepsTime (bank : Nat) (s : State) : KeepsTime s (execBarArrive bank s) := by
  simp [execBarArrive]

@[simp] theorem execEventSet_keepsTime (bank : Nat) (s : State) : KeepsTime s (execEventSet bank s) := by
  simp [execEventSet]

@[simp] theorem execEventClear_keepsTime (bank : Nat) (s : State) : KeepsTime s (execEventClear bank s) := by
  simp [execEventClear]

@[simp] theorem execEventWait_keepsTime (bank : Nat) (s : State) : KeepsTime s (execEventWait bank s) := by
  simp [execEventWait]

@[simp] theorem undoGrant_ptime (r : SyncResp) (s : State) : (undoGrant r s).ptime = s.ptime := by simp [undoGrant]

@[simp] theorem execCancel_keepsTime (bank : Nat) (s : State) : KeepsTime s (execCancel bank s) := by
  refine (keepsTime_next _ _).2 (dataPhase_ptime _ _ _ _ _ fun p q o t => ?_)
  simp only
  repeat' split
  all_goals simp

@[simp] theorem dropWaits_ptime (n : Nat) (st : Status) (s : State) : (dropWaits n st s).ptime = s.ptime := by
  simp [dropWaits]

@[simp] theorem syncFence_ptime (p : Nat) (s : State) : (syncFence p s).ptime = s.ptime := by simp [syncFence]

@[simp] theorem startFence_ptime (p cause : Nat) (cmd : FenceCmd) (asCommand : Bool) (s : State) :
    (startFence p cause cmd asCommand s).ptime = s.ptime := by simp [startFence]

@[simp] theorem syncFlush_ptime (s : State) : (syncFlush s).ptime = s.ptime := by simp [syncFlush]
@[simp] theorem syncFree_ptime (r : Nat) (s : State) : (syncFree r s).ptime = s.ptime := by simp [syncFree]
@[simp] theorem syncFenceEp_ptime (ep : Nat) (s : State) : (syncFenceEp ep s).ptime = s.ptime := by simp [syncFenceEp]

@[simp] theorem opSyncRange_ptime (part value : Nat) (s : State) : (opSyncRange part value s).2.ptime = s.ptime := by
  simp [opSyncRange]

@[simp] theorem execSyncRangeWrite_keepsTime (part value : Nat) (s : State) :
    KeepsTime s (execSyncRangeWrite part value s) := by simp [execSyncRangeWrite]

/-! ### Tile caches -/

@[simp] theorem salvageEnd_ptime (s : State) : (salvageEnd s).ptime = s.ptime := by
  unfold salvageEnd
  split <;> simp

@[simp] theorem domainFail_ptime (cause ptile line : Nat) (s : State) : (domainFail cause ptile line s).ptime = s.ptime := by
  simp [domainFail]

@[simp] theorem tileError_ptime (t line : Nat) (s : State) : (tileError t line s).ptime = s.ptime := by
  unfold tileError
  split <;> simp

@[simp] theorem startFill_ptime (t line j : Nat) (req : TileReq) (st : CacheState) (s : State) :
    (startFill t line j req st s).ptime = s.ptime := by
  unfold startFill
  split <;> simp (disch := assumption) [ptime_of_result]

@[simp] theorem useLine_ptime (t line j : Nat) (c : CacheLine) (use : CacheLine → State → CacheAns × State) (s : State)
    (huse : ∀ x u, (use x u).2.ptime = u.ptime) : (useLine t line j c use s).2.ptime = s.ptime := by
  unfold useLine
  repeat' split
  all_goals simp [huse]

@[simp] theorem cacheLoad_ptime (t line j : Nat) (s : State) : (cacheLoad t line j s).2.ptime = s.ptime := by
  unfold cacheLoad
  repeat' split
  all_goals simp

@[simp] theorem cacheStore_ptime (t line off : Nat) (bs : Bytes) (j : Nat) (s : State) :
    (cacheStore t line off bs j s).2.ptime = s.ptime := by
  simp only [cacheStore]
  repeat' split
  all_goals simp

@[simp] theorem cacheRead_ptime (t j : Nat) (l : List Nat) (s : State) : (cacheRead t j l s).2.ptime = s.ptime := by
  induction l generalizing s with
  | nil => rfl
  | cons a ls ih =>
    unfold cacheRead
    repeat' split
    all_goals simp (disch := assumption) [ptime_of_result, ih]

@[simp] theorem listRead_ptime (j k off n : Nat) (s : State) : (listRead j k off n s).2.ptime = s.ptime := by
  unfold listRead
  split
  · rfl
  · next x hx =>
    extract_lets ps rem loc r0 miss bad r
    have hr : r0.2.2.ptime = s.ptime := by
      refine foldl_keeps (fun acc : CacheAns × Nat × State => acc.2.2.ptime) (fun acc p => ?_) _ _
      split
      · rfl
      · split <;> simp (disch := assumption) [ptime_of_result]
    repeat' split
    all_goals simp [r, hr]

@[simp] theorem bridgeTake_ptime (t line : Nat) (m s' o : Bool) (d : Option (Bytes × Bool)) (s : State) :
    (bridgeTake t line m s' o d s).ptime = s.ptime := by
  simp only [bridgeTake]
  split <;> simp

@[simp] theorem answerSnp_ptime (t line : Nat) (m s' o : Bool) (d : Option (Bytes × Bool)) (s : State) :
    (answerSnp t line m s' o d s).ptime = s.ptime := by simp [answerSnp]

@[simp] theorem snoopTile_ptime (t line : Nat) (inv : Bool) (requester : Option Nat) (s : State) :
    (snoopTile t line inv requester s).ptime = s.ptime := by
  unfold snoopTile
  repeat' split
  all_goals simp

@[simp] theorem toTile_ptime (t : Nat) (f : State → State) (s : State) (hf : ∀ u, (f u).ptime = u.ptime) :
    (toTile t f s).ptime = s.ptime := by simp [toTile, hf]

@[simp] theorem fromTile_ptime (t : Nat) (f : State → State) (s : State) (hf : ∀ u, (f u).ptime = u.ptime) :
    (fromTile t f s).ptime = s.ptime := by simp [fromTile, hf]

@[simp] theorem takeGrant_ptime (t line : Nat) (st : CacheState) (d : Bytes) (s : State) :
    (takeGrant t line st d s).ptime = s.ptime := by simp [takeGrant]

@[simp] theorem execSnpS_keepsTime (tile line : Nat) (requester : Option Nat) (s : State) :
    KeepsTime s (execSnpS tile line requester s) := by simp [execSnpS]

@[simp] theorem execSnpI_keepsTime (tile line : Nat) (requester : Option Nat) (s : State) :
    KeepsTime s (execSnpI tile line requester s) := by simp [execSnpI]

@[simp] theorem execDataS_keepsTime (tile line : Nat) (excl : Bool) (data : Bytes) (s : State) :
    KeepsTime s (execDataS tile line excl data s) := by simp [execDataS]

@[simp] theorem execDataM_freshData_ptime (tile line : Nat) (s : State) : (execDataM.freshData tile line s).ptime = s.ptime := by
  unfold execDataM.freshData
  split <;> simp

@[simp] theorem execDataM_keepsTime (tile line : Nat) (data : Bytes) (s : State) : KeepsTime s (execDataM tile line data s) := by
  simp [execDataM]

@[simp] theorem execAckUpg_keepsTime (tile line : Nat) (s : State) : KeepsTime s (execAckUpg tile line s) := by
  refine (keepsTime_next _ _).2 (toTile_ptime _ _ _ fun t => ?_)
  split <;> simp

@[simp] theorem execAckPut_keepsTime (tile line : Nat) (stale : Bool) (s : State) :
    KeepsTime s (execAckPut tile line stale s) := by
  refine (keepsTime_next _ _).2 (toTile_ptime _ _ _ fun t => ?_)
  split <;> simp

@[simp] theorem execErrData_keepsTime (tile line : Nat) (status : Status) (s : State) :
    KeepsTime s (execErrData tile line status s) := by
  refine (keepsTime_next _ _).2 (toTile_ptime _ _ _ fun t => ?_)
  repeat' split
  all_goals simp

@[simp] theorem execGets_keepsTime (tile line : Nat) (s : State) : KeepsTime s (execGets tile line s) := by
  simp [execGets]

@[simp] theorem execGetm_keepsTime (tile line : Nat) (s : State) : KeepsTime s (execGetm tile line s) := by
  simp [execGetm]

@[simp] theorem execUpg_keepsTime (tile line : Nat) (s : State) : KeepsTime s (execUpg tile line s) := by simp [execUpg]

@[simp] theorem execPutm_keepsTime (tile line : Nat) (data : Bytes) (poison : Bool) (s : State) :
    KeepsTime s (execPutm tile line data poison s) := by simp [execPutm]

@[simp] theorem execPute_keepsTime (tile line : Nat) (s : State) : KeepsTime s (execPute tile line s) := by
  simp [execPute]

@[simp] theorem endTxn_ptime (line : Nat) (s : State) : (endTxn line s).ptime = s.ptime := by simp [endTxn]

@[simp] theorem takeGack_ptime (line : Nat) (x : HomeTxn) (s : State) : (takeGack line x s).ptime = s.ptime := by
  simp [takeGack]

@[simp] theorem execGack_keepsTime (tile line : Nat) (s : State) : KeepsTime s (execGack tile line s) := by
  refine (keepsTime_next _ _).2 (fromTile_ptime _ _ _ fun t => ?_)
  repeat' split
  all_goals simp

@[simp] theorem snoopOver_ptime (line : Nat) (f : FilterEntry) (x : HomeTxn) (s : State) :
    (snoopOver line f x s).ptime = s.ptime := by
  unfold snoopOver
  repeat' split
  all_goals simp

@[simp] theorem execSnpDone_keepsTime (line bridge hitM : Nat) (hitS ownS : Bool) (data : Option (Nat × Bytes × Bool))
    (s : State) : KeepsTime s (execSnpDone line bridge hitM hitS ownS data s) := by
  unfold execSnpDone
  repeat' split
  all_goals simp

@[simp] theorem execSnoopTimeout_keepsTime (line : Nat) (s : State) : KeepsTime s (execSnoopTimeout line s) := by
  unfold execSnoopTimeout
  split <;> simp

@[simp] theorem execGackTimeout_keepsTime (line : Nat) (s : State) : KeepsTime s (execGackTimeout line s) := by
  unfold execGackTimeout
  split <;> simp

@[simp] theorem execSalvageEnd_keepsTime (s : State) : KeepsTime s (execSalvageEnd s) := by simp [execSalvageEnd]

@[simp] theorem execTileDomainReady_keepsTime (s : State) : KeepsTime s (execTileDomainReady s) := by
  unfold execTileDomainReady
  split <;> simp

/-! ### Queues and jobs -/

@[simp] theorem opTileOwner_ptime (tile part : Nat) (s : State) : (opTileOwner tile part s).2.ptime = s.ptime := by
  simp [opTileOwner]

@[simp] theorem execTileOwnerWrite_keepsTime (tile part : Nat) (s : State) : KeepsTime s (execTileOwnerWrite tile part s) := by
  simp [execTileOwnerWrite]

@[simp] theorem execTileClearDone_keepsTime (tile : Nat) (s : State) : KeepsTime s (execTileClearDone tile s) := by
  unfold execTileClearDone
  repeat' split
  all_goals simp

@[simp] theorem clearQueues_ptime (first n : Nat) (s : State) : (clearQueues first n s).ptime = s.ptime := by
  simp [clearQueues]

@[simp] theorem opQueueAssign_ptime (v : Nat) (s : State) : (opQueueAssign v s).2.ptime = s.ptime := by
  simp [opQueueAssign]

@[simp] theorem execQueueAssign_keepsTime (value : Nat) (s : State) : KeepsTime s (execQueueAssign value s) := by
  simp [execQueueAssign]

@[simp] theorem opPartLd_ptime (part v : Nat) (s : State) : (opPartLd part v s).2.ptime = s.ptime := by simp [opPartLd]

@[simp] theorem execPartLdWrite_keepsTime (part value : Nat) (s : State) : KeepsTime s (execPartLdWrite part value s) := by
  simp [execPartLdWrite]

@[simp] theorem dropFetch_ptime (m : Nat) (s : State) : (dropFetch m s).ptime = s.ptime := by simp [dropFetch]

@[simp] theorem windowDo_ptime (w : Nat) (f : Nat → State → State) (s : State) (hf : ∀ x t, (f x t).ptime = t.ptime) :
    (windowDo w f s).ptime = s.ptime := by
  unfold windowDo
  split <;> simp [hf]

@[simp] theorem qCfgWrite_ptime (m v : Nat) (s : State) : (qCfgWrite m v s).ptime = s.ptime := by simp [qCfgWrite]

@[simp] theorem execQCfgWrite_keepsTime (part q value : Nat) (s : State) : KeepsTime s (execQCfgWrite part q value s) := by
  refine (keepsTime_next _ _).2 (windowDo_ptime _ _ _ fun p t => ?_)
  split <;> simp

@[simp] theorem doorbellWrite_ptime (p m tail : Nat) (s : State) : (doorbellWrite p m tail s).ptime = s.ptime := by
  simp [doorbellWrite]

@[simp] theorem execDoorbell_keepsTime (part q tail : Nat) (s : State) : KeepsTime s (execDoorbell part q tail s) := by
  refine (keepsTime_next _ _).2 (windowDo_ptime _ _ _ fun p t => ?_)
  split <;> simp

@[simp] theorem qRegWrite_ptime (p m off v : Nat) (s : State) : (qRegWrite p m off v s).ptime = s.ptime := by
  unfold qRegWrite
  split <;> simp

@[simp] theorem execQueueRegisterWrite_keepsTime (part q reg value : Nat) (s : State) :
    KeepsTime s (execQueueRegisterWrite part q reg value s) := by
  refine (keepsTime_next _ _).2 (windowDo_ptime _ _ _ fun p t => ?_)
  split <;> simp

@[simp] theorem pcErrCauseWrite_ptime (p v : Nat) (s : State) : (pcErrCauseWrite p v s).ptime = s.ptime := by
  simp [pcErrCauseWrite]

@[simp] theorem execPcErrCauseWrite_keepsTime (part value : Nat) (s : State) :
    KeepsTime s (execPcErrCauseWrite part value s) := by simp [execPcErrCauseWrite]

@[simp] theorem msixControlWrite_ptime (p v c : Nat) (s : State) : (msixControlWrite p v c s).ptime = s.ptime := by
  simp [msixControlWrite]

@[simp] theorem execMsixUnmask_keepsTime (part vector : Nat) (s : State) : KeepsTime s (execMsixUnmask part vector s) := by
  simp [execMsixUnmask]

@[simp] theorem writeRecord_ptime (p m : Nat) (rec_ : Bytes) (irq : Bool) (s : State) :
    (writeRecord p m rec_ irq s).2.ptime = s.ptime := by
  rw [writeRecord]
  split
  · simp (disch := assumption) [ptime_of_result]
  next st s1 h => rw [setErrCause_ptime, updQueue_ptime, pbump_ptime, xlFault_ptime, ptime_of_result h, xlate_ptime]
  · split
    · split
      · simp (disch := assumption) [ptime_of_result]
      · simp only
        split <;> simp (disch := assumption) [ptime_of_result]
    · simp (disch := assumption) [ptime_of_result]

@[simp] theorem flushHeld_ptime (p m n : Nat) (s : State) : (flushHeld p m n s).ptime = s.ptime := by
  induction n generalizing s with
  | zero => rfl
  | succ n ih =>
    unfold flushHeld
    repeat' split
    all_goals simp [ih]

@[simp] theorem compHeadWrite_ptime (p m v : Nat) (s : State) : (compHeadWrite p m v s).ptime = s.ptime := by
  simp [compHeadWrite]

@[simp] theorem execQCompHeadWrite_keepsTime (part q chead : Nat) (s : State) :
    KeepsTime s (execQCompHeadWrite part q chead s) := by
  refine (keepsTime_next _ _).2 (windowDo_ptime _ _ _ fun p t => ?_)
  split <;> simp

@[simp] theorem completeDi_ptime (p n : Nat) (s : State) : (completeDi p n s).ptime = s.ptime := by
  induction n generalizing s with
  | zero => rfl
  | succ n ih =>
    unfold completeDi
    repeat' split
    all_goals simp [ih]

@[simp] theorem diCtrlWrite_ptime (p v : Nat) (s : State) : (diCtrlWrite p v s).ptime = s.ptime := by simp [diCtrlWrite]

@[simp] theorem execDrainInvalidate_keepsTime (part base length ctrl : Nat) (s : State) :
    KeepsTime s (execDrainInvalidate part base length ctrl s) := by
  refine (keepsTime_next _ _).2 (windowDo_ptime _ _ _ fun p t => ?_)
  split
  · rw [diCtrlWrite_ptime, updPart_ptime]
  · rfl

@[simp] theorem opPtRoot_ptime (p v : Nat) (s : State) : (opPtRoot p v s).2.ptime = s.ptime := by simp [opPtRoot]

@[simp] theorem execPtRootWrite_keepsTime (part value : Nat) (s : State) : KeepsTime s (execPtRootWrite part value s) := by
  simp [execPtRootWrite]

@[simp] theorem sealAll_ptime (p : Nat) (d : Bytes) (l : List (Nat × AccKind)) (s : State) :
    (sealAll p d l s).2.ptime = s.ptime := by
  induction l generalizing s with
  | nil => rfl
  | cons a ls ih =>
    simp only [sealAll]
    repeat' split
    all_goals simp (disch := assumption) [ptime_of_result, ih]

@[simp] theorem takeHead_ptime (m : Nat) (d : Option Bytes) (s : State) : (takeHead m d s).ptime = s.ptime := by
  simp [takeHead]

@[simp] theorem newJob_ptime (p m : Nat) (d : Bytes) (ops : List Operand) (s : State) :
    (newJob p m d ops s).2.ptime = s.ptime := by simp [newJob]

@[simp] theorem failDescriptor_ptime (p m : Nat) (d : Bytes) (st : Status) (det : Nat) (s : State) :
    (failDescriptor p m d st det s).ptime = s.ptime := by simp [failDescriptor]

@[simp] theorem xlFailCount_ptime (p : Nat) (st : Status) (s : State) : (xlFailCount p st s).ptime = s.ptime := by
  unfold xlFailCount
  split <;> simp

@[simp] theorem sealCopied_ptime (p m : Nat) (d : Bytes) (s : State) : (sealCopied p m d s).ptime = s.ptime := by
  unfold sealCopied
  repeat' split
  all_goals simp (disch := assumption) [ptime_of_result]

@[simp] theorem failFetch_ptime (p m : Nat) (st : Status) (va : Nat) (s : State) : (failFetch p m st va s).ptime = s.ptime := by
  simp [failFetch]

@[simp] theorem copyDescriptor_ptime (p m : Nat) (d : Bytes) (s : State) : (copyDescriptor p m d s).ptime = s.ptime := by
  simp [copyDescriptor]

@[simp] theorem sealNext_ptime (p m : Nat) (s : State) : (sealNext p m s).ptime = s.ptime := by
  simp only [sealNext]
  repeat' split
  all_goals simp (disch := assumption) [ptime_of_result]

@[simp] theorem execDescriptorSeal_keepsTime (queue : Nat) (s : State) : KeepsTime s (execDescriptorSeal queue s) := by
  unfold execDescriptorSeal
  split <;> simp

@[simp] theorem startJob_ptime (j t : Nat) (x : JobSt) (s : State) : (startJob j t x s).ptime = s.ptime := by
  simp [startJob]

@[simp] theorem dispatchBy_ptime (j t : Nat) (x : JobSt) (s : State) : (dispatchBy j t x s).ptime = s.ptime := by
  unfold dispatchBy
  split <;> simp

@[simp] theorem execJobDispatch_keepsTime (job tile : Nat) (s : State) : KeepsTime s (execJobDispatch job tile s) := by
  unfold execJobDispatch
  repeat' split
  all_goals simp

@[simp] theorem leaveDrains_ptime (p j : Nat) (s : State) : (leaveDrains p j s).ptime = s.ptime := by simp [leaveDrains]
@[simp] theorem jobGone_ptime (j : Nat) (x : JobSt) (s : State) : (jobGone j x s).ptime = s.ptime := by simp [jobGone]

@[simp] theorem holdRecord_ptime (p m : Nat) (b : Bytes) (irq : Bool) (s : State) :
    (holdRecord p m b irq s).ptime = s.ptime := by simp [holdRecord]

@[simp] theorem retireJob_ptime (j : Nat) (x : JobSt) (s0 : State) : (retireJob j x s0).2.ptime = s0.ptime := by
  simp [retireJob]

@[simp] theorem execJobRetire_keepsTime (job : Nat) (s : State) : KeepsTime s (execJobRetire job s) := by
  unfold execJobRetire
  split <;> simp

@[simp] theorem execJobBudgetExpiry_keepsTime (job : Nat) (s : State) : KeepsTime s (execJobBudgetExpiry job s) := by
  unfold execJobBudgetExpiry
  split <;> simp

@[simp] theorem execNop_keepsTime (job : Nat) (s : State) : KeepsTime s (execNop job s) := by
  unfold execNop
  split <;> simp

@[simp] theorem execCtxOpen_keepsTime (job : Nat) (s : State) : KeepsTime s (execCtxOpen job s) := by
  unfold execCtxOpen
  split <;> simp

@[simp] theorem endContextJobs_ptime (p k : Nat) (s : State) : (endContextJobs p k s).ptime = s.ptime := by
  simp [endContextJobs]

@[simp] theorem takeUnits_ptime (f : Outgoing → Bool) (s : State) : (takeUnits f s).2.ptime = s.ptime := by
  simp [takeUnits]

@[simp] theorem dropStale_ptime (p k : Nat) (s : State) : (dropStale p k s).ptime = s.ptime := by simp [dropStale]

@[simp] theorem execCtxClose_keepsTime (job : Nat) (s : State) : KeepsTime s (execCtxClose job s) := by
  unfold execCtxClose
  split <;> simp

@[simp] theorem execCtxCloseComplete_keepsTime (part ctx : Nat) (s : State) :
    KeepsTime s (execCtxCloseComplete part ctx s) := by
  unfold execCtxCloseComplete
  split <;> simp

/-! ### Attention and KV -/

@[simp] theorem setGranules_ptime (v : Nat) (gs : List Nat) (s : State) : (setGranules v gs s).ptime = s.ptime := by
  simp [setGranules]

@[simp] theorem kvFail_ptime (j : Nat) (x : JobSt) (st : Status) (gs : List Nat) (s : State) :
    (kvFail j x st gs s).ptime = s.ptime := by simp [kvFail]

@[simp] theorem kvSlot_ptime (j : Nat) (x : JobSt) (dim c off : Nat) (s : State) :
    (kvSlot j x dim c off s).2.ptime = s.ptime := by
  simp only [kvSlot]
  repeat' split
  all_goals simp (disch := assumption) [ptime_of_result]

@[simp] theorem kvFrom_ptime (j n : Nat) (s : State) : (kvFrom j n s).ptime = s.ptime := by
  induction n generalizing s with
  | zero => rfl
  | succ n ih =>
    simp only [kvFrom]
    repeat' split
    all_goals simp (disch := assumption) [ptime_of_result, ih]

@[simp] theorem execKvSummarise_keepsTime (job : Nat) (s : State) : KeepsTime s (execKvSummarise job s) := by
  unfold execKvSummarise
  split <;> simp

@[simp] theorem setAtt_ptime (j : Nat) (a : AttSt) (s : State) : (setAtt j a s).ptime = s.ptime := by simp [setAtt]
@[simp] theorem dropRemote_ptime (j : Nat) (s : State) : (dropRemote j s).ptime = s.ptime := by simp [dropRemote]

@[simp] theorem eligible_ptime (job : Nat) (x : JobSt) (a : AttSt) (j : Nat) (s : State) :
    (eligible job x a j s).2.ptime = s.ptime := by
  simp only [eligible]
  repeat' split
  all_goals simp (disch := assumption) [ptime_of_result]

@[simp] theorem readPage_ptime (job : Nat) (x : JobSt) (a : AttSt) (j : Nat) (uns : Bool) (s : State) :
    (readPage job x a j uns s).2.ptime = s.ptime := by
  simp only [readPage]
  repeat' split
  all_goals simp (disch := assumption) [ptime_of_result]

@[simp] theorem skipPage_ptime (x : JobSt) (a : AttSt) (s : State) : (skipPage x a s).2.ptime = s.ptime := by
  simp [skipPage]

@[simp] theorem attBegin_ptime (job : Nat) (x : JobSt) (s : State) : (attBegin job x s).2.ptime = s.ptime := by
  unfold attBegin
  repeat' split
  all_goals simp (disch := assumption) [ptime_of_result]

@[simp] theorem attHead_ptime (job : Nat) (x : JobSt) (a : AttSt) (s : State) : (attHead job x a s).2.ptime = s.ptime := by
  simp only [attHead]
  repeat' split
  all_goals simp (disch := assumption) [ptime_of_result]

@[simp] theorem attScore_ptime (job : Nat) (x : JobSt) (a : AttSt) (j : Nat) (rest : List Nat) (s : State) :
    (attScore job x a j rest s).2.ptime = s.ptime := by
  unfold attScore
  split <;> simp (disch := assumption) [ptime_of_result]

@[simp] theorem attThird_ptime (job : Nat) (x : JobSt) (a : AttSt) (j : Nat) (rest : List Nat) (s : State) :
    (attThird job x a j rest s).2.ptime = s.ptime := by
  simp only [attThird]
  repeat' split
  all_goals simp (disch := assumption) [ptime_of_result]

@[simp] theorem attRecords_ptime (job : Nat) (x : JobSt) (a : AttSt) (s : State) :
    (attRecords job x a s).2.ptime = s.ptime := by
  simp only [attRecords]
  repeat' split
  all_goals simp (disch := assumption) [ptime_of_result]

@[simp] theorem attEnd_ptime (job : Nat) (x : JobSt) (a : AttSt) (s : State) : (attEnd job x a s).ptime = s.ptime := by
  unfold attEnd
  repeat' split
  all_goals simp

@[simp] theorem attStep_ptime (job : Nat) (s : State) : (attStep job s).2.ptime = s.ptime := by
  unfold attStep
  repeat' split
  all_goals simp (disch := assumption) [ptime_of_result]

@[simp] theorem attLoop_ptime (job n : Nat) (s : State) : (attLoop job n s).ptime = s.ptime := by
  induction n generalizing s with
  | zero => rfl
  | succ n ih =>
    unfold attLoop
    repeat' split
    all_goals simp (disch := assumption) [ptime_of_result, ih]

@[simp] theorem attend_ptime (mode job : Nat) (s : State) : (attend mode job s).ptime = s.ptime := by
  unfold attend
  split <;> simp

@[simp] theorem execAttendDense_keepsTime (job : Nat) (s : State) : KeepsTime s (execAttendDense job s) := by
  simp [execAttendDense]

@[simp] theorem execAttendBound_keepsTime (job : Nat) (s : State) : KeepsTime s (execAttendBound job s) := by
  simp [execAttendBound]

@[simp] theorem execAttendTopk_keepsTime (job : Nat) (s : State) : KeepsTime s (execAttendTopk job s) := by
  simp [execAttendTopk]

/-! ### Bassoon -/

@[simp] theorem bodyFail_ptime (j : Nat) (st : Status) (off : Nat) (s : State) : (bodyFail j st off s).ptime = s.ptime := by
  simp [bodyFail]

@[simp] theorem copyStep_ptime (x : JobSt) (left : Nat) (s : State) : (copyStep x left s).2.ptime = s.ptime := by
  simp [copyStep]

@[simp] theorem copyFrom_ptime (j n : Nat) (s : State) : (copyFrom j n s).ptime = s.ptime := by
  induction n generalizing s with
  | zero => rfl
  | succ n ih =>
    have hdone (t : State) : (endJobResult j .ok 0 t).ptime = t.ptime := by simp
    simp only [copyFrom]
    repeat' split
    all_goals simp (disch := assumption) [ptime_of_result, ih]

@[simp] theorem execCopy_keepsTime (job : Nat) (s : State) : KeepsTime s (execCopy job s) := by
  unfold execCopy
  repeat' split
  all_goals simp

@[simp] theorem markInit_ptime (bs : List Nat) (s : State) : (markInit bs s).ptime = s.ptime := by simp [markInit]

@[simp] theorem fillFrom_ptime (j n : Nat) (s : State) : (fillFrom j n s).ptime = s.ptime := by
  induction n generalizing s with
  | zero => rfl
  | succ n ih =>
    have hdone (x : JobSt) (t : State) :
        (endJobResult j .ok 0 (markInit (coveredBlocks (ownEp t) (opd x 0).exts) t)).ptime = t.ptime := by
      simp
    simp only [fillFrom]
    repeat' split
    all_goals simp (disch := assumption) [ptime_of_result, ih, finishJob_ptime _ _ _ _ (hdone _)]

@[simp] theorem execFill_keepsTime (job : Nat) (s : State) : KeepsTime s (execFill job s) := by
  unfold execFill
  repeat' split
  all_goals simp

@[simp] theorem compareFrom_ptime (j n : Nat) (s : State) : (compareFrom j n s).ptime = s.ptime := by
  induction n generalizing s with
  | zero => rfl
  | succ n ih =>
    simp only [compareFrom]
    repeat' split
    all_goals simp (disch := assumption) [ptime_of_result, ih]

@[simp] theorem execCompare_keepsTime (job : Nat) (s : State) : KeepsTime s (execCompare job s) := by
  unfold execCompare
  repeat' split
  all_goals simp

/-! ### Memory channels -/

@[simp] theorem execDqsDriftAdjust_keepsTime (chan : Nat) (rd0 wr0 rd1 wr1 : Int) (s : State) :
    KeepsTime s (execDqsDriftAdjust chan rd0 wr0 rd1 wr1 s) := by simp [execDqsDriftAdjust]

@[simp] theorem execRefreshDue_keepsTime (set : Nat) (doubled : Bool) (s : State) :
    KeepsTime s (execRefreshDue set doubled s) := by simp [execRefreshDue]

@[simp] theorem execOwedRefreshIssue_keepsTime (set : Nat) (s : State) : KeepsTime s (execOwedRefreshIssue set s) := by
  simp [execOwedRefreshIssue]

@[simp] theorem disturb_ptime (line : Nat) (flip : Bytes) (s : State) : (disturb line flip s).ptime = s.ptime := by
  simp [disturb]

@[simp] theorem execMemoryChannelAccept_keepsTime (tag : Nat) (src : Source) (op : MemOp) (flip : Bytes) (s : State) :
    KeepsTime s (execMemoryChannelAccept tag src op flip s) := by simp [execMemoryChannelAccept]

@[simp] theorem execPatrolScrubRead_keepsTime (line : Nat) (flip : Bytes) (s : State) :
    KeepsTime s (execPatrolScrubRead line flip s) := by simp [execPatrolScrubRead]

@[simp] theorem setInit_ptime (b : Nat) (v : Bool) (s : State) : (setInit b v s).ptime = s.ptime := by simp [setInit]
@[simp] theorem chkCmd_ptime (b : Bytes) (s : State) : (chkCmd b s).2.ptime = s.ptime := by simp [chkCmd]

@[simp] theorem execWriteRaw_keepsTime (cmd : Bytes) (s : State) : KeepsTime s (execWriteRaw cmd s) := by
  simp [execWriteRaw]

@[simp] theorem execReadRaw_keepsTime (cmd : Bytes) (s : State) : KeepsTime s (execReadRaw cmd s) := by simp [execReadRaw]

@[simp] theorem execReadDecode_keepsTime (cmd : Bytes) (s : State) : KeepsTime s (execReadDecode cmd s) := by
  simp [execReadDecode]

@[simp] theorem blockMarkInit_ptime (b : Nat) (s : State) : (blockMarkInit b s).2.ptime = s.ptime := by
  simp [blockMarkInit]

@[simp] theorem blockInitQuery_ptime (b : Nat) (s : State) : (blockInitQuery b s).2.ptime = s.ptime := by
  simp [blockInitQuery]

@[simp] theorem execBlockMarkInit_keepsTime (block : Nat) (s : State) : KeepsTime s (execBlockMarkInit block s) := by
  simp [execBlockMarkInit]

@[simp] theorem execBlockInitQuery_keepsTime (block : Nat) (s : State) : KeepsTime s (execBlockInitQuery block s) := by
  simp [execBlockInitQuery]

@[simp] theorem enterRemap_ptime (pchan bank row : Nat) (s : State) : (enterRemap pchan bank row s).ptime = s.ptime := by
  simp only [enterRemap]
  repeat' split
  all_goals simp

@[simp] theorem execRowRemapComplete_keepsTime (pchan bank row : Nat) (s : State) :
    KeepsTime s (execRowRemapComplete pchan bank row s) := by simp [execRowRemapComplete]

@[simp] theorem moveStack_ptime (l sp : Nat) (s : State) : (moveStack l sp s).ptime = s.ptime := by simp [moveStack]

@[simp] theorem evacLine_ptime (sp line : Nat) (s : State) : (evacLine sp line s).ptime = s.ptime := by
  simp only [evacLine]
  split <;> simp

@[simp] theorem evacTo_ptime (ptr : Nat) (s : State) : (evacTo ptr s).ptime = s.ptime := by
  unfold evacTo
  split <;> simp

@[simp] theorem execStackEvacuationComplete_keepsTime (s : State) : KeepsTime s (execStackEvacuationComplete s) := by
  unfold execStackEvacuationComplete
  split <;> simp

@[simp] theorem execStackStopsAnswering_keepsTime (ptr : Nat) (s : State) : KeepsTime s (execStackStopsAnswering ptr s) := by
  unfold execStackStopsAnswering
  split <;> simp

@[simp] theorem spareStackCmd_ptime (l : Nat) (s : State) : (spareStackCmd l s).2.ptime = s.ptime := by
  simp [spareStackCmd]

@[simp] theorem execSpareStackCmd_keepsTime (stack : Nat) (s : State) : KeepsTime s (execSpareStackCmd stack s) := by
  simp [execSpareStackCmd]

/-! ### Mirror pairs -/

@[simp] theorem sendCycle_ptime (epoch : Nat) (recs : SMap MetaRec) (s : State) : (sendCycle epoch recs s).ptime = s.ptime := by
  simp [sendCycle]

@[simp] theorem startResync_ptime (s : State) : (startResync s).ptime = s.ptime := by
  simp only [startResync]
  refine (ptime_foldl _ (fun t l => ?_) _ _).trans (by simp)
  split <;> simp

@[simp] theorem startHomecoming_ptime (s : State) : (startHomecoming s).ptime = s.ptime := by simp [startHomecoming]
@[simp] theorem mirrorReplay_ptime (s : State) : (mirrorReplay s).ptime = s.ptime := by simp [mirrorReplay]
@[simp] theorem mirrorDown_ptime (s : State) : (mirrorDown s).ptime = s.ptime := by simp [mirrorDown]
@[simp] theorem mirrorUp_ptime (s : State) : (mirrorUp s).ptime = s.ptime := by simp [mirrorUp]

/-! ### Reroute -/

@[simp] theorem proxyAnswer_ptime (p : Packet) (opc : Nat) (st : Status) (s : State) :
    (proxyAnswer p opc st s).ptime = s.ptime := by simp [proxyAnswer]

@[simp] theorem controlPacket_ptime (opc dst top : Nat) (s : State) : (controlPacket opc dst top s).ptime = s.ptime := by
  simp [controlPacket]

@[simp] theorem mcReport_ptime (opc dst base map ep : Nat) (s : State) : (mcReport opc dst base map ep s).ptime = s.ptime := by
  simp [mcReport]

@[simp] theorem mcSkipFor_ptime (p : Packet) (eps : List Nat) (s : State) : (mcSkipFor p eps s).ptime = s.ptime := by
  simp [mcSkipFor]

@[simp] theorem dropFenced_ptime (o : Outgoing) (s : State) : (dropFenced o s).ptime = s.ptime := by
  unfold dropFenced
  repeat' split
  all_goals simp

@[simp] theorem dropUnroutable_ptime (port : Nat) (o : Outgoing) (s : State) : (dropUnroutable port o s).ptime = s.ptime := by
  unfold dropUnroutable
  repeat' split
  all_goals simp

@[simp] theorem forwardUnit_ptime (port : Nat) (o : Outgoing) (s : State) : (forwardUnit port o s).ptime = s.ptime := by
  simp only [forwardUnit]
  repeat' split
  all_goals simp

@[simp] theorem forwardCopy_ptime (port : Nat) (o : Outgoing) (p : Packet) (mask win : Nat) (s : State) :
    (forwardCopy port o p mask win s).ptime = s.ptime := by
  unfold forwardCopy
  repeat' split
  all_goals simp

@[simp] theorem forward_ptime (port : Nat) (o : Outgoing) (s : State) : (forward port o s).ptime = s.ptime := by
  unfold forward
  repeat' split
  all_goals simp

@[simp] theorem sweepWaiting_ptime (s : State) : (sweepWaiting s).ptime = s.ptime := by simp [sweepWaiting]
@[simp] theorem retryWaiting_ptime (s : State) : (retryWaiting s).ptime = s.ptime := by simp [retryWaiting]
@[simp] theorem emptyPort_ptime (port : Nat) (s : State) : (emptyPort port s).ptime = s.ptime := by simp [emptyPort]

@[simp] theorem linkStop_ptime (port cause : Nat) (s : State) : (linkStop port cause s).ptime = s.ptime := by
  simp [linkStop]

/-! ### Lane operations -/

@[simp] theorem laneDegraded_ptime (port lane : Nat) (s : State) : (laneDegraded port lane s).ptime = s.ptime := by
  simp [laneDegraded]

@[simp] theorem eyeResult_ptime (status rate : Nat) (edges bitmap : Bytes) (s : State) :
    (eyeResult status rate edges bitmap s).ptime = s.ptime := by rw [eyeResult, setObj_ptime]

@[simp] theorem eyeAbort_ptime (hit : EyeCmd → Bool) (s : State) : (eyeAbort hit s).ptime = s.ptime := by
  unfold eyeAbort
  split <;> simp

@[simp] theorem sendTaps_ptime (port lane : Nat) (s : State) : (sendTaps port lane s).ptime = s.ptime := by
  simp [sendTaps]

@[simp] theorem sendAllTaps_ptime (port : Nat) (s : State) : (sendAllTaps port s).ptime = s.ptime := by simp [sendAllTaps]
@[simp] theorem runAtRate_ptime (port : Nat) (s : State) : (runAtRate port s).ptime = s.ptime := by simp [runAtRate]

@[simp] theorem sendBlock_ptime (port lane : Nat) (s : State) : (sendBlock port lane s).ptime = s.ptime := by
  simp [sendBlock]

@[simp] theorem sendBlocks_ptime (port : Nat) (s : State) : (sendBlocks port s).ptime = s.ptime := by simp [sendBlocks]

@[simp] theorem beginPhase_ptime (port : Nat) (f : LaneSt → LaneSt) (s : State) : (beginPhase port f s).ptime = s.ptime := by
  simp [beginPhase]

@[simp] theorem nextBlock_ptime (port : Nat) (s : State) : (nextBlock port s).ptime = s.ptime := by simp [nextBlock]

@[simp] theorem blockTime_ptime (port trace : Nat) (s : State) : (blockTime port trace s).ptime = s.ptime := by
  simp [blockTime]

@[simp] theorem leaveActive_ptime (port : Nat) (s : State) : (leaveActive port s).ptime = s.ptime := by simp [leaveActive]

@[simp] theorem startBringup_ptime (port : Nat) (s : State) : (startBringup port s).ptime = s.ptime := by
  simp [startBringup]

@[simp] theorem backToDetect_ptime (port cause : Nat) (s : State) : (backToDetect port cause s).ptime = s.ptime := by
  simp [backToDetect]

@[simp] theorem loopSeeds_ptime (n : Nat) (s : State) : (loopSeeds n s).2.ptime = s.ptime := by
  induction n generalizing s with
  | zero => rfl
  | succ n ih => simp [loopSeeds, ih]

@[simp] theorem beginLoop_ptime (port : Nat) (s : State) : (beginLoop port s).ptime = s.ptime := by simp [beginLoop]

@[simp] theorem enterFinal_ptime (port cause : Nat) (s : State) : (enterFinal port cause s).ptime = s.ptime := by
  simp [enterFinal]

@[simp] theorem nextStep_ptime (port : Nat) (s : State) : (nextStep port s).ptime = s.ptime := by simp [nextStep]

@[simp] theorem exchangeDone_ptime (port : Nat) (s : State) : (exchangeDone port s).ptime = s.ptime := by
  simp [exchangeDone]

@[simp] theorem stepFails_ptime (port : Nat) (s : State) : (stepFails port s).ptime = s.ptime := by
  simp only [stepFails]
  repeat' split
  all_goals simp

@[simp] theorem judgeStep_ptime (port : Nat) (s : State) : (judgeStep port s).ptime = s.ptime := by
  simp only [judgeStep]
  split <;> simp

@[simp] theorem sendLaneOp_ptime (port op arg n : Nat) (s : State) : (sendLaneOp port op arg n s).ptime = s.ptime := by
  simp [sendLaneOp]

@[simp] theorem askSpare_ptime (port lane : Nat) (s : State) : (askSpare port lane s).ptime = s.ptime := by
  simp [askSpare]

@[simp] theorem onSpareReq_ptime (port lane : Nat) (s : State) : (onSpareReq port lane s).ptime = s.ptime := by
  simp [onSpareReq]

@[simp] theorem onSpareDone_ptime (port lane : Nat) (s : State) : (onSpareDone port lane s).ptime = s.ptime := by
  simp [onSpareDone]

@[simp] theorem onSpareAbort_ptime (port lane : Nat) (s : State) : (onSpareAbort port lane s).ptime = s.ptime := by
  simp [onSpareAbort]

@[simp] theorem noteCorrections_ptime (port : Nat) (lanes : List Nat) (s : State) :
    (noteCorrections port lanes s).ptime = s.ptime := by
  rw [noteCorrections, ptime_foldl, updLane_ptime]
  intro t x
  split <;> simp

/-! ### Egress -/

@[simp] theorem setPanics_ptime (s : State) : (setPanics s).ptime = s.ptime := by simp [setPanics]
@[simp] theorem panicUpdate_ptime (port : Nat) (s : State) : (panicUpdate port s).ptime = s.ptime := by simp [panicUpdate]

@[simp] theorem pacedRead_ptime (port line : Nat) (more : Bool) (s : State) : (pacedRead port line more s).ptime = s.ptime := by
  simp [pacedRead]

@[simp] theorem egressPush_ptime (port : Nat) (o : Outgoing) (s : State) : (egressPush port o s).ptime = s.ptime := by
  simp [egressPush]

@[simp] theorem egressPop_ptime (port tc : Nat) (s : State) : (egressPop port tc s).ptime = s.ptime := by simp [egressPop]

/-! ### MMIO -/

@[simp] theorem windowWrite_ptime (p off v : Nat) (s : State) : (windowWrite p off v s).ptime = s.ptime := by
  unfold windowWrite
  repeat' split
  any_goals exact updPart_ptime _ _ _
  all_goals simp

@[simp] theorem mmioWrite_ptime (p off size v : Nat) (s : State) : (mmioWrite p off size v s).ptime = s.ptime := by
  unfold mmioWrite
  repeat' split
  all_goals simp

/-! ### Remote spans -/

@[simp] theorem countAuth_ptime (kp : Option Nat) (s : State) : (countAuth kp s).ptime = s.ptime := by
  unfold countAuth
  split <;> simp

@[simp] theorem countRefusedEp_ptime (e : Nat) (s : State) : (countRefusedEp e s).ptime = s.ptime := by
  simp [countRefusedEp]

@[simp] theorem performRemote_ptime (sub : Nat) (p : Packet) (kp : Option Nat) (pa : Nat) (s : State) :
    (performRemote sub p kp pa s).ptime = s.ptime := by
  simp only [performRemote]
  repeat' split
  all_goals simp

@[simp] theorem refuseReq_ptime (p : Packet) (kp : Option Nat) (st : Status) (s : State) :
    (refuseReq p kp st s).ptime = s.ptime := by
  unfold refuseReq
  repeat' split
  all_goals simp

@[simp] theorem mmioReq_ptime (p : Packet) (kp : Option Nat) (w off : Nat) (s : State) :
    (mmioReq p kp w off s).ptime = s.ptime := by
  unfold mmioReq
  repeat' split
  all_goals simp

@[simp] theorem serveReq_ptime (g : Grants) (count : Nat) (p : Packet) (s : State) :
    (serveReq g count p s).ptime = s.ptime := by
  simp only [serveReq]
  repeat' split
  all_goals simp

@[simp] theorem retryDelayed_ptime (port : Nat) (s : State) : (retryDelayed port s).ptime = s.ptime := by
  unfold retryDelayed
  refine ptime_foldl _ (fun t d => ?_) _ _
  split <;> simp

/-! ### The scheduler -/

@[simp] theorem activate_ptime (port : Nat) (es : List ReadyLeaf) (s : State) : (activate port es s).ptime = s.ptime := by
  simp [activate]

@[simp] theorem accrueMin_ptime (port : Nat) (es : List ReadyLeaf) (s : State) : (accrueMin port es s).ptime = s.ptime := by
  simp [accrueMin]

@[simp] theorem charge_ptime (port : Nat) (minTier : Bool) (e : ReadyLeaf) (s : State) :
    (charge port minTier e s).ptime = s.ptime := by simp [charge]

@[simp] theorem countServed_ptime (sub : Nat) (minTier : Bool) (s : State) : (countServed sub minTier s).ptime = s.ptime := by
  simp [countServed]

@[simp] theorem sendItem_ptime (port : Nat) (it : SchedItem) (s : State) : (sendItem port it s).ptime = s.ptime := by
  unfold sendItem
  repeat' split
  all_goals simp

@[simp] theorem execSendingOpportunity_keepsTime (port : Nat) (s : State) : KeepsTime s (execSendingOpportunity port s) := by
  simp only [execSendingOpportunity]
  repeat' split
  all_goals simp

@[simp] theorem execShapingCreditAccrual_keepsTime (port sub svc : Nat) (s : State) :
    KeepsTime s (execShapingCreditAccrual port sub svc s) := by simp [execShapingCreditAccrual]

@[simp] theorem opSubMin_ptime (sub v : Nat) (s : State) : (opSubMin sub v s).2.ptime = s.ptime := by simp [opSubMin]

@[simp] theorem execSchSubMinWrite_keepsTime (sub value : Nat) (s : State) : KeepsTime s (execSchSubMinWrite sub value s) := by
  simp [execSchSubMinWrite]

@[simp] theorem mapCredits_ptime (p : Nat) (f : Int → Int → Int) (s : State) : (mapCredits p f s).ptime = s.ptime := by
  simp [mapCredits]

@[simp] theorem resetNodes_ptime (p : Nat) (s : State) : (resetNodes p s).ptime = s.ptime := by simp [resetNodes]
@[simp] theorem capCredits_ptime (p : Nat) (s : State) : (capCredits p s).ptime = s.ptime := by simp [capCredits]

/-! ### Buddy records -/

@[simp] theorem updRole_ptime (r : Nat) (f : RoleSt → RoleSt) (s : State) : (updRole r f s).ptime = s.ptime := by
  simp [updRole]

@[simp] theorem sendLease_ptime (type r : Nat) (s : State) : (sendLease type r s).ptime = s.ptime := by simp [sendLease]
@[simp] theorem releaseRoles_ptime (s : State) : (releaseRoles s).ptime = s.ptime := by simp [releaseRoles]
@[simp] theorem holdCredit_ptime (b : Bool) (s : State) : (holdCredit b s).ptime = s.ptime := by simp [holdCredit]

@[simp] theorem execLeaseRenewTimer_keepsTime (role : Nat) (s : State) : KeepsTime s (execLeaseRenewTimer role s) := by
  simp [execLeaseRenewTimer]

@[simp] theorem forgetCopyVectors_ptime (s : State) : (forgetCopyVectors s).ptime = s.ptime := by simp [forgetCopyVectors]

@[simp] theorem takeover_ptime (r epoch sent : Nat) (s : State) : (takeover r epoch sent s).ptime = s.ptime := by
  simp [takeover]

@[simp] theorem execLeaseGrant_keepsTime (role epoch sent : Nat) (s : State) :
    KeepsTime s (execLeaseGrant role epoch sent s) := by simp [execLeaseGrant]

@[simp] theorem execLeaseExpiry_keepsTime (role : Nat) (s : State) : KeepsTime s (execLeaseExpiry role s) := by
  simp [execLeaseExpiry]

@[simp] theorem execLeaseDemotion_keepsTime (role : Nat) (s : State) : KeepsTime s (execLeaseDemotion role s) := by
  simp [execLeaseDemotion]

@[simp] theorem handOver_ptime (r : Nat) (s : State) : (handOver r s).ptime = s.ptime := by simp [handOver]

@[simp] theorem execCommitCycle_keepsTime (role : Nat) (recs : List (Nat × Bytes)) (s : State) :
    KeepsTime s (execCommitCycle role recs s) := by simp [execCommitCycle]

@[simp] theorem completeHeld_ptime (f : HeldWrite → Bool) (s : State) : (completeHeld f s).ptime = s.ptime := by
  simp [completeHeld]

@[simp] theorem takeMack_ptime (ack : Nat) (s : State) : (takeMack ack s).ptime = s.ptime := by simp [takeMack]
@[simp] theorem mirrorIdle_ptime (s : State) : (mirrorIdle s).ptime = s.ptime := by simp [mirrorIdle]
@[simp] theorem noteStandby_ptime (s : State) : (noteStandby s).ptime = s.ptime := by simp [noteStandby]

@[simp] theorem applyLine_ptime (pa tag : Nat) (data : Bytes) (s : State) : (applyLine pa tag data s).ptime = s.ptime := by
  simp [applyLine]

@[simp] theorem divergence_ptime (num epoch : Nat) (mine theirs : Bytes) (s : State) :
    (divergence num epoch mine theirs s).ptime = s.ptime := by simp [divergence]

@[simp] theorem freezeRec_ptime (num : Nat) (mine theirs : MetaRec) (s : State) :
    (freezeRec num mine theirs s).ptime = s.ptime := by simp [freezeRec]

@[simp] theorem applyRec_ptime (num : Nat) (r : MetaRec) (s : State) : (applyRec num r s).ptime = s.ptime := by
  unfold applyRec
  repeat' split
  all_goals simp

@[simp] theorem takeCommit_ptime (body : Bytes) (s : State) : (takeCommit body s).ptime = s.ptime := by
  simp only [takeCommit]
  repeat' split
  any_goals rfl
  all_goals
    rw [updRole_ptime, updMirror_ptime]
    refine ptime_foldl _ (fun t e => ?_) _ _
    split <;> simp

@[simp] theorem takeRole_ptime (op r : Nat) (s : State) : (takeRole op r s).ptime = s.ptime := by
  unfold takeRole
  split <;> simp

@[simp] theorem mirrorAct_ptime (c : Bytes) (s : State) : (mirrorAct c s).ptime = s.ptime := by
  simp only [mirrorAct]
  repeat' split
  all_goals simp

@[simp] theorem advanceMack_ptime (s : State) : (advanceMack s).ptime = s.ptime := by simp [advanceMack]

@[simp] theorem mirrorTake_ptime (ctype : Nat) (c : Bytes) (s : State) : (mirrorTake ctype c s).ptime = s.ptime := by
  simp [mirrorTake]

@[simp] theorem mirrorReceive_ptime (ctype : Nat) (op : Option Nat) (rx : Decided) (s : State) :
    (mirrorReceive ctype op rx s).ptime = s.ptime := by simp [mirrorReceive]

@[simp] theorem execLineHead_keepsTime (rx : Decided) (s : State) : KeepsTime s (execLineHead rx s) := by
  simp [execLineHead]

@[simp] theorem execLineData_keepsTime (rx : Decided) (s : State) : KeepsTime s (execLineData rx s) := by
  simp [execLineData]

@[simp] theorem execTagOnly_keepsTime (rx : Decided) (s : State) : KeepsTime s (execTagOnly rx s) := by simp [execTagOnly]

@[simp] theorem execMetaCell_keepsTime (rx : Decided) (s : State) : KeepsTime s (execMetaCell rx s) := by
  simp [execMetaCell]

@[simp] theorem execCommitCell_keepsTime (rx : Decided) (s : State) : KeepsTime s (execCommitCell rx s) := by
  simp [execCommitCell]

@[simp] theorem execResyncHead_keepsTime (rx : Decided) (s : State) : KeepsTime s (execResyncHead rx s) := by
  simp [execResyncHead]

@[simp] theorem execRoleReady_keepsTime (rx : Decided) (s : State) : KeepsTime s (execRoleReady rx s) := by
  simp [execRoleReady]

@[simp] theorem execRoleSynced_keepsTime (rx : Decided) (s : State) : KeepsTime s (execRoleSynced rx s) := by
  simp [execRoleSynced]

@[simp] theorem execRoleHandover_keepsTime (rx : Decided) (s : State) : KeepsTime s (execRoleHandover rx s) := by
  simp [execRoleHandover]

@[simp] theorem execRoleRelease_keepsTime (rx : Decided) (s : State) : KeepsTime s (execRoleRelease rx s) := by
  simp [execRoleRelease]

@[simp] theorem execResyncCopyEnd_keepsTime (role : Nat) (s : State) : KeepsTime s (execResyncCopyEnd role s) := by
  simp [execResyncCopyEnd]

@[simp] theorem simplexMsg_ptime (role epoch : Nat) (f : State → State) (s : State) (hf : ∀ t, (f t).ptime = t.ptime) :
    (simplexMsg role epoch f s).ptime = s.ptime := by simp [simplexMsg, hf]

@[simp] theorem execSimplex_keepsTime (role epoch : Nat) (s : State) : KeepsTime s (execSimplex role epoch s) := by
  simp [execSimplex]

@[simp] theorem execDuplex_keepsTime (role epoch : Nat) (s : State) : KeepsTime s (execDuplex role epoch s) := by
  refine (keepsTime_next _ _).2 (simplexMsg_ptime _ _ _ _ fun t => ?_)
  simp only
  repeat' split
  all_goals simp

@[simp] theorem opRoleSwap_ptime (v : Nat) (s : State) : (opRoleSwap v s).2.ptime = s.ptime := by simp [opRoleSwap]

@[simp] theorem execRoleSwapCmd_keepsTime (value : Nat) (s : State) : KeepsTime s (execRoleSwapCmd value s) := by
  simp [execRoleSwapCmd]

@[simp] theorem resolveRws_ptime (second : Bool) (k : Nat) (s : State) : (resolveRws second k s).ptime = s.ptime := by
  simp [resolveRws]

@[simp] theorem opDivergence_ptime (v : Nat) (s : State) : (opDivergence v s).2.ptime = s.ptime := by
  unfold opDivergence
  repeat' split
  all_goals simp

@[simp] theorem execDivergenceResolve_keepsTime (value : Nat) (s : State) : KeepsTime s (execDivergenceResolve value s) := by
  simp [execDivergenceResolve]

@[simp] theorem opSpareTile_ptime (t : Nat) (s : State) : (opSpareTile t s).2.ptime = s.ptime := by simp [opSpareTile]

@[simp] theorem execSpareTileCmd_keepsTime (tile : Nat) (s : State) : KeepsTime s (execSpareTileCmd tile s) := by
  simp [execSpareTileCmd]

/-! ### Link operations -/

@[simp] theorem sendFlit_ptime (port : Nat) (payload : Bytes) (ftype fseq pstart : Nat) (s : State) :
    (sendFlit port payload ftype fseq pstart s).ptime = s.ptime := by simp [sendFlit]

@[simp] theorem loopCheck_ptime (port : Nat) (lp : LoopSt) (values : Nat → List Nat) (s : State) :
    (loopCheck port lp values s).ptime = s.ptime := by simp [loopCheck]

@[simp] theorem loopTransmit_ptime (port : Nat) (s : State) : (loopTransmit port s).ptime = s.ptime := by
  simp only [loopTransmit]
  split <;> simp

@[simp] theorem loopReceive_ptime (port : Nat) (rx : Decided) (s : State) : (loopReceive port rx s).ptime = s.ptime := by
  simp only [loopReceive]
  split <;> simp

@[simp] theorem linkFail_ptime (port cause : Nat) (s : State) : (linkFail port cause s).ptime = s.ptime := by
  simp [linkFail]

@[simp] theorem linkIsUp_ptime (port : Nat) (s : State) : (linkIsUp port s).ptime = s.ptime := by simp [linkIsUp]

@[simp] theorem fillSlots_ptime (port n n1 n2 : Nat) (b : Bytes) (n3 : Nat) (l : List Outgoing) (s : State) :
    (fillSlots port n n1 n2 b n3 l s).2.2.2.ptime = s.ptime := by
  induction n generalizing n1 n2 b n3 l s with
  | zero => rfl
  | succ n ih =>
    simp only [fillSlots]
    repeat' split
    all_goals simp [ih]

@[simp] theorem sendUp_ptime (port pick : Nat) (s : State) : (sendUp port pick s).ptime = s.ptime := by
  simp only [sendUp]
  split <;> simp

@[simp] theorem startReplay_ptime (port : Nat) (s : State) : (startReplay port s).ptime = s.ptime := by simp [startReplay]

/-! ### Lanes -/

@[simp] theorem execForwardedClockLock_keepsTime (port : Nat) (s : State) : KeepsTime s (execForwardedClockLock port s) := by
  simp [execForwardedClockLock]

@[simp] theorem execForwardedClockLoss_keepsTime (port : Nat) (s : State) : KeepsTime s (execForwardedClockLoss port s) := by
  simp [execForwardedClockLoss]

@[simp] theorem updTrain_ptime (port : Nat) (f : TrainSt → TrainSt) (s : State) : (updTrain port f s).ptime = s.ptime := by
  simp [updTrain]

@[simp] theorem hearLoopReq_ptime (port : Nat) (s : State) : (hearLoopReq port s).ptime = s.ptime := by simp [hearLoopReq]

@[simp] theorem hearBlock_ptime (port : Nat) (b : Bytes) (s : State) : (hearBlock port b s).ptime = s.ptime := by
  simp [hearBlock]

@[simp] theorem execTs1_keepsTime (port trace : Nat) (inverted : Bool) (block : Bytes) (s : State) :
    KeepsTime s (execTs1 port trace inverted block s) := by simp [execTs1]

@[simp] theorem reportTopology_ptime (s : State) : (reportTopology s).ptime = s.ptime := by simp [reportTopology]

@[simp] theorem holdPeer_ptime (port cause : Nat) (s : State) : (holdPeer port cause s).ptime = s.ptime := by
  simp [holdPeer]

@[simp] theorem execTs2_keepsTime (port trace : Nat) (block : Bytes) (s : State) :
    KeepsTime s (execTs2 port trace block s) := by
  simp only [execTs2]
  repeat' split
  all_goals simp

@[simp] theorem hearStep_ptime (port : Nat) (b : Bytes) (s : State) : (hearStep port b s).ptime = s.ptime := by
  simp [hearStep]

@[simp] theorem execStepBlock_keepsTime (port trace : Nat) (block : Bytes) (s : State) :
    KeepsTime s (execStepBlock port trace block s) := by simp [execStepBlock]

@[simp] theorem execRateSwitch_keepsTime (port : Nat) (s : State) : KeepsTime s (execRateSwitch port s) := by
  simp [execRateSwitch]

@[simp] theorem applyPreset_ptime (port lane : Nat) (s : State) : (applyPreset port lane s).ptime = s.ptime := by
  unfold applyPreset
  split <;> simp

@[simp] theorem sendQualification_ptime (port : Nat) (s : State) : (sendQualification port s).ptime = s.ptime := by
  simp [sendQualification]

@[simp] theorem execEqBlock_keepsTime (port trace : Nat) (adapted : Bool) (ask : EqAsk) (block : Bytes) (s : State) :
    KeepsTime s (execEqBlock port trace adapted ask block s) := by simp [execEqBlock]

@[simp] theorem execQualificationEnd_keepsTime (port : Nat) (errors : List Nat) (eyes : List (List Eye)) (s : State) :
    KeepsTime s (execQualificationEnd port errors eyes s) := by simp [execQualificationEnd]

@[simp] theorem execBringupPhaseTimeout_keepsTime (port : Nat) (s : State) : KeepsTime s (execBringupPhaseTimeout port s) := by
  simp [execBringupPhaseTimeout]

@[simp] theorem opRetrain_ptime (port : Nat) (s : State) : (opRetrain port s).2.ptime = s.ptime := by simp [opRetrain]

@[simp] theorem execNlRetrainCmd_keepsTime (port : Nat) (s : State) : KeepsTime s (execNlRetrainCmd port s) := by
  simp [execNlRetrainCmd]

@[simp] theorem opPortEnable_ptime (port value : Nat) (s : State) : (opPortEnable port value s).2.ptime = s.ptime := by
  simp [opPortEnable]

@[simp] theorem execNlPortEnableWrite_keepsTime (port value : Nat) (s : State) :
    KeepsTime s (execNlPortEnableWrite port value s) := by simp [execNlPortEnableWrite]

@[simp] theorem execSpareReq_keepsTime (port lane : Nat) (s : State) : KeepsTime s (execSpareReq port lane s) := by
  simp [execSpareReq]

@[simp] theorem execSpareDone_keepsTime (port lane : Nat) (s : State) : KeepsTime s (execSpareDone port lane s) := by
  simp [execSpareDone]

@[simp] theorem execSpareAbort_keepsTime (port lane : Nat) (s : State) : KeepsTime s (execSpareAbort port lane s) := by
  simp [execSpareAbort]

@[simp] theorem execSpareCompareEnd_keepsTime (port lane : Nat) (s : State) :
    KeepsTime s (execSpareCompareEnd port lane s) := by
  simp only [execSpareCompareEnd]
  split <;> simp

@[simp] theorem healLanes_ptime (port : Nat) (widths : List Nat) (s : State) : (healLanes port widths s).ptime = s.ptime := by
  simp [healLanes]

@[simp] theorem execBackgroundEyeScan_keepsTime (port : Nat) (line phase : List (List Eye)) (s : State) :
    KeepsTime s (execBackgroundEyeScan port line phase s) := by
  unfold execBackgroundEyeScan
  rw [keepsTime_next]
  split
  · rfl
  · refine (ptime_foldl _ (fun t x => ?_) _ _).trans (by simp)
    split <;> simp

@[simp] theorem opEyeScan_ptime (cmd : Bytes) (s : State) : (opEyeScan cmd s).2.ptime = s.ptime := by simp [opEyeScan]

@[simp] theorem execNlEyeScanCmd_keepsTime (cmd : Bytes) (s : State) : KeepsTime s (execNlEyeScanCmd cmd s) := by
  simp [execNlEyeScanCmd]

@[simp] theorem execEyeScanCommandEnd_keepsTime (edges points : Eye) (s : State) :
    KeepsTime s (execEyeScanCommandEnd edges points s) := by
  unfold execEyeScanCommandEnd
  split <;> simp

@[simp] theorem zeroLoopErrors_ptime (s : State) : (zeroLoopErrors s).ptime = s.ptime := by simp [zeroLoopErrors]

@[simp] theorem enterLoop_ptime (port mode rate pattern p32 : Nat) (s : State) :
    (enterLoop port mode rate pattern p32 s).2.ptime = s.ptime := by simp [enterLoop]

@[simp] theorem endLoop_ptime (port : Nat) (s : State) : (endLoop port s).2.ptime = s.ptime := by simp [endLoop]

@[simp] theorem execLoopbackNearParallel_keepsTime (port rate pattern p32 : Nat) (s : State) :
    KeepsTime s (execLoopbackNearParallel port rate pattern p32 s) := by simp [execLoopbackNearParallel]

@[simp] theorem execLoopbackNearSerial_keepsTime (port rate pattern p32 : Nat) (s : State) :
    KeepsTime s (execLoopbackNearSerial port rate pattern p32 s) := by simp [execLoopbackNearSerial]

@[simp] theorem execLoopbackFarEnd_keepsTime (port rate pattern p32 : Nat) (s : State) :
    KeepsTime s (execLoopbackFarEnd port rate pattern p32 s) := by simp [execLoopbackFarEnd]

@[simp] theorem execLoopbackEnd_keepsTime (port : Nat) (rx : Decided) (s : State) :
    KeepsTime s (execLoopbackEnd port rx s) := by simp [execLoopbackEnd]

@[simp] theorem execLoopReq_keepsTime (port : Nat) (s : State) : KeepsTime s (execLoopReq port s) := by simp [execLoopReq]
@[simp] theorem opLoopback_ptime (cmd : Bytes) (s : State) : (opLoopback cmd s).2.ptime = s.ptime := by simp [opLoopback]

/-! ### Images -/

@[simp] theorem listEntry_ptime (j i : Nat) (x : JobSt) (k : Nat) (s : State) : (listEntry j i x k s).2.ptime = s.ptime := by
  unfold listEntry
  repeat' split
  all_goals simp (disch := assumption) [ptime_of_result]

@[simp] theorem writeTogether_ptime (j : Nat) (o : Operand) (ws : List (Nat × Bytes)) (s : State) :
    (writeTogether j o ws s).2.ptime = s.ptime := by
  simp only [writeTogether]
  repeat' split
  all_goals simp (disch := assumption) [ptime_of_result]

@[simp] theorem readTogether_ptime (j slot : Nat) (o : Operand) (l : List (Nat × Nat)) (s : State) :
    (readTogether j slot o l s).2.ptime = s.ptime := by
  induction l generalizing s with
  | nil => rfl
  | cons a ls ih =>
    unfold readTogether
    repeat' split
    all_goals simp (disch := assumption) [ptime_of_result, ih]

@[simp] theorem mcOwed_ptime (j : Nat) (s : State) : (mcOwed j s).ptime = s.ptime := by
  unfold mcOwed
  split <;> simp

@[simp] theorem mcRun_ptime (j : Nat) (x : JobSt) (tc mask win addr : Nat) (bytes : Bytes) (s : State) :
    (mcRun j x tc mask win addr bytes s).ptime = s.ptime := by simp [mcRun]

@[simp] theorem mcWrite_ptime (j tc mask win : Nat) (o : Operand) (off : Nat) (data : Bytes) (s : State) :
    (mcWrite j tc mask win o off data s).2.ptime = s.ptime := by
  unfold mcWrite
  split <;> simp

@[simp] theorem optCheck_ptime (j : Nat) (x : JobSt) (s : State) : (optCheck j x s).2.ptime = s.ptime := by
  simp only [optCheck]
  repeat' split
  all_goals simp (disch := assumption) [ptime_of_result]

@[simp] theorem rowFail_ptime (j : Nat) (x : JobSt) (prm : Bytes) (st : Status) (det : Nat) (s : State) :
    (rowFail j x prm st det s).2.ptime = s.ptime := by simp [rowFail]

@[simp] theorem optUpdate_ptime (j : Nat) (x : JobSt) (prm : Bytes) (k r : Nat) (s : State) :
    (optUpdate j x prm k r s).2.ptime = s.ptime := by
  simp only [optUpdate]
  repeat' split
  all_goals simp (disch := assumption) [ptime_of_result]

@[simp] theorem emitRanges_ptime (j : Nat) (x : JobSt) (prm : Bytes) (l : List (Nat × Bytes)) (s : State) :
    (emitRanges j x prm l s).2.ptime = s.ptime := by
  induction l generalizing s with
  | nil => rfl
  | cons a ls ih =>
    unfold emitRanges
    repeat' split
    all_goals simp (disch := assumption) [ptime_of_result, ih]

@[simp] theorem optEmit_ptime (j : Nat) (x : JobSt) (prm : Bytes) (k r : Nat) (s : State) :
    (optEmit j x prm k r s).2.ptime = s.ptime := by
  simp only [optEmit]
  repeat' split
  all_goals simp (disch := assumption) [ptime_of_result]

@[simp] theorem optEnd_ptime (j : Nat) (x : JobSt) (prm : Bytes) (s : State) : (optEnd j x prm s).ptime = s.ptime := by
  unfold optEnd
  repeat' split
  all_goals simp

@[simp] theorem optFrom_ptime (j : Nat) (prm : Bytes) (n : Nat) (s : State) : (optFrom j prm n s).ptime = s.ptime := by
  induction n generalizing s with
  | zero => rfl
  | succ n ih =>
    simp only [optFrom]
    repeat' split
    all_goals simp (disch := assumption) [ptime_of_result, ih]

@[simp] theorem optStep_ptime (alg j : Nat) (s : State) : (optStep alg j s).ptime = s.ptime := by
  unfold optStep
  repeat' split
  all_goals simp (disch := assumption) [ptime_of_result]

@[simp] theorem execOptStepSgd_keepsTime (job : Nat) (s : State) : KeepsTime s (execOptStepSgd job s) := by
  simp [execOptStepSgd]

@[simp] theorem execOptStepAdamw_keepsTime (job : Nat) (s : State) : KeepsTime s (execOptStepAdamw job s) := by
  simp [execOptStepAdamw]

@[simp] theorem execOptStepEmitOnly_keepsTime (job : Nat) (s : State) : KeepsTime s (execOptStepEmitOnly job s) := by
  simp [execOptStepEmitOnly]

@[simp] theorem reduceRow_ptime (j : Nat) (x : JobSt) (o : Operand) (off : Nat) (a : List (BitVec 32)) (store : Bool)
    (s : State) : (reduceRow j x o off a store s).2.ptime = s.ptime := by
  simp only [reduceRow]
  repeat' split
  all_goals simp (disch := assumption) [ptime_of_result]

@[simp] theorem execReductionPacket_keepsTime (tile line : Nat) (addends : List (BitVec 32)) (mask : BitVec 16)
    (store : Bool) (tag : Nat) (s : State) : KeepsTime s (execReductionPacket tile line addends mask store tag s) := by
  simp [execReductionPacket]

@[simp] theorem gradFrom_ptime (j n : Nat) (s : State) : (gradFrom j n s).ptime = s.ptime := by
  induction n generalizing s with
  | zero => rfl
  | succ n ih =>
    simp only [gradFrom]
    repeat' split
    all_goals simp (disch := assumption) [ptime_of_result, ih]

@[simp] theorem execGradAccum_keepsTime (job : Nat) (s : State) : KeepsTime s (execGradAccum job s) := by
  unfold execGradAccum
  split <;> simp

@[simp] theorem indexAt_ptime (j : Nat) (x : JobSt) (i : Nat) (s : State) : (indexAt j x i s).2.ptime = s.ptime := by
  unfold indexAt
  repeat' split
  all_goals simp (disch := assumption) [ptime_of_result]

@[simp] theorem gatherBag_ptime (j : Nat) (x : JobSt) (pool n n1 : Nat) (l : List (BitVec 32)) (s : State) :
    (gatherBag j x pool n n1 l s).2.ptime = s.ptime := by
  induction n generalizing n1 l s with
  | zero => rfl
  | succ n ih =>
    simp only [gatherBag]
    repeat' split
    all_goals simp (disch := assumption) [ptime_of_result, ih]

@[simp] theorem gatherFrom_ptime (j : Nat) (offs : List Nat) (n : Nat) (s : State) :
    (gatherFrom j offs n s).ptime = s.ptime := by
  induction n generalizing s with
  | zero => rfl
  | succ n ih =>
    simp only [gatherFrom]
    repeat' split
    all_goals simp (disch := assumption) [ptime_of_result, ih]

@[simp] theorem withOffsets_ptime (j : Nat) (x : JobSt) (chk : Option (Status × Nat)) (f : List Nat → State → State)
    (s : State) (hf : ∀ y t, (f y t).ptime = t.ptime) : (withOffsets j x chk f s).ptime = s.ptime := by
  simp only [withOffsets]
  repeat' split
  all_goals simp (disch := assumption) [ptime_of_result, hf]

@[simp] theorem execEmbGather_keepsTime (job : Nat) (s : State) : KeepsTime s (execEmbGather job s) := by
  unfold execEmbGather
  split <;> simp

@[simp] theorem bagRows_ptime (j : Nat) (x : JobSt) (n n1 : Nat) (s : State) : (bagRows j x n n1 s).2.ptime = s.ptime := by
  induction n generalizing n1 s with
  | zero => rfl
  | succ n ih =>
    unfold bagRows
    repeat' split
    all_goals simp (disch := assumption) [ptime_of_result, ih]

@[simp] theorem scatterFrom_ptime (j : Nat) (offs : List Nat) (n : Nat) (s : State) :
    (scatterFrom j offs n s).ptime = s.ptime := by
  induction n generalizing s with
  | zero => rfl
  | succ n ih =>
    simp only [scatterFrom]
    repeat' split
    all_goals simp (disch := assumption) [ptime_of_result, ih]

@[simp] theorem execScatterAdd_keepsTime (job : Nat) (s : State) : KeepsTime s (execScatterAdd job s) := by
  unfold execScatterAdd
  split <;> simp

@[simp] theorem putGroup_ptime (k : Nat) (g : ExpGroup) (s : State) : (putGroup k g s).ptime = s.ptime := by
  simp [putGroup]

@[simp] theorem expertDispatch_ptime (j : Nat) (x : JobSt) (s : State) : (expertDispatch j x s).ptime = s.ptime := by
  unfold expertDispatch
  split <;> simp

@[simp] theorem leaveGroup_ptime (j : Nat) (s : State) : (leaveGroup j s).ptime = s.ptime := by simp [leaveGroup]

@[simp] theorem failGroup_ptime (k : Nat) (g : ExpGroup) (st : Status) (det : Option Nat) (s : State) :
    (failGroup k g st det s).ptime = s.ptime := by
  unfold failGroup
  refine ptime_foldl _ (fun t j => ?_) _ _
  repeat' split
  all_goals simp

@[simp] theorem fenceGroups_ptime (p : Nat) (holds : JobSt → Bool) (s : State) : (fenceGroups p holds s).ptime = s.ptime := by
  unfold fenceGroups
  refine ptime_foldl _ (fun t e => ?_) _ _
  repeat' split
  all_goals simp

@[simp] theorem expertFrom_ptime (k n : Nat) (s : State) : (expertFrom k n s).ptime = s.ptime := by
  induction n generalizing s with
  | zero => rfl
  | succ n ih =>
    simp only [expertFrom]
    repeat' split
    all_goals simp (disch := assumption) [ptime_of_result, ih]

@[simp] theorem expertEnd_ptime (j k : Nat) (x : JobSt) (g : ExpGroup) (len : Nat) (s : State) :
    (expertEnd j k x g len s).ptime = s.ptime := by simp [expertEnd]

@[simp] theorem expertRun_ptime (j k : Nat) (s : State) : (expertRun j k s).ptime = s.ptime := by
  simp only [expertRun]
  repeat' split
  all_goals simp

@[simp] theorem execExpertStream_keepsTime (job : Nat) (s : State) : KeepsTime s (execExpertStream job s) := by
  simp only [execExpertStream]
  repeat' split
  all_goals simp

@[simp] theorem execExpertGroupClose_keepsTime (group : Nat) (s : State) : KeepsTime s (execExpertGroupClose group s) := by
  unfold execExpertGroupClose
  split <;> simp

/-! ### Partitions -/

@[simp] theorem revokeSlot_ptime (k : Nat) (s : State) : (revokeSlot k s).ptime = s.ptime := by simp [revokeSlot]
@[simp] theorem revokeRun_ptime (p : Nat) (s : State) : (revokeRun p s).ptime = s.ptime := by simp [revokeRun]

@[simp] theorem blobEnd_ptime (st : Status) (chunk : Nat) (s : State) : (blobEnd st chunk s).ptime = s.ptime := by
  unfold blobEnd
  split <;> simp

@[simp] theorem blobFence_ptime (hit : BlobSt → Bool) (s : State) : (blobFence hit s).ptime = s.ptime := by
  unfold blobFence
  split <;> simp

@[simp] theorem partDone_ptime (st : Status) (s : State) : (partDone st s).ptime = s.ptime := by simp [partDone]

@[simp] theorem partPerform_ptime (op p : Nat) (s : State) : (partPerform op p s).ptime = s.ptime := by
  unfold partPerform
  split <;> simp

@[simp] theorem opPartCmd_ptime (b : Bytes) (s : State) : (opPartCmd b s).2.ptime = s.ptime := by simp [opPartCmd]

@[simp] theorem execPartCmdCreate_keepsTime (cmd : Bytes) (s : State) : KeepsTime s (execPartCmdCreate cmd s) := by
  simp [execPartCmdCreate]

@[simp] theorem execPartCmdStart_keepsTime (cmd : Bytes) (s : State) : KeepsTime s (execPartCmdStart cmd s) := by
  simp [execPartCmdStart]

@[simp] theorem execPartCmdHold_keepsTime (cmd : Bytes) (s : State) : KeepsTime s (execPartCmdHold cmd s) := by
  simp [execPartCmdHold]

@[simp] theorem execPartCmdDestroy_keepsTime (cmd : Bytes) (s : State) : KeepsTime s (execPartCmdDestroy cmd s) := by
  simp [execPartCmdDestroy]

@[simp] theorem execPartCmdReset_keepsTime (cmd : Bytes) (s : State) : KeepsTime s (execPartCmdReset cmd s) := by
  simp [execPartCmdReset]

@[simp] theorem opSelfReset_ptime (p v : Nat) (s : State) : (opSelfReset p v s).2.ptime = s.ptime := by simp [opSelfReset]

@[simp] theorem execPartSelfReset_keepsTime (part value : Nat) (s : State) : KeepsTime s (execPartSelfReset part value s) := by
  simp [execPartSelfReset]

@[simp] theorem fenceSealed_ptime (p b : Nat) (w : Bool) (s : State) : (fenceSealed p b w s).ptime = s.ptime := by
  simp [fenceSealed]

@[simp] theorem opPartBlocks_ptime (p v : Nat) (s : State) : (opPartBlocks p v s).2.ptime = s.ptime := by
  unfold opPartBlocks
  extract_lets old pairs other lower gone kept s1 s2 s3 s4
  have h4 : s4.ptime = s.ptime := by
    rw [ptime_foldl _ (by simp), ptime_foldl _ (by simp), updPart_ptime, setObj_ptime]
  iterate 4
    split
    · rfl
  rw [ptime_ite, blobFence_ptime, h4, ite_self]

@[simp] theorem execPartBlocksWrite_keepsTime (part value : Nat) (s : State) :
    KeepsTime s (execPartBlocksWrite part value s) := by simp [execPartBlocksWrite]

@[simp] theorem fillIfFree_ptime (b : Nat) (part : Option Nat) (s : State) : (fillIfFree b part s).ptime = s.ptime := by
  simp [fillIfFree]

@[simp] theorem execBlockWithdrawalDrainEnd_keepsTime (part block : Nat) (s : State) :
    KeepsTime s (execBlockWithdrawalDrainEnd part block s) := by
  unfold execBlockWithdrawalDrainEnd
  split <;> simp

@[simp] theorem fillDone_ptime (b : Nat) (s : State) : (fillDone b s).ptime = s.ptime := by simp [fillDone]

@[simp] theorem execWithdrawnBlockFillDone_keepsTime (block : Nat) (s : State) :
    KeepsTime s (execWithdrawnBlockFillDone block s) := by simp [execWithdrawnBlockFillDone]

@[simp] theorem execSanitisingFillDone_keepsTime (part : Nat) (s : State) : KeepsTime s (execSanitisingFillDone part s) := by
  simp [execSanitisingFillDone]

@[simp] theorem opPartEpGrant_ptime (p v : Nat) (s : State) : (opPartEpGrant p v s).2.ptime = s.ptime := by
  simp [opPartEpGrant]

@[simp] theorem setEpGrant_ptime (e v : Nat) (s : State) : (setEpGrant e v s).ptime = s.ptime := by simp [setEpGrant]
@[simp] theorem opEpGrant_ptime (e v : Nat) (s : State) : (opEpGrant e v s).2.ptime = s.ptime := by simp [opEpGrant]

@[simp] theorem opEpPartition_ptime (v : Nat) (s : State) : (opEpPartition v s).2.ptime = s.ptime := by
  simp [opEpPartition]

@[simp] theorem execEpPartitionWrite_keepsTime (value : Nat) (s : State) : KeepsTime s (execEpPartitionWrite value s) := by
  simp [execEpPartitionWrite]

@[simp] theorem opPartKeys_ptime (p v : Nat) (s : State) : (opPartKeys p v s).2.ptime = s.ptime := by simp [opPartKeys]

@[simp] theorem execPartKeysWrite_keepsTime (part value : Nat) (s : State) : KeepsTime s (execPartKeysWrite part value s) := by
  simp [execPartKeysWrite]

/-! ### Security -/

@[simp] theorem keyDone_ptime (st : Status) (s : State) : (keyDone st s).ptime = s.ptime := by simp [keyDone]

@[simp] theorem keySlotRun_ptime (by_ : Option Nat) (cmd : Bytes) (s : State) : (keySlotRun by_ cmd s).2.ptime = s.ptime := by
  simp only [keySlotRun]
  repeat' split
  all_goals simp

@[simp] theorem opKeySlot_ptime (by_ : Option Nat) (cmd : Bytes) (s : State) : (opKeySlot by_ cmd s).2.ptime = s.ptime := by
  simp only [opKeySlot]
  split <;> simp

@[simp] theorem execInstall_keepsTime (driver : Option Nat) (cmd : Bytes) (s : State) :
    KeepsTime s (execInstall driver cmd s) := by simp [execInstall]

@[simp] theorem execRoll_keepsTime (driver : Option Nat) (cmd : Bytes) (s : State) : KeepsTime s (execRoll driver cmd s) := by
  simp [execRoll]

@[simp] theorem execRevoke_keepsTime (driver : Option Nat) (cmd : Bytes) (s : State) :
    KeepsTime s (execRevoke driver cmd s) := by simp [execRevoke]

@[simp] theorem execKeyRollExpiry_keepsTime (slot : Nat) (s : State) : KeepsTime s (execKeyRollExpiry slot s) := by
  simp [execKeyRollExpiry]

@[simp] theorem opAttest_ptime (by_ : Option Nat) (req : Bytes) (s : State) : (opAttest by_ req s).2.ptime = s.ptime := by
  simp [opAttest]

@[simp] theorem execAttestationRequest_keepsTime (driver : Option Nat) (req : Bytes) (s : State) :
    KeepsTime s (execAttestationRequest driver req s) := by simp [execAttestationRequest]

@[simp] theorem execAttestationReportReady_keepsTime (s : State) : KeepsTime s (execAttestationReportReady s) := by
  unfold execAttestationReportReady
  split <;> simp

@[simp] theorem bassoonRead_ptime (pa len : Nat) (s : State) : (bassoonRead pa len s).2.ptime = s.ptime := by
  unfold bassoonRead
  repeat' split
  all_goals simp (disch := assumption) [ptime_of_result]

@[simp] theorem blobOpen_ptime (b : BlobSt) (s : State) : (blobOpen b s).2.ptime = s.ptime := by
  simp only [blobOpen]
  repeat' split
  all_goals simp (disch := assumption) [ptime_of_result]

@[simp] theorem blobDone_ptime (b : BlobSt) (s : State) : (blobDone b s).ptime = s.ptime := by
  unfold blobDone
  split <;> simp

@[simp] theorem blobKeep_ptime (b : BlobSt) (s : State) : (blobKeep b s).ptime = s.ptime := by simp [blobKeep]

@[simp] theorem opBlob_ptime (by_ : Option Nat) (cmd : Bytes) (s : State) : (opBlob by_ cmd s).2.ptime = s.ptime := by
  simp only [opBlob]
  repeat' split
  all_goals simp (disch := assumption) [ptime_of_result]

@[simp] theorem execBlobUnwrapCmd_keepsTime (driver : Option Nat) (cmd : Bytes) (s : State) :
    KeepsTime s (execBlobUnwrapCmd driver cmd s) := by simp [execBlobUnwrapCmd]

@[simp] theorem blobChunk_ptime (b : BlobSt) (key : BitVec 256) (s : State) : (blobChunk b key s).ptime = s.ptime := by
  simp only [blobChunk]
  repeat' split
  all_goals simp (disch := assumption) [ptime_of_result]

@[simp] theorem execBlobChunkDone_keepsTime (s : State) : KeepsTime s (execBlobChunkDone s) := by
  unfold execBlobChunkDone
  repeat' split
  all_goals simp (disch := assumption) [ptime_of_result]

/-! ### Resets -/

@[simp] theorem keepObjs_ptime (f : ObjRow → Bool) (s : State) : (keepObjs f s).ptime = s.ptime := by simp [keepObjs]
@[simp] theorem commitCounter_ptime (k : Nat) (s : State) : (commitCounter k s).ptime = s.ptime := by simp [commitCounter]
@[simp] theorem commitCounters_ptime (s : State) : (commitCounters s).ptime = s.ptime := by simp [commitCounters]
@[simp] theorem islandsReset_ptime (s : State) : (islandsReset s).ptime = s.ptime := by simp [islandsReset]
@[simp] theorem dramLost_ptime (s : State) : (dramLost s).ptime = s.ptime := by simp [dramLost]
@[simp] theorem enterPhase_ptime (n : Nat) (s : State) : (enterPhase n s).ptime = s.ptime := by simp [enterPhase]
@[simp] theorem bootRom_ptime (s : State) : (bootRom s).ptime = s.ptime := by simp [bootRom]
@[simp] theorem coldStart_ptime (phases : Nat) (s : State) : (coldStart phases s).ptime = s.ptime := by simp [coldStart]

@[simp] theorem warmGoOn_ptime (s : State) : (warmGoOn s).ptime = s.ptime := by
  unfold warmGoOn
  repeat' split
  all_goals simp

@[simp] theorem fenceLast_ptime (domain part cause port : Nat) (s : State) :
    (fenceLast domain part cause port s).ptime = s.ptime := by simp [fenceLast]

@[simp] theorem unknownVector_ptime (line : Nat) (s : State) : (unknownVector line s).ptime = s.ptime := by
  simp [unknownVector]

@[simp] theorem forgetVectors_ptime (s : State) : (forgetVectors s).ptime = s.ptime := by simp [forgetVectors]

@[simp] theorem spillVector_ptime (line : Nat) (v : BitVec 32) (s : State) : (spillVector line v s).ptime = s.ptime := by
  simp [spillVector]

@[simp] theorem spillDirectory_ptime (s : State) : (spillDirectory s).ptime = s.ptime := by simp [spillDirectory]

@[simp] theorem moduleReset_ptime (cause : Nat) (s : State) : (moduleReset cause s).ptime = s.ptime := by
  simp [moduleReset]

@[simp] theorem protectiveShutdown_ptime (cause : Nat) (s : State) : (protectiveShutdown cause s).ptime = s.ptime := by
  simp [protectiveShutdown]

@[simp] theorem destroyClear_ptime (p : Nat) (s : State) : (destroyClear p s).ptime = s.ptime := by simp [destroyClear]

@[simp] theorem resetStatus_ptime (p cause : Nat) (s : State) : (resetStatus p cause s).ptime = s.ptime :=
  (pbump_ptime _ _ _ _ _).trans (setPobj_ptime _ _ _ _ _)

@[simp] theorem placePart_ptime (p : Nat) (s : State) : (placePart p s).ptime = s.ptime := by simp [placePart]
@[simp] theorem placeAll_ptime (s : State) : (placeAll s).ptime = s.ptime := by simp [placeAll]

/-! ### Fences -/

@[simp] theorem abandonReqs_ptime (p : Nat) (s : State) : (abandonReqs p s).ptime = s.ptime := by simp [abandonReqs]

@[simp] theorem fenceRetire_ptime (withRecord : Bool) (e : Nat × JobSt) (s : State) :
    (fenceRetire withRecord e s).ptime = s.ptime := by simp [fenceRetire]

@[simp] theorem resetHeads_ptime (p : Nat) (s : State) : (resetHeads p s).ptime = s.ptime := by simp [resetHeads]

@[simp] theorem fenceAnswer_ptime (p : Nat) (f : FenceSt) (s : State) : (fenceAnswer p f s).ptime = s.ptime := by
  simp [fenceAnswer]

@[simp] theorem finishOrderly_ptime (s : State) : (finishOrderly s).ptime = s.ptime := by simp [finishOrderly]

@[simp] theorem execFenceDrainEnd_keepsTime (part : Nat) (s : State) : KeepsTime s (execFenceDrainEnd part s) := by
  unfold execFenceDrainEnd
  split <;> simp

@[simp] theorem execFenceDrainBudgetExpiry_keepsTime (part : Nat) (s : State) :
    KeepsTime s (execFenceDrainBudgetExpiry part s) := by
  unfold execFenceDrainBudgetExpiry
  split <;> simp

@[simp] theorem closeAll_ptime (p : Nat) (s : State) : (closeAll p s).ptime = s.ptime := by simp [closeAll]
@[simp] theorem fenceClear_ptime (p : Nat) (s : State) : (fenceClear p s).ptime = s.ptime := by simp [fenceClear]

@[simp] theorem fenceDone_ptime (p : Nat) (f : FenceSt) (s : State) : (fenceDone p f s).ptime = s.ptime := by
  simp [fenceDone]

@[simp] theorem execFenceConfirm_keepsTime (part : Nat) (s : State) : KeepsTime s (execFenceConfirm part s) := by
  unfold execFenceConfirm
  split <;> simp

@[simp] theorem failTile_ptime (ptile cause : Nat) (s : State) : (failTile ptile cause s).ptime = s.ptime := by
  simp only [failTile]
  split <;> simp

@[simp] theorem execTileHeartbeat_keepsTime (ptile : Nat) (s : State) : KeepsTime s (execTileHeartbeat ptile s) := by
  simp [execTileHeartbeat]

@[simp] theorem execTileHeartbeatTimeout_keepsTime (ptile : Nat) (s : State) :
    KeepsTime s (execTileHeartbeatTimeout ptile s) := by simp [execTileHeartbeatTimeout]

@[simp] theorem execTileClockLockLoss_keepsTime (ptile : Nat) (s : State) : KeepsTime s (execTileClockLockLoss ptile s) := by
  simp [execTileClockLockLoss]

@[simp] theorem starved_ptime (port cls : Nat) (s : State) : (starved port cls s).ptime = s.ptime := by simp [starved]

@[simp] theorem setFenced_ptime (e : Nat) (b : Bool) (s : State) : (setFenced e b s).ptime = s.ptime := by
  simp [setFenced]

@[simp] theorem execPortStarvation_keepsTime (port tc : Nat) (s : State) : KeepsTime s (execPortStarvation port tc s) := by
  simp [execPortStarvation]

@[simp] theorem execCxlPortStarvation_keepsTime (port : Nat) (s : State) : KeepsTime s (execCxlPortStarvation port s) := by
  simp [execCxlPortStarvation]

@[simp] theorem orderlyReset_ptime (s : State) : (orderlyReset s).ptime = s.ptime := by simp [orderlyReset]

@[simp] theorem execModuleResetOrderly_keepsTime (s : State) : KeepsTime s (execModuleResetOrderly s) := by
  simp [execModuleResetOrderly]

@[simp] theorem execModuleResetImmediate_keepsTime (cause : Nat) (s : State) :
    KeepsTime s (execModuleResetImmediate cause s) := by simp [execModuleResetImmediate]

@[simp] theorem opModuleReset_ptime (v : Nat) (s : State) : (opModuleReset v s).2.ptime = s.ptime := by
  simp [opModuleReset]

/-! ### Power -/

@[simp] theorem execInputSample_keepsTime (vin : Nat) (s : State) : KeepsTime s (execInputSample vin s) := by
  simp [execInputSample]

@[simp] theorem execInputQualified_keepsTime (phases : Nat) (s : State) : KeepsTime s (execInputQualified phases s) := by
  simp [execInputQualified]

@[simp] theorem execUvWarning_keepsTime (s : State) : KeepsTime s (execUvWarning s) := by simp [execUvWarning]

@[simp] theorem execUvQualificationExpiry_keepsTime (s : State) : KeepsTime s (execUvQualificationExpiry s) := by
  simp [execUvQualificationExpiry]

@[simp] theorem execOvQualificationExpiry_keepsTime (s : State) : KeepsTime s (execOvQualificationExpiry s) := by
  simp [execOvQualificationExpiry]

@[simp] theorem execPfailRelease_keepsTime (s : State) : KeepsTime s (execPfailRelease s) := by simp [execPfailRelease]
@[simp] theorem execPhaseFailure_keepsTime (s : State) : KeepsTime s (execPhaseFailure s) := by simp [execPhaseFailure]

@[simp] theorem execThermalSample_keepsTime (junction stack : Nat) (s : State) :
    KeepsTime s (execThermalSample junction stack s) := by simp [execThermalSample]

@[simp] theorem mramUpset_ptime (x : MramUpset) (s : State) : (mramUpset x s).ptime = s.ptime := by simp [mramUpset]

@[simp] theorem takeFreeWide_ptime (n : Nat) (s : State) : (takeFreeWide n s).2.ptime = s.ptime := by
  induction n with
  | zero => rfl
  | succ n ih => simp [takeFreeWide, ih]

@[simp] theorem restoreRws_ptime (k : Nat) (s : State) : (restoreRws k s).ptime = s.ptime := by
  simp only [restoreRws]
  split <;> simp

@[simp] theorem cxlPortReset_ptime (port : Nat) (s : State) : (cxlPortReset port s).ptime = s.ptime := by
  simp [cxlPortReset]

@[simp] theorem cxlTrain_ptime (port : Nat) (s : State) : (cxlTrain port s).ptime = s.ptime := by simp [cxlTrain]

@[simp] theorem execPerstAssert_keepsTime (port : Nat) (s : State) : KeepsTime s (execPerstAssert port s) := by
  simp [execPerstAssert]

@[simp] theorem cxlTrainTo_ptime (port lanes : Nat) (s : State) : (cxlTrainTo port lanes s).ptime = s.ptime := by
  simp [cxlTrainTo]

@[simp] theorem execPerstRelease_keepsTime (up : CxlUp) (s : State) : KeepsTime s (execPerstRelease up s) := by
  simp [execPerstRelease]

@[simp] theorem execCxlPortReset_keepsTime (up : CxlUp) (s : State) : KeepsTime s (execCxlPortReset up s) := by
  simp [execCxlPortReset]

@[simp] theorem execReferenceLoss_keepsTime (ref : Nat) (s : State) : KeepsTime s (execReferenceLoss ref s) := by
  simp [execReferenceLoss]

@[simp] theorem execReferenceRestored_keepsTime (ref : Nat) (s : State) : KeepsTime s (execReferenceRestored ref s) := by
  simp only [execReferenceRestored]
  repeat' split
  all_goals simp

@[simp] theorem clearTile_ptime (t : Nat) (s : State) : (clearTile t s).ptime = s.ptime := by simp [clearTile]

@[simp] theorem powerAccept_ptime (target token tiles nl cxl : Nat) (s : State) :
    (powerAccept target token tiles nl cxl s).ptime = s.ptime := by simp [powerAccept]

@[simp] theorem opPowerState_ptime (wop : Bool) (cmd : Bytes) (s : State) : (opPowerState wop cmd s).2.ptime = s.ptime := by
  simp [opPowerState]

@[simp] theorem powerVia_ptime (via : Option Nat) (cmd : Bytes) (s : State) : (powerVia via cmd s).2.ptime = s.ptime := by
  unfold powerVia
  split <;> simp

@[simp] theorem execPowerStateM0_keepsTime (via : Option Nat) (cmd : Bytes) (s : State) :
    KeepsTime s (execPowerStateM0 via cmd s) := by simp [execPowerStateM0]

@[simp] theorem execPowerStateM1_keepsTime (via : Option Nat) (cmd : Bytes) (s : State) :
    KeepsTime s (execPowerStateM1 via cmd s) := by simp [execPowerStateM1]

@[simp] theorem execPowerStateM2_keepsTime (via : Option Nat) (cmd : Bytes) (s : State) :
    KeepsTime s (execPowerStateM2 via cmd s) := by simp [execPowerStateM2]

@[simp] theorem execPowerStateM3_keepsTime (via : Option Nat) (cmd : Bytes) (s : State) :
    KeepsTime s (execPowerStateM3 via cmd s) := by simp [execPowerStateM3]

@[simp] theorem gateNl_ptime (port : Nat) (s : State) : (gateNl port s).ptime = s.ptime := by simp [gateNl]
@[simp] theorem ungateNl_ptime (port : Nat) (s : State) : (ungateNl port s).ptime = s.ptime := by simp [ungateNl]
@[simp] theorem ungateTile_ptime (t : Nat) (s : State) : (ungateTile t s).ptime = s.ptime := by simp [ungateTile]
@[simp] theorem applyGates_ptime (s : State) : (applyGates s).ptime = s.ptime := by simp [applyGates]
@[simp] theorem enterRetain_ptime (s : State) : (enterRetain s).ptime = s.ptime := by simp [enterRetain]
@[simp] theorem leaveRetain_ptime (s : State) : (leaveRetain s).ptime = s.ptime := by simp [leaveRetain]
@[simp] theorem enterHold_ptime (s : State) : (enterHold s).ptime = s.ptime := by simp [enterHold]
@[simp] theorem powerDone_ptime (state : Nat) (s : State) : (powerDone state s).ptime = s.ptime := by simp [powerDone]
@[simp] theorem leaveTiles_ptime (ts : List Nat) (s : State) : (leaveTiles ts s).ptime = s.ptime := by simp [leaveTiles]

@[simp] theorem execPowerTransitionEnd_keepsTime (s : State) : KeepsTime s (execPowerTransitionEnd s) := by
  simp only [execPowerTransitionEnd]
  repeat' split
  all_goals simp

/-! ### Bring-up -/

@[simp] theorem execImageRequestTimer_keepsTime (s : State) : KeepsTime s (execImageRequestTimer s) := by
  simp [execImageRequestTimer]

@[simp] theorem imageDone_ptime (b : Bytes) (s : State) : (imageDone b s).ptime = s.ptime := by
  simp only [imageDone]
  split <;> simp

@[simp] theorem execImageData_keepsTime (offset : Nat) (data : Bytes) (s : State) :
    KeepsTime s (execImageData offset data s) := by simp [execImageData]

@[simp] theorem answerMailbox_ptime (ld : Nat) (r : (Status × Bytes) × State) : (answerMailbox ld r).ptime = r.2.ptime := by
  simp [answerMailbox]

@[simp] theorem opImageWrite_ptime (input : Bytes) (s : State) : (opImageWrite input s).2.ptime = s.ptime := by
  simp [opImageWrite]

@[simp] theorem execImageWrite_keepsTime (ld : Nat) (input : Bytes) (s : State) : KeepsTime s (execImageWrite ld input s) := by
  simp [execImageWrite]

@[simp] theorem execImageVerify_keepsTime (s : State) : KeepsTime s (execImageVerify s) := by
  unfold execImageVerify
  split <;> simp

@[simp] theorem opRollback_ptime (v : Nat) (s : State) : (opRollback v s).2.ptime = s.ptime := by
  unfold opRollback
  split <;> simp

@[simp] theorem execFwRollbackCommit_keepsTime (value : Nat) (s : State) : KeepsTime s (execFwRollbackCommit value s) := by
  simp [execFwRollbackCommit]

@[simp] theorem execTileWave_keepsTime (present passed : Nat) (s : State) : KeepsTime s (execTileWave present passed s) := by
  simp [execTileWave]

@[simp] theorem mapTiles_ptime (s : State) : (mapTiles s).ptime = s.ptime := by simp [mapTiles]

@[simp] theorem execTileFirmwareDelivery_keepsTime (bad : List Nat) (s : State) :
    KeepsTime s (execTileFirmwareDelivery bad s) := by simp [execTileFirmwareDelivery]

@[simp] theorem storeRecord_ptime (r : ChanReport) (s : State) : (storeRecord r s).ptime = s.ptime := by
  simp [storeRecord]

@[simp] theorem replaceAtStart_ptime (l : Nat) (s : State) : (replaceAtStart l s).ptime = s.ptime := by
  simp only [replaceAtStart]
  repeat' split
  all_goals simp

@[simp] theorem countStacks_ptime (s : State) : (countStacks s).ptime = s.ptime := by simp [countStacks]
@[simp] theorem portsUp_ptime (s : State) : (portsUp s).ptime = s.ptime := by simp [portsUp]

@[simp] theorem execDramTrainingDone_keepsTime (reports : List ChanReport) (repaired : List (Nat × Nat)) (s : State) :
    KeepsTime s (execDramTrainingDone reports repaired s) := by simp [execDramTrainingDone]

@[simp] theorem execMemoryTestDone_keepsTime (s : State) : KeepsTime s (execMemoryTestDone s) := by
  simp [execMemoryTestDone]

@[simp] theorem holdPort_ptime (port : Nat) (s : State) : (holdPort port s).ptime = s.ptime := by simp [holdPort]
@[simp] theorem rejoin_ptime (s : State) : (rejoin s).ptime = s.ptime := by simp [rejoin]
@[simp] theorem declareReady_ptime (s : State) : (declareReady s).ptime = s.ptime := by simp [declareReady]
@[simp] theorem judgeTopology_ptime (s : State) : (judgeTopology s).ptime = s.ptime := by simp [judgeTopology]
@[simp] theorem judgeAgain_ptime (s : State) : (judgeAgain s).ptime = s.ptime := by simp [judgeAgain]

@[simp] theorem execTopologyCheck_keepsTime (expired buddyHolds : Bool) (s : State) :
    KeepsTime s (execTopologyCheck expired buddyHolds s) := by simp [execTopologyCheck]

@[simp] theorem releasePort_ptime (port : Nat) (s : State) : (releasePort port s).ptime = s.ptime := by simp [releasePort]

@[simp] theorem opTopoAccept_ptime (mask : Nat) (s : State) : (opTopoAccept mask s).2.ptime = s.ptime := by
  simp [opTopoAccept]

@[simp] theorem execTopoAccept_keepsTime (mask : Nat) (s : State) : KeepsTime s (execTopoAccept mask s) := by
  simp [execTopoAccept]

@[simp] theorem opExpected_ptime (v : Nat) (s : State) : (opExpected v s).2.ptime = s.ptime := by simp [opExpected]

@[simp] theorem execExpectedTopologyWrite_keepsTime (value : Nat) (s : State) :
    KeepsTime s (execExpectedTopologyWrite value s) := by simp [execExpectedTopologyWrite]

/-! ### Hosts -/

@[simp] theorem plainAnswer_ptime (port sub : Nat) (m : Msg) (s : State) : (plainAnswer port sub m s).ptime = s.ptime := by
  simp [plainAnswer]

@[simp] theorem memToken_ptime (line sub svc : Nat) (paced : Bool) (outPort : Nat) (s : State) :
    (memToken line sub svc paced outPort s).ptime = s.ptime := by simp [memToken]

@[simp] theorem cxlRead_ptime (excl : Bool) (port ld dpa tag : Nat) (s : State) :
    (cxlRead excl port ld dpa tag s).ptime = s.ptime := by
  unfold cxlRead
  repeat' split
  all_goals simp

@[simp] theorem cxlWrite_ptime (port ld dpa tag : Nat) (keep : Bool) (be : BitVec 64) (data : Bytes) (s : State) :
    (cxlWrite port ld dpa tag keep be data s).ptime = s.ptime := by
  unfold cxlWrite
  repeat' split
  all_goals simp

@[simp] theorem execCxlMemReadShared_keepsTime (port ld dpa tag : Nat) (s : State) :
    KeepsTime s (execCxlMemReadShared port ld dpa tag s) := by simp [execCxlMemReadShared]

@[simp] theorem execCxlMemReadExclusive_keepsTime (port ld dpa tag : Nat) (s : State) :
    KeepsTime s (execCxlMemReadExclusive port ld dpa tag s) := by simp [execCxlMemReadExclusive]

@[simp] theorem execCxlMemWrite_keepsTime (port ld dpa tag : Nat) (keep : Bool) (be : BitVec 64) (data : Bytes)
    (s : State) : KeepsTime s (execCxlMemWrite port ld dpa tag keep be data s) := by simp [execCxlMemWrite]

@[simp] theorem execHdmDecoderCommit_keepsTime (port ld dec ways : Nat) (s : State) :
    KeepsTime s (execHdmDecoderCommit port ld dec ways s) := by simp [execHdmDecoderCommit]

@[simp] theorem execBisnpResponse_keepsTime (host line : Nat) (gaveUp : Bool) (data : Option Bytes) (s : State) :
    KeepsTime s (execBisnpResponse host line gaveUp data s) := by simp [execBisnpResponse]

@[simp] theorem execBiconflict_keepsTime (host line : Nat) (s : State) : KeepsTime s (execBiconflict host line s) := by
  simp [execBiconflict]

@[simp] theorem hostDeath_ptime (h cause : Nat) (s : State) : (hostDeath h cause s).ptime = s.ptime := by simp [hostDeath]
@[simp] theorem declareDead_ptime (h : Nat) (s : State) : (declareDead h s).2.ptime = s.ptime := by simp [declareDead]

@[simp] theorem execHostDeclareDead_keepsTime (host : Nat) (s : State) : KeepsTime s (execHostDeclareDead host s) := by
  simp [execHostDeclareDead]

@[simp] theorem execBiTimeout_keepsTime (host line : Nat) (s : State) : KeepsTime s (execBiTimeout host line s) := by
  simp [execBiTimeout]

@[simp] theorem execDeadHostSweepEnd_keepsTime (host : Nat) (s : State) : KeepsTime s (execDeadHostSweepEnd host s) := by
  unfold execDeadHostSweepEnd
  split <;> simp

@[simp] theorem hostTableWrite_ptime (h v : Nat) (s : State) : (hostTableWrite h v s).2.ptime = s.ptime := by
  simp [hostTableWrite]

@[simp] theorem execHostTableWrite_keepsTime (host value : Nat) (s : State) :
    KeepsTime s (execHostTableWrite host value s) := by simp [execHostTableWrite]

/-! ### Routes -/

@[simp] theorem clearStreams_ptime (e : Nat) (s : State) : (clearStreams e s).ptime = s.ptime := by simp [clearStreams]
@[simp] theorem setRoute_ptime (e v : Nat) (s : State) : (setRoute e v s).ptime = s.ptime := by simp [setRoute]
@[simp] theorem opRoute_ptime (e v : Nat) (s : State) : (opRoute e v s).2.ptime = s.ptime := by simp [opRoute]

@[simp] theorem execRouteEntryWrite_keepsTime (endpoint value : Nat) (s : State) :
    KeepsTime s (execRouteEntryWrite endpoint value s) := by simp [execRouteEntryWrite]

@[simp] theorem opOwnEndpoint_ptime (v : Nat) (s : State) : (opOwnEndpoint v s).2.ptime = s.ptime := by
  simp [opOwnEndpoint]

@[simp] theorem execNfOwnEndpointWrite_keepsTime (value : Nat) (s : State) : KeepsTime s (execNfOwnEndpointWrite value s) := by
  simp [execNfOwnEndpointWrite]

/-! ### Objects -/

@[simp] theorem opUnlock_ptime (mon : Bool) (group v : Nat) (s : State) : (opUnlock mon group v s).2.ptime = s.ptime := by
  simp [opUnlock]

@[simp] theorem opFmKey_ptime (cmd : Bytes) (s : State) : (opFmKey cmd s).2.ptime = s.ptime := by
  unfold opFmKey
  repeat' split
  all_goals simp

@[simp] theorem lovageResult_ptime (rs : List (Nat × Bytes)) (s : State) : (lovageResult rs s).ptime = s.ptime := by
  simp [lovageResult]

@[simp] theorem opLovage_ptime (mon : Bool) (cmd : Bytes) (s : State) : (opLovage mon cmd s).2.ptime = s.ptime := by
  simp only [opLovage]
  repeat' split
  all_goals simp

@[simp] theorem flushEvents_ptime (s : State) : (flushEvents s).ptime = s.ptime := by simp [flushEvents]

@[simp] theorem counterWrite_ptime (p index sub v : Nat) (s : State) : (counterWrite p index sub v s).2.ptime = s.ptime := by
  simp [counterWrite]

@[simp] theorem plainWrite_ptime (p index sub v : Nat) (s : State) : (plainWrite p index sub v s).2.ptime = s.ptime := by
  simp [plainWrite]

@[simp] theorem objPerform_ptime (wop : Bool) (r : Role) (row : ObjRow) (p index sub v : Nat) (d : Bytes) (s : State) :
    (objPerform wop r row p index sub v d s).2.ptime = s.ptime := by
  unfold objPerform
  repeat' split
  all_goals simp

@[simp] theorem objWrite_ptime (wop : Bool) (r : Role) (index sub part : Nat) (d : Bytes) (s : State) :
    (objWrite wop r index sub part d s).2.ptime = s.ptime := by
  simp only [objWrite]
  repeat' split
  all_goals simp

@[simp] theorem execObjectWrite_keepsTime (role : Role) (index sub part : Nat) (data : Bytes) (s : State) :
    KeepsTime s (execObjectWrite role index sub part data s) := by simp [execObjectWrite]

@[simp] theorem execFmKeyCmd_keepsTime (role : Role) (cmd : Bytes) (s : State) : KeepsTime s (execFmKeyCmd role cmd s) := by
  simp [execFmKeyCmd]

@[simp] theorem execExpertUnlock_keepsTime (role : Role) (group : Nat) (s : State) :
    KeepsTime s (execExpertUnlock role group s) := by simp [execExpertUnlock]

@[simp] theorem execExpertLock_keepsTime (role : Role) (group : Nat) (s : State) :
    KeepsTime s (execExpertLock role group s) := by simp [execExpertLock]

@[simp] theorem execExpertUnlockLapse_keepsTime (mon : Bool) (group : Nat) (s : State) :
    KeepsTime s (execExpertUnlockLapse mon group s) := by
  unfold execExpertUnlockLapse
  split <;> simp

@[simp] theorem execLovageRead_keepsTime (role : Role) (count seq : Nat) (s : State) :
    KeepsTime s (execLovageRead role count seq s) := by simp [execLovageRead]

@[simp] theorem execLovageReadCopies_keepsTime (role : Role) (seq : Nat) (s : State) :
    KeepsTime s (execLovageReadCopies role seq s) := by simp [execLovageReadCopies]

@[simp] theorem execLovageFreeze_keepsTime (role : Role) (s : State) : KeepsTime s (execLovageFreeze role s) := by
  simp [execLovageFreeze]

@[simp] theorem execLovageUnfreeze_keepsTime (role : Role) (s : State) : KeepsTime s (execLovageUnfreeze role s) := by
  simp [execLovageUnfreeze]

@[simp] theorem execLovageClear_keepsTime (role : Role) (s : State) : KeepsTime s (execLovageClear role s) := by
  simp [execLovageClear]

/-! ### Management -/

@[simp] theorem wopDrop_ptime (s : State) : (wopDrop s).ptime = s.ptime := by simp [wopDrop]

@[simp] theorem wopAnswer_ptime (ctr : Nat) (tag : Bytes) (index sub part : Nat) (r : (Status × Bytes) × State) :
    (wopAnswer ctr tag index sub part r).ptime = r.2.ptime := by simp [wopAnswer]

@[simp] theorem wopRequest_ptime (type ctr index sub part : Nat) (data : Bytes) (tag : Option Bytes)
    (f : Role → Bytes → State → (Status × Bytes) × State) (s : State) (hf : ∀ x y t, (f x y t).2.ptime = t.ptime) :
    (wopRequest type ctr index sub part data tag f s).ptime = s.ptime := by
  unfold wopRequest
  repeat' split
  all_goals simp [hf]

@[simp] theorem execWopRead_keepsTime (ctr index sub part : Nat) (tag : Option Bytes) (s : State) :
    KeepsTime s (execWopRead ctr index sub part tag s) := by simp [execWopRead]

@[simp] theorem execWopWrite_keepsTime (ctr index sub part : Nat) (data : Bytes) (tag : Option Bytes) (s : State) :
    KeepsTime s (execWopWrite ctr index sub part data tag s) := by simp [execWopWrite]

@[simp] theorem execEventAck_keepsTime (ctr : Nat) (s : State) : KeepsTime s (execEventAck ctr s) := by
  simp [execEventAck]

@[simp] theorem resendEvent_ptime (e : EventRec) (s : State) : (resendEvent e s).ptime = s.ptime := by simp [resendEvent]

@[simp] theorem execEventResendTimer_keepsTime (s : State) : KeepsTime s (execEventResendTimer s) := by
  simp [execEventResendTimer]

@[simp] theorem execObjRead_keepsTime (ld index sub part : Nat) (s : State) :
    KeepsTime s (execObjRead ld index sub part s) := by simp [execObjRead]

@[simp] theorem execObjWrite_keepsTime (ld index sub part : Nat) (data : Bytes) (s : State) :
    KeepsTime s (execObjWrite ld index sub part data s) := by simp [execObjWrite]

@[simp] theorem windowOp_ptime (ld token addr len : Nat) (data : Bytes)
    (f : Role → Nat → Nat → Nat → Nat → State → (Status × Bytes) × State) (s : State)
    (hf : ∀ x y z v w t, (f x y z v w t).2.ptime = t.ptime) : (windowOp ld token addr len data f s).ptime = s.ptime := by
  unfold windowOp
  repeat' split
  all_goals simp [hf]

@[simp] theorem execObjWindowRead_keepsTime (ld token addr len : Nat) (data : Bytes) (s : State) :
    KeepsTime s (execObjWindowRead ld token addr len data s) := by simp [execObjWindowRead]

@[simp] theorem execObjWindowWrite_keepsTime (ld token addr len : Nat) (data : Bytes) (s : State) :
    KeepsTime s (execObjWindowWrite ld token addr len data s) := by simp [execObjWindowWrite]

@[simp] theorem mgmtAnswer_ptime (b : Bytes) (r : (Status × Bytes) × State) : (mgmtAnswer b r).ptime = r.2.ptime := by
  simp [mgmtAnswer]

@[simp] theorem mgmtCell_ptime (b : Bytes) (s : State) : (mgmtCell b s).ptime = s.ptime := by simp [mgmtCell]

@[simp] theorem execMgmtCellRead_keepsTime (cell : Bytes) (s : State) : KeepsTime s (execMgmtCellRead cell s) := by
  simp [execMgmtCellRead]

@[simp] theorem execMgmtCellWrite_keepsTime (cell : Bytes) (s : State) : KeepsTime s (execMgmtCellWrite cell s) := by
  simp [execMgmtCellWrite]

@[simp] theorem fifeCmd_keepsTime (rom : Bool) (f : State → (Status × Bytes) × State) (s : State)
    (hf : ∀ t, (f t).2.ptime = t.ptime) : KeepsTime s (fifeCmd rom f s) := by simp [fifeCmd, hf]

@[simp] theorem execFifeStatus_keepsTime (s : State) : KeepsTime s (execFifeStatus s) := by simp [execFifeStatus]

@[simp] theorem execFifeGet_keepsTime (index sub : Nat) (s : State) : KeepsTime s (execFifeGet index sub s) := by
  simp [execFifeGet]

@[simp] theorem fifeWrite_keepsTime (index sub : Nat) (data : Bytes) (s : State) :
    KeepsTime s (fifeWrite index sub data s) := by simp [fifeWrite]

@[simp] theorem execFifeSet_keepsTime (index sub : Nat) (data : Bytes) (s : State) :
    KeepsTime s (execFifeSet index sub data s) := by simp [execFifeSet]

@[simp] theorem execFifeLovage_keepsTime (n : Nat) (s : State) : KeepsTime s (execFifeLovage n s) := by
  simp [execFifeLovage]

@[simp] theorem execFifeUnlock_keepsTime (group : Nat) (s : State) : KeepsTime s (execFifeUnlock group s) := by
  simp [execFifeUnlock]

@[simp] theorem execFifeLock_keepsTime (group : Nat) (s : State) : KeepsTime s (execFifeLock group s) := by
  simp [execFifeLock]

@[simp] theorem execFifeReset_keepsTime (s : State) : KeepsTime s (execFifeReset s) := by simp [execFifeReset]

@[simp] theorem loadTest_ptime (ins : TapTest) (cells : Boundary) (s : State) : (loadTest ins cells s).ptime = s.ptime := by
  simp [loadTest]

@[simp] theorem execJtagTestInstruction_keepsTime (s : State) : KeepsTime s (execJtagTestInstruction s) := by
  simp [execJtagTestInstruction]

@[simp] theorem loadQuiet_ptime (ins : TapQuiet) (cells : Boundary) (s : State) : (loadQuiet ins cells s).ptime = s.ptime := by
  unfold loadQuiet
  repeat' split
  all_goals simp

@[simp] theorem execJtagTestRelease_keepsTime (s : State) : KeepsTime s (execJtagTestRelease s) := by
  simp [execJtagTestRelease]

@[simp] theorem execClaimClrSample_keepsTime (low1 low2 : Bool) (s : State) : KeepsTime s (execClaimClrSample low1 low2 s) := by
  simp [execClaimClrSample]

/-! ### The fabric -/

@[simp] theorem malformed_ptime (s : State) : (malformed s).ptime = s.ptime := by simp [malformed]
@[simp] theorem takeAck_ptime (p : Packet) (s : State) : (takeAck p s).ptime = s.ptime := by simp [takeAck]

@[simp] theorem takeMc_ptime (skip : Bool) (p : Packet) (s : State) : (takeMc skip p s).ptime = s.ptime := by
  simp only [takeMc]
  split <;> simp

@[simp] theorem answerOk_ptime (w : ReqFor) (p : Packet) (s : State) : (answerOk w p s).ptime = s.ptime := by
  unfold answerOk
  repeat' split
  all_goals simp

@[simp] theorem takeAnswer_ptime (count : Nat) (p : Packet) (s : State) : (takeAnswer count p s).ptime = s.ptime := by
  simp only [takeAnswer]
  repeat' split
  all_goals simp

@[simp] theorem deliverUnit_ptime (count : Nat) (u : NlUnit) (s : State) : (deliverUnit count u s).ptime = s.ptime := by
  unfold deliverUnit
  split <;> simp

@[simp] theorem setRecv_ptime (cell : Bool) (k : Nat) (r : RecvStream) (s : State) : (setRecv cell k r s).ptime = s.ptime := by
  simp [setRecv]

@[simp] theorem seqAck_ptime (cell : Bool) (src tc : Nat) (s : State) : (seqAck cell src tc s).ptime = s.ptime := by
  simp [seqAck]

@[simp] theorem deliverNext_ptime (cell : Bool) (src tc : Nat) (u : NlUnit) (s : State) :
    (deliverNext cell src tc u s).ptime = s.ptime := by simp [deliverNext]

@[simp] theorem deliverHeld_ptime (cell : Bool) (src tc n : Nat) (s : State) :
    (deliverHeld cell src tc n s).ptime = s.ptime := by
  induction n generalizing s with
  | zero => rfl
  | succ n ih =>
    simp only [deliverHeld]
    split <;> simp [ih]

@[simp] theorem receiveUnit_ptime (cell : Bool) (src tc seq : Nat) (u : NlUnit) (s : State) :
    (receiveUnit cell src tc seq u s).ptime = s.ptime := by simp [receiveUnit]

@[simp] theorem mcAcks_ptime (src n : Nat) (l : List Nat) (s : State) : (mcAcks src n l s).ptime = s.ptime := by
  induction n generalizing l s with
  | zero => rfl
  | succ n ih =>
    cases l with
    | nil => rfl
    | cons a ls => simp [mcAcks, ih]

@[simp] theorem mcAckNow_ptime (k src : Nat) (s : State) : (mcAckNow k src s).ptime = s.ptime := by simp [mcAckNow]
@[simp] theorem mcDeliver_ptime (p : Packet) (s : State) : (mcDeliver p s).ptime = s.ptime := by simp [mcDeliver]

@[simp] theorem mcArrive_ptime (port : Nat) (p : Packet) (s : State) : (mcArrive port p s).ptime = s.ptime := by
  unfold mcArrive
  split <;> simp

@[simp] theorem transitUnit_ptime (port : Nat) (u : NlUnit) (s : State) : (transitUnit port u s).ptime = s.ptime := by
  unfold transitUnit
  repeat' split
  all_goals simp

@[simp] theorem unitArrive_ptime (port : Nat) (u : NlUnit) (s : State) : (unitArrive port u s).ptime = s.ptime := by
  unfold unitArrive
  split <;> simp

@[simp] theorem packetOf_keepsTime (opc port : Nat) (p : Packet) (s : State) : KeepsTime s (packetOf opc port p s) := by
  simp [packetOf]

@[simp] theorem atomicPacket_keepsTime (aop port : Nat) (p : Packet) (s : State) : KeepsTime s (atomicPacket aop port p s) := by
  simp [atomicPacket]

@[simp] theorem execRead_keepsTime (port : Nat) (packet : Packet) (s : State) : KeepsTime s (execRead port packet s) := by
  simp [execRead]

@[simp] theorem execReadWord_keepsTime (port : Nat) (packet : Packet) (s : State) :
    KeepsTime s (execReadWord port packet s) := by simp [execReadWord]

@[simp] theorem execWrite_keepsTime (port : Nat) (packet : Packet) (s : State) : KeepsTime s (execWrite port packet s) := by
  simp [execWrite]

@[simp] theorem execWriteBe_keepsTime (port : Nat) (packet : Packet) (s : State) : KeepsTime s (execWriteBe port packet s) := by
  simp [execWriteBe]

@[simp] theorem execWritePosted_keepsTime (port : Nat) (packet : Packet) (s : State) :
    KeepsTime s (execWritePosted port packet s) := by simp [execWritePosted]

@[simp] theorem execAtomicAdd_keepsTime (port : Nat) (packet : Packet) (s : State) :
    KeepsTime s (execAtomicAdd port packet s) := by simp [execAtomicAdd]

@[simp] theorem execAtomicFadd_keepsTime (port : Nat) (packet : Packet) (s : State) :
    KeepsTime s (execAtomicFadd port packet s) := by simp [execAtomicFadd]

@[simp] theorem execAtomicSwap_keepsTime (port : Nat) (packet : Packet) (s : State) :
    KeepsTime s (execAtomicSwap port packet s) := by simp [execAtomicSwap]

@[simp] theorem execAtomicCas_keepsTime (port : Nat) (packet : Packet) (s : State) :
    KeepsTime s (execAtomicCas port packet s) := by simp [execAtomicCas]

@[simp] theorem execAtomicUmin_keepsTime (port : Nat) (packet : Packet) (s : State) :
    KeepsTime s (execAtomicUmin port packet s) := by simp [execAtomicUmin]

@[simp] theorem execAtomicUmax_keepsTime (port : Nat) (packet : Packet) (s : State) :
    KeepsTime s (execAtomicUmax port packet s) := by simp [execAtomicUmax]

@[simp] theorem execAtomicSmin_keepsTime (port : Nat) (packet : Packet) (s : State) :
    KeepsTime s (execAtomicSmin port packet s) := by simp [execAtomicSmin]

@[simp] theorem execAtomicSmax_keepsTime (port : Nat) (packet : Packet) (s : State) :
    KeepsTime s (execAtomicSmax port packet s) := by simp [execAtomicSmax]

@[simp] theorem execAtomicAnd_keepsTime (port : Nat) (packet : Packet) (s : State) :
    KeepsTime s (execAtomicAnd port packet s) := by simp [execAtomicAnd]

@[simp] theorem execAtomicOr_keepsTime (port : Nat) (packet : Packet) (s : State) :
    KeepsTime s (execAtomicOr port packet s) := by simp [execAtomicOr]

@[simp] theorem execAtomicXor_keepsTime (port : Nat) (packet : Packet) (s : State) :
    KeepsTime s (execAtomicXor port packet s) := by simp [execAtomicXor]

@[simp] theorem execReduceFadd_keepsTime (port : Nat) (packet : Packet) (s : State) :
    KeepsTime s (execReduceFadd port packet s) := by simp [execReduceFadd]

@[simp] theorem execSeqAck_keepsTime (port : Nat) (packet : Packet) (s : State) : KeepsTime s (execSeqAck port packet s) := by
  simp [execSeqAck]

@[simp] theorem execMcAck_keepsTime (port : Nat) (packet : Packet) (s : State) : KeepsTime s (execMcAck port packet s) := by
  simp [execMcAck]

@[simp] theorem execMcSkip_keepsTime (port : Nat) (packet : Packet) (s : State) : KeepsTime s (execMcSkip port packet s) := by
  simp [execMcSkip]

@[simp] theorem execReadResp_keepsTime (port : Nat) (packet : Packet) (s : State) :
    KeepsTime s (execReadResp port packet s) := by simp [execReadResp]

@[simp] theorem execComp_keepsTime (port : Nat) (packet : Packet) (s : State) : KeepsTime s (execComp port packet s) := by
  simp [execComp]

@[simp] theorem execAtomicResp_keepsTime (port : Nat) (packet : Packet) (s : State) :
    KeepsTime s (execAtomicResp port packet s) := by simp [execAtomicResp]

@[simp] theorem execTransitForward_keepsTime (port : Nat) (nlUnit : NlUnit) (s : State) :
    KeepsTime s (execTransitForward port nlUnit s) := by
  unfold execTransitForward
  repeat' split
  all_goals simp

@[simp] theorem execSeqAckTimer_keepsTime (cell : Bool) (source tc : Nat) (s : State) :
    KeepsTime s (execSeqAckTimer cell source tc s) := by simp [execSeqAckTimer]

@[simp] theorem execMcAckTimer_keepsTime (source tc : Nat) (s : State) : KeepsTime s (execMcAckTimer source tc s) := by
  simp [execMcAckTimer]

@[simp] theorem execReorderTimeout_keepsTime (cell : Bool) (source tc : Nat) (s : State) :
    KeepsTime s (execReorderTimeout cell source tc s) := by
  simp only [execReorderTimeout]
  split <;> simp

@[simp] theorem execRequestTimeout_keepsTime (dst tag : Nat) (s : State) : KeepsTime s (execRequestTimeout dst tag s) := by
  simp only [execRequestTimeout]
  split <;> simp

@[simp] theorem execEscWaitExpiry_keepsTime (place : Nat) (s : State) : KeepsTime s (execEscWaitExpiry place s) := by
  unfold execEscWaitExpiry
  repeat' split
  all_goals simp

/-! ### Links -/

@[simp] theorem execFlitTransmit_keepsTime (port pick : Nat) (s : State) : KeepsTime s (execFlitTransmit port pick s) := by
  simp [execFlitTransmit]

@[simp] theorem execReplayTimerExpiry_keepsTime (port : Nat) (s : State) : KeepsTime s (execReplayTimerExpiry port s) := by
  simp [execReplayTimerExpiry]

@[simp] theorem execLinkInitTimeout_keepsTime (port : Nat) (s : State) : KeepsTime s (execLinkInitTimeout port s) := by
  simp [execLinkInitTimeout]

@[simp] theorem execFlitLockLoss_keepsTime (port : Nat) (s : State) : KeepsTime s (execFlitLockLoss port s) := by
  simp [execFlitLockLoss]

@[simp] theorem execRetrainReq_keepsTime (port : Nat) (s : State) : KeepsTime s (execRetrainReq port s) := by
  simp [execRetrainReq]

/-! ### Program loads and operands -/

@[simp] theorem loadWords_ptime (j : Nat) (x : JobSt) (n n1 : Nat) (l : List Nat) (s : State) :
    (loadWords j x n n1 l s).2.ptime = s.ptime := by
  induction n generalizing n1 l s with
  | zero => rfl
  | succ n ih =>
    simp only [loadWords]
    repeat' split
    all_goals simp (disch := assumption) [ptime_of_result, ih]

@[simp] theorem execProgLoad_keepsTime (job : Nat) (s : State) : KeepsTime s (execProgLoad job s) := by
  unfold execProgLoad
  repeat' split
  all_goals simp (disch := assumption) [ptime_of_result]

@[simp] theorem setEnding_ptime (t : Nat) (st : Status) (det res : Nat) (s : State) :
    (setEnding t st det res s).ptime = s.ptime := by simp [setEnding]

@[simp] theorem programOver_ptime (t : Nat) (s : State) : (programOver t s).ptime = s.ptime := by
  simp only [programOver]
  repeat' split
  all_goals simp

@[simp] theorem programFault_ptime (t cause pc : Nat) (s : State) : (programFault t cause pc s).ptime = s.ptime := by
  simp [programFault]

@[simp] theorem dataFault_ptime (t : Nat) (st : Status) (place : Nat) (s : State) :
    (dataFault t st place s).ptime = s.ptime := by simp [dataFault]

@[simp] theorem startProgram_ptime (t j : Nat) (x : JobSt) (s : State) : (startProgram t j x s).ptime = s.ptime := by
  simp [startProgram]

@[simp] theorem execProgRun_keepsTime (job : Nat) (s : State) : KeepsTime s (execProgRun job s) := by
  unfold execProgRun
  split <;> simp

@[simp] theorem goTo_ptime (t pc : Nat) (dest : Int) (s : State) : (goTo t pc dest s).ptime = s.ptime := by simp [goTo]

@[simp] theorem issue_ptime (t w : Nat) (lanes : Bool) (f : Nat → JobSt → TileSt → State → Issue) (s : State)
    (hf : ∀ x y z u, (f x y z u).time u = u.ptime) : (issue t w lanes f s).ptime = s.ptime := by
  unfold issue
  split
  · rfl
  next j x y _ =>
    have h := hf j x y s
    repeat' split
    all_goals simp_all

@[simp] theorem issueRegs_ptime (t w : Nat) (lanes : Bool) (f : TileSt → TileSt) (s : State) :
    (issueRegs t w lanes f s).ptime = s.ptime := issue_ptime _ _ _ _ _ (fun _ _ _ _ => rfl)

@[simp] theorem readScratch_ptime (y : TileSt) (n n1 : Nat) (s : State) : (readScratch y n n1 s).2.ptime = s.ptime := by
  induction n1 generalizing n s with
  | zero => rfl
  | succ m ih =>
    unfold readScratch
    split <;> simp [ih]

@[simp] theorem sldLine_ptime (j sid : Nat) (st : Stream) (l : Nat × Nat × Nat) (s : State) :
    (sldLine j sid st l s).2.ptime = s.ptime := by
  unfold sldLine
  repeat' split
  all_goals simp

@[simp] theorem keepLine_ptime (t sid : Nat) (l : Nat × Bytes) (s : State) : (keepLine t sid l s).ptime = s.ptime := by
  simp [keepLine]

@[simp] theorem sldCapture_ptime (t j : Nat) (x : JobSt) (a n : Nat) (s : State) :
    (sldCapture t j x a n s).ptime = s.ptime := by
  unfold sldCapture
  refine ptime_foldl _ (fun u e => (keepsTime_next _ _).2 ?_) _ _
  split
  · rfl
  · refine ptime_foldl _ (fun v l => (keepsTime_next _ _).2 ?_) _ _
    split <;> simp (disch := assumption) [ptime_of_result]

@[simp] theorem scratchRead_ptime (t j : Nat) (x : JobSt) (a n : Nat) (s : State) :
    (scratchRead t j x a n s).2.ptime = s.ptime := by simp [scratchRead]

@[simp] theorem mixBytes_ptime (which : Nat → Bool) (n : Nat) (b b1 : Bytes) (s : State) :
    (mixBytes which n b b1 s).2.ptime = s.ptime := by
  induction b generalizing n b1 s with
  | nil => simp [mixBytes]
  | cons a as ih =>
    cases b1 with
    | nil => simp [mixBytes]
    | cons c cs =>
      simp only [mixBytes]
      split <;> simp [ih]

@[simp] theorem streamGone_ptime (t sid j part bytes : Nat) (s : State) :
    (streamGone t sid j part bytes s).ptime = s.ptime := by simp [streamGone]

@[simp] theorem streamOver_ptime (t sid j : Nat) (x : JobSt) (st : Stream) (bytes : Nat) (err : Option (Status × Nat))
    (s : State) : (streamOver t sid j x st bytes err s).ptime = s.ptime := by
  unfold streamOver
  split <;> simp

@[simp] theorem sldRead_ptime (j sid : Nat) (st : Stream) (l : List (Nat × Nat × Nat)) (s : State) :
    (sldRead j sid st l s).2.ptime = s.ptime := by
  induction l generalizing s with
  | nil => rfl
  | cons a ls ih =>
    unfold sldRead
    repeat' split
    all_goals simp (disch := assumption) [ptime_of_result, ih]

@[simp] theorem sldAsk_ptime (j sid : Nat) (x : JobSt) (st : Stream) (s : State) : (sldAsk j sid x st s).ptime = s.ptime := by
  simp [sldAsk]

@[simp] theorem sldPut_ptime (t : Nat) (st : Stream) (l : Nat × Bytes) (s : State) : (sldPut t st l s).ptime = s.ptime := by
  simp [sldPut]

@[simp] theorem sldEnd_ptime (t sid j : Nat) (x : JobSt) (st : Stream) (s : State) :
    (sldEnd t sid j x st s).ptime = s.ptime := by simp [sldEnd]

@[simp] theorem sstBytes_ptime (t : Nat) (st : Stream) (s : State) : (sstBytes t st s).2.ptime = s.ptime := by
  simp [sstBytes]

@[simp] theorem sstRemote_ptime (j sid : Nat) (x : JobSt) (st : Stream) (bs : Bytes) (s : State) :
    (sstRemote j sid x st bs s).ptime = s.ptime := by simp [sstRemote]

@[simp] theorem sstEnd_ptime (t sid j : Nat) (x : JobSt) (st : Stream) (s : State) :
    (sstEnd t sid j x st s).ptime = s.ptime := by
  have htokens (f : Nat → State → List Piece) (l : List Nat) (t : State) :
      (l.foldl (fun t i => (f i t).foldl (fun t p => memTokens x p.addr p.len t) t) t).ptime = t.ptime :=
    ptime_foldl _ (by simp) l t
  simp only [sstEnd]
  repeat' split
  all_goals simp (disch := assumption) [ptime_of_result, htokens]

@[simp] theorem execStreamEnd_keepsTime (tile sid : Nat) (s : State) : KeepsTime s (execStreamEnd tile sid s) := by
  unfold execStreamEnd
  repeat' split
  all_goals simp

/-! ### Received packets -/

@[simp] theorem unitDone_ptime (port full : Nat) (u : NlUnit) (s : State) : (unitDone port full u s).ptime = s.ptime := by
  simp [unitDone]

@[simp] theorem takeSlot_ptime (port full : Nat) (start : Bool) (slot : Bytes) (s : State) :
    (takeSlot port full start slot s).ptime = s.ptime := by
  simp only [takeSlot]
  repeat' split
  all_goals simp

@[simp] theorem takePayload_ptime (port full pstart : Nat) (payload : Bytes) (s : State) :
    (takePayload port full pstart payload s).ptime = s.ptime := by simp [takePayload]

@[simp] theorem badFlit_ptime (port : Nat) (s : State) : (badFlit port s).ptime = s.ptime := by simp [badFlit]

@[simp] theorem laneOpTaken_ptime (port : Nat) (c : Lctl) (s : State) : (laneOpTaken port c s).ptime = s.ptime := by
  unfold laneOpTaken
  split <;> simp

@[simp] theorem initTaken_ptime (port : Nat) (c : Lctl) (payload : Bytes) (s : State) :
    (initTaken port c payload s).ptime = s.ptime := by simp [initTaken]

@[simp] theorem dataTaken_ptime (port full : Nat) (c : Lctl) (payload : Bytes) (s : State) :
    (dataTaken port full c payload s).ptime = s.ptime := by simp [dataTaken]

@[simp] theorem goodFlit_ptime (port full : Nat) (c : Lctl) (payload : Bytes) (s : State) :
    (goodFlit port full c payload s).ptime = s.ptime := by
  unfold goodFlit
  split <;> simp

@[simp] theorem compareSpare_ptime (port : Nat) (l : LaneSt) (rx : Decided) (good : Option Bytes) (s : State) :
    (compareSpare port l rx good s).ptime = s.ptime := by
  unfold compareSpare
  split <;> simp

@[simp] theorem reportPlaces_ptime (port : Nat) (places : List Nat) (s : State) :
    (reportPlaces port places s).ptime = s.ptime := by simp [reportPlaces]

@[simp] theorem takeFlit_ptime (port full : Nat) (w : Bytes) (places : List Nat) (s : State) :
    (takeFlit port full w places s).ptime = s.ptime := by
  unfold takeFlit
  split <;> simp

@[simp] theorem execFlitReceive_keepsTime (port full : Nat) (rx : Decided) (s : State) :
    KeepsTime s (execFlitReceive port full rx s) := by
  simp only [execFlitReceive]
  repeat' split
  all_goals simp

/-! ### Ticks -/

@[simp] theorem execCounterClear_keepsTime (part index sub value : Nat) (s : State) :
    KeepsTime s (execCounterClear part index sub value s) := by
  unfold execCounterClear
  split <;> simp

@[simp] theorem execServiceMinuteCommit_keepsTime (s : State) : KeepsTime s (execServiceMinuteCommit s) := by
  simp [execServiceMinuteCommit]

@[simp] theorem execRwsCounterCommit_keepsTime (s : State) : KeepsTime s (execRwsCounterCommit s) := by
  simp [execRwsCounterCommit]

@[simp] theorem execRingEntryReservation_keepsTime (ring stop dir free : Nat) (s : State) :
    KeepsTime s (execRingEntryReservation ring stop dir free s) := by
  unfold execRingEntryReservation
  repeat' split
  all_goals simp

/-! ### Instructions of tile programs -/

@[simp] theorem execNopInstruction_keepsTime (tile : Nat) (pn : Bool) (pg : Nat) (s : State) :
    KeepsTime s (execNopInstruction tile pn pg s) := by simp [execNopInstruction]

@[simp] theorem execHalt_keepsTime (tile : Nat) (pn : Bool) (pg ra rb : Nat) (stat : Bool) (s : State) :
    KeepsTime s (execHalt tile pn pg ra rb stat s) := by
  refine (keepsTime_next _ _).2 (issue_ptime _ _ _ _ _ fun j x y t => ?_)
  rfl

@[simp] theorem execBr_keepsTime (tile : Nat) (pn : Bool) (pg pt cond off : Nat) (s : State) :
    KeepsTime s (execBr tile pn pg pt cond off s) := by
  refine (keepsTime_next _ _).2 (issue_ptime _ _ _ _ _ fun j x y t => ?_)
  split <;> rfl

@[simp] theorem scalarR_ptime (op tile : Nat) (pn : Bool) (pg rd ra rb : Nat) (f : BitVec 64 → BitVec 64 → BitVec 64)
    (s : State) : (scalarR op tile pn pg rd ra rb f s).ptime = s.ptime := by simp [scalarR]

@[simp] theorem execAdd_keepsTime (tile : Nat) (pn : Bool) (pg rd ra rb : Nat) (s : State) :
    KeepsTime s (execAdd tile pn pg rd ra rb s) := by simp [execAdd]

@[simp] theorem execSub_keepsTime (tile : Nat) (pn : Bool) (pg rd ra rb : Nat) (s : State) :
    KeepsTime s (execSub tile pn pg rd ra rb s) := by simp [execSub]

@[simp] theorem execMul_keepsTime (tile : Nat) (pn : Bool) (pg rd ra rb : Nat) (s : State) :
    KeepsTime s (execMul tile pn pg rd ra rb s) := by simp [execMul]

@[simp] theorem execAnd_keepsTime (tile : Nat) (pn : Bool) (pg rd ra rb : Nat) (s : State) :
    KeepsTime s (execAnd tile pn pg rd ra rb s) := by simp [execAnd]

@[simp] theorem execOr_keepsTime (tile : Nat) (pn : Bool) (pg rd ra rb : Nat) (s : State) :
    KeepsTime s (execOr tile pn pg rd ra rb s) := by simp [execOr]

@[simp] theorem execXor_keepsTime (tile : Nat) (pn : Bool) (pg rd ra rb : Nat) (s : State) :
    KeepsTime s (execXor tile pn pg rd ra rb s) := by simp [execXor]

@[simp] theorem execShl_keepsTime (tile : Nat) (pn : Bool) (pg rd ra rb : Nat) (s : State) :
    KeepsTime s (execShl tile pn pg rd ra rb s) := by simp [execShl]

@[simp] theorem execShr_keepsTime (tile : Nat) (pn : Bool) (pg rd ra rb : Nat) (s : State) :
    KeepsTime s (execShr tile pn pg rd ra rb s) := by simp [execShr]

@[simp] theorem execSar_keepsTime (tile : Nat) (pn : Bool) (pg rd ra rb : Nat) (s : State) :
    KeepsTime s (execSar tile pn pg rd ra rb s) := by simp [execSar]

@[simp] theorem execAddi_keepsTime (tile : Nat) (pn : Bool) (pg rd ra imm : Nat) (s : State) :
    KeepsTime s (execAddi tile pn pg rd ra imm s) := by simp [execAddi]

@[simp] theorem execLi_keepsTime (tile : Nat) (pn : Bool) (pg rd imm : Nat) (s : State) :
    KeepsTime s (execLi tile pn pg rd imm s) := by simp [execLi]

@[simp] theorem execLih_keepsTime (tile : Nat) (pn : Bool) (pg rd imm : Nat) (s : State) :
    KeepsTime s (execLih tile pn pg rd imm s) := by simp [execLih]

@[simp] theorem execScmp_keepsTime (tile : Nat) (pn : Bool) (pg rd ra rb cmp : Nat) (s : State) :
    KeepsTime s (execScmp tile pn pg rd ra rb cmp s) := by simp [execScmp]

@[simp] theorem takeLds_ptime (j : Nat) (s : State) : (takeLds j s).ptime = s.ptime := by simp [takeLds]

@[simp] theorem ldsValue_ptime (t w : Nat) (b : Bytes) (s : State) : (ldsValue t w b s).ptime = s.ptime := by
  simp [ldsValue]

@[simp] theorem ldsRemote_ptime (t w j : Nat) (x : JobSt) (off n : Nat) (p : Piece) (s : State) :
    (ldsRemote t w j x off n p s).time s = s.ptime := by
  simp only [ldsRemote]
  repeat' split
  all_goals simp

@[simp] theorem execLds_keepsTime (tile : Nat) (pn : Bool) (pg rd ra opd_ size : Nat) (s : State) :
    KeepsTime s (execLds tile pn pg rd ra opd_ size s) := by
  refine (keepsTime_next _ _).2 (issue_ptime _ _ _ _ _ fun j x y t => ?_)
  simp only
  repeat' split
  all_goals simp (disch := assumption) [ptime_of_result]

@[simp] theorem stsLocal_ptime (t j opd_ off : Nat) (p : Piece) (b : Bytes) (x : JobSt) (s : State) :
    (stsLocal t j opd_ off p b x s).time s = s.ptime := by
  simp only [stsLocal]
  repeat' split
  all_goals simp (disch := assumption) [ptime_of_result]

@[simp] theorem execSts_keepsTime (tile : Nat) (pn : Bool) (pg ra rb opd_ size : Nat) (s : State) :
    KeepsTime s (execSts tile pn pg ra rb opd_ size s) := by
  refine (keepsTime_next _ _).2 (issue_ptime _ _ _ _ _ fun j x y t => ?_)
  simp only
  repeat' split
  all_goals simp

@[simp] theorem execLdx_keepsTime (tile : Nat) (pn : Bool) (pg rd ra size : Nat) (s : State) :
    KeepsTime s (execLdx tile pn pg rd ra size s) := by
  rw [execLdx]
  refine (keepsTime_next _ _).2 (issue_ptime _ _ _ _ _ fun j x y t => ?_)
  simp only
  split
  · rfl
  · exact Issue.time_done_updTile (scratchRead_ptime ..)

@[simp] theorem execStx_keepsTime (tile : Nat) (pn : Bool) (pg ra rb size : Nat) (s : State) :
    KeepsTime s (execStx tile pn pg ra rb size s) := by
  refine (keepsTime_next _ _).2 (issue_ptime _ _ _ _ _ fun j x y t => ?_)
  simp only
  split <;> simp

@[simp] theorem streamIssue_ptime (tile w : Nat) (store : Bool) (s : State) : (streamIssue tile w store s).ptime = s.ptime := by
  refine issue_ptime _ _ _ _ _ fun j x y t => ?_
  simp only
  repeat' split
  all_goals simp

@[simp] theorem execSld_keepsTime (tile : Nat) (pn : Bool) (pg sid opd_ ra rb rc pm : Nat) (s : State) :
    KeepsTime s (execSld tile pn pg sid opd_ ra rb rc pm s) := by simp [execSld]

@[simp] theorem execSst_keepsTime (tile : Nat) (pn : Bool) (pg sid opd_ ra rb rc pm red : Nat) (s : State) :
    KeepsTime s (execSst tile pn pg sid opd_ ra rb rc pm red s) := by simp [execSst]

@[simp] theorem execSwait_keepsTime (tile : Nat) (pn : Bool) (pg imm : Nat) (s : State) :
    KeepsTime s (execSwait tile pn pg imm s) := by
  refine (keepsTime_next _ _).2 (issue_ptime _ _ _ _ _ fun j x y t => ?_)
  split <;> rfl

@[simp] theorem execSfence_keepsTime (tile : Nat) (pn : Bool) (pg : Nat) (s : State) :
    KeepsTime s (execSfence tile pn pg s) := by
  refine (keepsTime_next _ _).2 (issue_ptime _ _ _ _ _ fun j x y t => ?_)
  split <;> rfl

@[simp] theorem vectorOp_ptime (tile w : Nat) (f : TileSt → List (BitVec 32)) (s : State) :
    (vectorOp tile w f s).ptime = s.ptime := by simp [vectorOp]

@[simp] theorem vectorR_ptime (op tile : Nat) (pn : Bool) (pg rd ra rb : Nat) (f : BitVec 32 → BitVec 32 → BitVec 32)
    (s : State) : (vectorR op tile pn pg rd ra rb f s).ptime = s.ptime := by simp [vectorR]

@[simp] theorem execVadd_keepsTime (tile : Nat) (pn : Bool) (pg rd ra rb : Nat) (s : State) :
    KeepsTime s (execVadd tile pn pg rd ra rb s) := by simp [execVadd]

@[simp] theorem execVsub_keepsTime (tile : Nat) (pn : Bool) (pg rd ra rb : Nat) (s : State) :
    KeepsTime s (execVsub tile pn pg rd ra rb s) := by simp [execVsub]

@[simp] theorem execVmul_keepsTime (tile : Nat) (pn : Bool) (pg rd ra rb : Nat) (s : State) :
    KeepsTime s (execVmul tile pn pg rd ra rb s) := by simp [execVmul]

@[simp] theorem execVdiv_keepsTime (tile : Nat) (pn : Bool) (pg rd ra rb : Nat) (s : State) :
    KeepsTime s (execVdiv tile pn pg rd ra rb s) := by simp [execVdiv]

@[simp] theorem execVmax_keepsTime (tile : Nat) (pn : Bool) (pg rd ra rb : Nat) (s : State) :
    KeepsTime s (execVmax tile pn pg rd ra rb s) := by simp [execVmax]

@[simp] theorem execVmin_keepsTime (tile : Nat) (pn : Bool) (pg rd ra rb : Nat) (s : State) :
    KeepsTime s (execVmin tile pn pg rd ra rb s) := by simp [execVmin]

@[simp] theorem execVfma_keepsTime (tile : Nat) (pn : Bool) (pg rd ra rb rc : Nat) (s : State) :
    KeepsTime s (execVfma tile pn pg rd ra rb rc s) := by simp [execVfma]

@[simp] theorem execVsqrt_keepsTime (tile : Nat) (pn : Bool) (pg rd ra : Nat) (s : State) :
    KeepsTime s (execVsqrt tile pn pg rd ra s) := by simp [execVsqrt]

@[simp] theorem execVexp2_keepsTime (tile : Nat) (pn : Bool) (pg rd ra : Nat) (s : State) :
    KeepsTime s (execVexp2 tile pn pg rd ra s) := by simp [execVexp2]

@[simp] theorem predOp_ptime (tile w : Nat) (f : TileSt → BitVec 64) (s : State) : (predOp tile w f s).ptime = s.ptime := by
  simp [predOp]

@[simp] theorem execVcmp_keepsTime (tile : Nat) (pn : Bool) (pg rd ra rb cmp : Nat) (s : State) :
    KeepsTime s (execVcmp tile pn pg rd ra rb cmp s) := by simp [execVcmp]

@[simp] theorem execVsel_keepsTime (tile : Nat) (pn : Bool) (pg rd ra rb rc : Nat) (s : State) :
    KeepsTime s (execVsel tile pn pg rd ra rb rc s) := by simp [execVsel]

@[simp] theorem execVred_keepsTime (tile : Nat) (pn : Bool) (pg rd ra op : Nat) (s : State) :
    KeepsTime s (execVred tile pn pg rd ra op s) := by simp [execVred]

@[simp] theorem execVbcast_keepsTime (tile : Nat) (pn : Bool) (pg rd ra : Nat) (s : State) :
    KeepsTime s (execVbcast tile pn pg rd ra s) := by simp [execVbcast]

@[simp] theorem execViota_keepsTime (tile : Nat) (pn : Bool) (pg rd imm : Nat) (s : State) :
    KeepsTime s (execViota tile pn pg rd imm s) := by simp [execViota]

@[simp] theorem execVld_keepsTime (tile : Nat) (pn : Bool) (pg rd ra rb fmt disp : Nat) (s : State) :
    KeepsTime s (execVld tile pn pg rd ra rb fmt disp s) := by
  rw [execVld]
  refine (keepsTime_next _ _).2 (issue_ptime _ _ _ _ _ fun j x y t => ?_)
  cases vectorFault y _ with
  | some e => rfl
  | none =>
    exact Issue.time_done_updTile
      (ptime_read_if ((scratchRead_ptime ..).trans (scratchRead_ptime ..)) (scratchRead_ptime ..))

@[simp] theorem execVst_keepsTime (tile : Nat) (pn : Bool) (pg rd ra rb fmt disp : Nat) (s : State) :
    KeepsTime s (execVst tile pn pg rd ra rb fmt disp s) := by
  rw [execVst]
  refine (keepsTime_next _ _).2 (issue_ptime _ _ _ _ _ fun j x y t => ?_)
  split
  · rfl
  · exact Issue.time_done_updTile rfl

@[simp] theorem execMzero_keepsTime (tile : Nat) (pn : Bool) (pg rd : Nat) (s : State) :
    KeepsTime s (execMzero tile pn pg rd s) := by simp [execMzero]

@[simp] theorem execMma_keepsTime (tile : Nat) (pn : Bool) (pg rd ra rb rc fmt fmtB : Nat) (s : State) :
    KeepsTime s (execMma tile pn pg rd ra rb rc fmt fmtB s) := by
  rw [execMma]
  refine (keepsTime_next _ _).2 (issue_ptime _ _ _ _ _ fun j x y t => ?_)
  cases mmaFault y _ with
  | some e => rfl
  | none =>
    have hread {u : State} {a n : Nat} (h : u.ptime = t.ptime) : (scratchRead tile j x a n u).2.ptime = t.ptime :=
      (scratchRead_ptime ..).trans h
    have hscale {u : State} {c : Bool} {a n : Nat} (h : u.ptime = t.ptime) :
        (if c then scratchRead tile j x a n u else ([], u)).2.ptime = t.ptime := ptime_read_if (hread h) h
    exact Issue.time_done_updTile (hscale (hscale (hread (hread rfl))))

@[simp] theorem execMrd_keepsTime (tile : Nat) (pn : Bool) (pg rd ra imm : Nat) (s : State) :
    KeepsTime s (execMrd tile pn pg rd ra imm s) := by simp [execMrd]

@[simp] theorem execMwr_keepsTime (tile : Nat) (pn : Bool) (pg rd ra imm : Nat) (s : State) :
    KeepsTime s (execMwr tile pn pg rd ra imm s) := by simp [execMwr]

@[simp] theorem execPand_keepsTime (tile : Nat) (pn : Bool) (pg rd ra rb : Nat) (s : State) :
    KeepsTime s (execPand tile pn pg rd ra rb s) := by simp [execPand]

@[simp] theorem execPor_keepsTime (tile : Nat) (pn : Bool) (pg rd ra rb : Nat) (s : State) :
    KeepsTime s (execPor tile pn pg rd ra rb s) := by simp [execPor]

@[simp] theorem execPxor_keepsTime (tile : Nat) (pn : Bool) (pg rd ra rb : Nat) (s : State) :
    KeepsTime s (execPxor tile pn pg rd ra rb s) := by simp [execPxor]

@[simp] theorem execPnot_keepsTime (tile : Nat) (pn : Bool) (pg rd ra : Nat) (s : State) :
    KeepsTime s (execPnot tile pn pg rd ra s) := by simp [execPnot]

@[simp] theorem execPsetn_keepsTime (tile : Nat) (pn : Bool) (pg rd ra : Nat) (s : State) :
    KeepsTime s (execPsetn tile pn pg rd ra s) := by simp [execPsetn]

@[simp] theorem execPtos_keepsTime (tile : Nat) (pn : Bool) (pg rd ra : Nat) (s : State) :
    KeepsTime s (execPtos tile pn pg rd ra s) := by simp [execPtos]

@[simp] theorem execPfroms_keepsTime (tile : Nat) (pn : Bool) (pg rd ra : Nat) (s : State) :
    KeepsTime s (execPfroms tile pn pg rd ra s) := by simp [execPfroms]

/-! ### Input power (R1, R18) -/

theorem takeFreeWide_power (n : Nat) (s : State) : (takeFreeWide n s).2.power = s.power := by
  induction n with
  | zero => rfl
  | succ n ih => simp [takeFreeWide, takeFree, ih]

theorem divergence_power (num epoch : Nat) (mine theirs : Bytes) (s : State) :
    (divergence num epoch mine theirs s).power = s.power := by
  have h : Reports s (divergence num epoch mine theirs s) := by
    simp only [divergence]
    exact (reports_setPobj s _ _ _ _).trans ((reports_raiseEvent _ _ _).trans (reports_bump _ _ _))
  exact h.kept State.power fun _ _ _ _ _ => rfl

theorem lovageNote_power (code : Nat) (data : Bytes) (s : State) : (lovageNote code data s).power = s.power :=
  (reports_lovageNote s code data).kept State.power fun _ _ _ _ _ => rfl

theorem restoreRws_power (k : Nat) (s : State) : (restoreRws k s).power = s.power := by
  simp only [restoreRws]
  split
  · rw [lovageNote_power]
  · rfl
  · simp only [divergence_power, takeFreeWide_power]

theorem mramUpset_power (x : MramUpset) (s : State) : (mramUpset x s).power = s.power := by simp [mramUpset]

theorem execPowerOn_next {s : State} (h : s.power.powered = false) (bad : List MramUpset) :
    ∃ u, execPowerOn bad s = .next u ∧ u.ptime = 0 ∧ u.power.powered = true := by
  refine ⟨_, rfl, ?_, ?_⟩
  · simp only [h, Bool.false_eq_true, if_false, lovageNote_ptime]
    rw [foldl_keeps State.ptime (fun s k => restoreRws_ptime k s), foldl_keeps State.ptime (fun s x => mramUpset_ptime x s)]
    split <;> simp
  · simp only [h, Bool.false_eq_true, if_false, lovageNote_power]
    rw [foldl_keeps State.power (fun s k => restoreRws_power k s), foldl_keeps State.power (fun s x => mramUpset_power x s)]
    split <;> rfl

theorem execPoweredTimeTick_next {s : State} (h : s.power.powered = true) :
    ∃ u, execPoweredTimeTick s = .next u ∧ u.ptime = (s.ptime + 10) % 2 ^ 64 :=
  ⟨_, rfl, by simp only [h, Bool.true_eq_false, if_false]⟩

theorem execInputPowerLoss_next {s : State} (h : s.power.powered = true) :
    ∃ u, execInputPowerLoss s = .next u ∧ u.ptime = 0 ∧ u.power.powered = false := by
  refine ⟨_, rfl, ?_, ?_⟩ <;> simp only [h, Bool.true_eq_false, if_false]
  simp [State.reset]

/-- Each other command is one operation of the model, whose lemma says that it keeps powered time. -/
theorem exec_keepsTime (c : Instr) (s : State) (htick : c ≠ .poweredTimeTick) (hon : ∀ bad, c ≠ .powerOn bad)
    (hloss : c ≠ .inputPowerLoss) : KeepsTime s (exec c s) := by
  cases c with
  | poweredTimeTick => exact absurd rfl htick
  | powerOn bad => exact absurd rfl (hon bad)
  | inputPowerLoss => exact absurd rfl hloss
  | _ => simp [exec]

/-- Settles O4: the power-on, the tick and the loss of input power by what they write, every other command by
`exec_keepsTime`. -/
theorem poweredTimeRunsFromPowerOn : Obligations.PoweredTimeRunsFromPowerOn :=
  ⟨fun _ bad h => execPowerOn_next h bad, fun _ h => execPoweredTimeTick_next h,
    fun c s t h htick hon hloss => exec_keepsTime c s htick hon hloss t h, fun _ h => execInputPowerLoss_next h⟩

end Sys2Proof.Machine
end
